-- ==== Sys2Proof/Word.lean ====
section
/-! DEFINITION. The widths the manual works in and the plainest arithmetic on them. -/

namespace Sys2Proof

/-- A 64-bit register value, address or doubleword. -/
abbrev Word := BitVec 64

/-- A byte of memory (R2: little-endian throughout). -/
abbrev Byte := BitVec 8

/-- An instruction word (R32). -/
abbrev Code := BitVec 32

/-- A lane mask: bit l is lane l; the bits at and above the team's width are zero (R17). -/
abbrev Mask := BitVec 1024

/-- The values of one vector register, lane 0 first; a lane beyond the end of the list reads zero (R126). -/
abbrev Lanes := List Word

end Sys2Proof
end

