-- ==== Sys2Proof/Syntax.lean ====
section
/-! DEFINITION. The instructions: the formats of R43 as records of their fields, and Instr, one constructor for each
row of the opcode table. A field keeps the bits the word holds; WellFormed says which values are legal (R44). -/

namespace Sys2Proof

/-- Format V (R43). -/
structure FmtV where
  c : Bool
  g : BitVec 4
  d : BitVec 5
  a : BitVec 5
  b : BitVec 5
  t : BitVec 2
  deriving DecidableEq, Repr

/-- Format VI (R43). -/
structure FmtVI where
  c : Bool
  g : BitVec 4
  d : BitVec 5
  a : BitVec 5
  imm : BitVec 7
  deriving DecidableEq, Repr

/-- Format VS (R43). -/
structure FmtVS where
  c : Bool
  g : BitVec 4
  d : BitVec 5
  a : BitVec 5
  s : BitVec 5
  t : BitVec 2
  deriving DecidableEq, Repr

/-- Format S (R43). -/
structure FmtS where
  c : Bool
  sd : BitVec 5
  sa : BitVec 5
  sb : BitVec 5
  f : BitVec 6
  deriving DecidableEq, Repr

/-- Format SI (R43). -/
structure FmtSI where
  c : Bool
  sd : BitVec 5
  sa : BitVec 5
  imm : BitVec 11
  deriving DecidableEq, Repr

/-- Format PC (R43); b is the scalar register in ICMPS. -/
structure FmtPC where
  c : Bool
  cond : BitVec 4
  pd : BitVec 7
  a : BitVec 5
  b : BitVec 5
  k : BitVec 2
  t : BitVec 2
  deriving DecidableEq, Repr

/-- Format PCS (R43); z is the reserved field [1:0]. -/
structure FmtPCS where
  c : Bool
  cond : BitVec 4
  pd : BitVec 7
  sa : BitVec 5
  sb : BitVec 5
  k : BitVec 2
  z : BitVec 2
  deriving DecidableEq, Repr

/-- Format PL (R43). -/
structure FmtPL where
  c : Bool
  pd : BitVec 7
  pa : BitVec 7
  pb : BitVec 7
  deriving DecidableEq, Repr

/-- Format B (R43). -/
structure FmtB where
  c : Bool
  g : BitVec 4
  off : BitVec 17
  deriving DecidableEq, Repr

/-- Format LP (R43). -/
structure FmtLP where
  c : Bool
  l : BitVec 2
  s : BitVec 5
  imm : BitVec 6
  len : BitVec 8
  deriving DecidableEq, Repr

/-- Format M (R43). -/
structure FmtM where
  c : Bool
  g : BitVec 4
  d : BitVec 5
  s : BitVec 5
  x : BitVec 5
  z : BitVec 2
  deriving DecidableEq, Repr

/-- Format E (R43). -/
structure FmtE where
  c : Bool
  p : BitVec 5
  q : BitVec 5
  w : BitVec 5
  f : BitVec 6
  deriving DecidableEq, Repr

/-- The V variant of row 0x13 (R51, R157). -/
structure FmtCv where
  c : Bool
  g : BitVec 4
  d : BitVec 5
  a : BitVec 5
  rm : BitVec 3
  st : BitVec 2
  t : BitVec 2
  deriving DecidableEq, Repr

/-- The M variant of row 0x15 (R51, R167). -/
structure FmtMq where
  c : Bool
  g : BitVec 4
  d : BitVec 5
  s : BitVec 5
  rm : BitVec 3
  fmt : BitVec 4
  deriving DecidableEq, Repr

/-- Format M as row 0x24 uses it (R229). -/
structure FmtA where
  c : Bool
  g : BitVec 4
  d : BitVec 5
  s : BitVec 5
  scope : BitVec 3
  r : Bool
  u : Bool
  z : BitVec 2
  deriving DecidableEq, Repr

/-- What a remote operation does at its home (R346, R352, R354). -/
inductive RemoteKind where
  /-- A read of n bytes. -/
  | read (n : Nat)
  /-- A write of these bytes. -/
  | write (data : List Byte)
  /-- A row 0x24 operation (code 0 to 9) on z bytes with its data and, for compare and swap, the new value, and whether it
  returns the old one (R230, R352). -/
  | atomic (op z : Nat) (unsigned : Bool) (data new : Word) (returning : Bool)
  /-- A publish at the home record of the page of the address (R319). -/
  | publish (step : Nat) (root : Word)
  /-- A replica's registration and its fetch of the record's steps and roots (R320, R435). -/
  | entries
  /-- A fetch of a node or leaf of a version of the page, by name (R320): descriptor and contents. -/
  | named (name : Word)
  /-- One that has been performed in the CXL pool that a forwarding pointer named (R361): the line that it read, whether it
  was uncorrectable, and the old value of an atomic. -/
  | performed (line : BitVec 512) (bad : Bool) (old : Word)
  deriving DecidableEq, Repr

/-- A request that another package sends here (R346, R347, R356): its source package, the sender's group context, the
sending team and its sequence number for the line, and what it does at a physical address. A request of a PUTSIG whose
payload and flag lie on one package carries the number of the PUTSIG and, in the flag's, the payload writes before it (R354). -/
structure RemoteRequest where
  source : Nat
  gctx : Nat
  team : Nat
  seq : Nat
  addr : Nat
  kind : RemoteKind
  signal : Option (Nat × Nat) := none
  /-- The package and line that it was sent to first, where a pointer has sent it on (R361): its number is one of theirs. -/
  origin : Option (Nat × Nat) := none
  /-- The number up to which that home had performed the requests of its team and line. -/
  base : Nat := 0
  deriving DecidableEq, Repr

/-- The answer of another package to an operation of this one (R351, R353, R364): done, with the doublewords fetched or the
old values; the same with data that was poisoned at the home; the lines read, each with whether it was poisoned or
uncorrectable; a pointer to where the page has gone, a package or a CXL pool, and its page or address, with the number up to
which the requests of the team and line have been performed (R361); or failed with a cause code 80 to 84, of its first request
or of request n. -/
inductive RemoteAnswer where
  | done (vals : List Word)
  | poisoned (vals : List Word)
  | lines (ls : List (BitVec 512 × Bool))
  | moved (cxl : Bool) (pkg addr base : Nat)
  | failed (cause : Nat)
  | failedAt (n cause : Nat)
  deriving DecidableEq, Repr

/-- What the two sides of a link tell each other at the end of retraining (R363). -/
structure LinkSummary where
  width : Nat
  laneMap : Nat
  speed : Nat
  deriving DecidableEq, Repr

/-- The answer to a fetch of a version record's entries (R435): steps and roots, or a fabric cause. -/
inductive FetchAnswer where
  | entries (es : List (Nat × Word))
  | failed (cause : Nat)
  deriving DecidableEq, Repr

/-- The answer to a fetch of tree lines (R320): for each line its name, descriptor and contents, or a fabric cause. -/
inductive LineAnswer where
  | lines (ls : List (Word × BitVec 16 × BitVec 512))
  | failed (cause : Nat)
  deriving DecidableEq, Repr

/-- A contribution arriving at a quorum slot (R335, R339, R364): of a QCONT of this package (its operation), or of another
package under a group context, with its sequence number. -/
inductive Contribution where
  | fromHere (op : Nat)
  | fromPackage (source gctx seq die slot tag : Nat) (vals : List (BitVec 32))
  deriving DecidableEq, Repr

/-- What the loader finds of an image (R412, R413, R417): the signature's verdict, the security version, and the first words of
the firmware and of the supervisor image in it. -/
structure ImageCheck where
  signed : Bool
  secver : Nat
  entry : Nat
  sup : Nat
  deriving DecidableEq, Repr

/-- A host access (R421): through CXL.mem a read of n bytes, or a write, at an offset of the HDM range; through CXL.io a read or
a write of a doubleword of the register block of BAR0; or a write of the host to its own memory, which are the CXL pages. -/
inductive HostAccess where
  | read (offset n : Nat)
  | write (offset : Nat) (data : List Byte)
  | readRegister (offset : Nat)
  | writeRegister (offset : Nat) (v : Word)
  | writeHostMemory (addr : Nat) (data : List Byte)
  deriving DecidableEq, Repr

/-- The operands of a step that has no encoding: what happened, as the outside world or the engine names it (log 2). -/
inductive Detail where
  | nothing
  /-- Numbers that name what happens: an operation, a core, a die and a slot, a context and a peer, a link. -/
  | place (a b : Nat)
  /-- A value written to the register that the numbers name. -/
  | value (a b : Nat) (v : Word)
  /-- Arguments of a mailbox command. -/
  | values (a : Nat) (u v w : Word)
  | request (r : RemoteRequest)
  | answer (id : Nat) (r : RemoteAnswer)
  /-- A forwarding pointer that request n of an operation meets (R361): a package or a CXL pool, and the pointer, whose page is
  the new one; with the number up to which the old home has performed the requests of the team and line. -/
  | forwarded (id n : Nat) (cxl : Bool) (pkg : Nat) (ptr : Word) (base : Nat)
  /-- A page of this package is found to have migrated (R361): its number, and where it has gone. -/
  | migrated (page : Nat) (cxl : Bool) (pkg addr : Nat)
  | summary (link : Nat) (mine theirs : LinkSummary)
  /-- A step announcement: group context, peer, step. -/
  | announce (gctx peer step : Nat)
  /-- A publish message: group context, page, step, root (R320). -/
  | publish (gctx page step : Nat) (root : Word)
  | fetched (ctx page : Nat) (r : FetchAnswer)
  | lines (ctx page step : Nat) (r : LineAnswer)
  | contribution (q : Contribution)
  | numbers (xs : List Nat)
  | image (v : ImageCheck)
  /-- What the boot layers find of the images of slots A and B, and the verdict on the firmware loader (R412, R413). -/
  | boot (a b : ImageCheck) (layer1 : Bool)
  /-- Algorithms that a requester offers (R415): the registry and algorithm IDs of the extended ones, AES-256-GCM, and the SPDM
  key schedule. -/
  | offer (ext : List (Nat × Nat)) (aead schedule : Bool)
  /-- A request of a session, by its number, sealed with AES-256-GCM (R414, R415). -/
  | sealed (session : Nat) (data : List Byte)
  | bytes (a b : Nat) (data : List Byte)
  | host (a : HostAccess)
  deriving DecidableEq, Repr

/-- Every row of the opcode table: the 247 encodings of R53 with the fields of their format (R43), then the steps
of the table that have no encoding (spec/95), whose operands State.detail holds. JOIN and EXIT have no field: every bit
of their words is fixed, and one with C = 1 breaks R35. -/
inductive Instr where
  /-- BRA (R78). -/
  | bra (f : FmtB)
  /-- BANY (R79). -/
  | bany (f : FmtB)
  /-- BALL (R79). -/
  | ball (f : FmtB)
  /-- CALL (R80). -/
  | call (f : FmtB)
  /-- MARK (R81). -/
  | mark (f : FmtB)
  /-- IPF (R82). -/
  | ipf (f : FmtB)
  /-- BRI (R83). -/
  | bri (f : FmtS)
  /-- CALLI (R83). -/
  | calli (f : FmtS)
  /-- RET (R83). -/
  | ret (f : FmtS)
  /-- YIELD (R83). -/
  | yield (f : FmtS)
  /-- NOP (R41). -/
  | nop (f : FmtS)
  /-- LOOP (R89). -/
  | loop (f : FmtLP)
  /-- LOOPI (R89). -/
  | loopi (f : FmtLP)
  /-- LBRK (R92). -/
  | lbrk (f : FmtLP)
  /-- IADD (R105). -/
  | iadd (f : FmtV)
  /-- ISUB (R105). -/
  | isub (f : FmtV)
  /-- IMUL (R105). -/
  | imul (f : FmtV)
  /-- IMULH (R105). -/
  | imulh (f : FmtV)
  /-- IMAC (R105). -/
  | imac (f : FmtV)
  /-- IMIN (R105). -/
  | imin (f : FmtV)
  /-- IMAX (R105). -/
  | imax (f : FmtV)
  /-- UMIN (R105). -/
  | umin (f : FmtV)
  /-- UMAX (R105). -/
  | umax (f : FmtV)
  /-- AND (R105). -/
  | and (f : FmtV)
  /-- OR (R105). -/
  | or (f : FmtV)
  /-- XOR (R105). -/
  | xor (f : FmtV)
  /-- ANDN (R105). -/
  | andn (f : FmtV)
  /-- SHL (R105). -/
  | shl (f : FmtV)
  /-- SHR (R105). -/
  | shr (f : FmtV)
  /-- SAR (R105). -/
  | sar (f : FmtV)
  /-- IADDI (R106). -/
  | iaddi (f : FmtVI)
  /-- IMULI (R106). -/
  | imuli (f : FmtVI)
  /-- ANDI (R106). -/
  | andi (f : FmtVI)
  /-- ORI (R106). -/
  | ori (f : FmtVI)
  /-- XORI (R106). -/
  | xori (f : FmtVI)
  /-- SHLI (R106). -/
  | shli (f : FmtVI)
  /-- SHRI (R106). -/
  | shri (f : FmtVI)
  /-- SARI (R106). -/
  | sari (f : FmtVI)
  /-- POPC (R107). -/
  | popc (f : FmtV)
  /-- CLZ (R107). -/
  | clz (f : FmtV)
  /-- BREV (R107). -/
  | brev (f : FmtV)
  /-- BFX (R108). -/
  | bfx (f : FmtV)
  /-- BFI (R108). -/
  | bfi (f : FmtV)
  /-- IADDS (R107). -/
  | iadds (f : FmtV)
  /-- ISUBS (R107). -/
  | isubs (f : FmtV)
  /-- UADDS (R107). -/
  | uadds (f : FmtV)
  /-- USUBS (R107). -/
  | usubs (f : FmtV)
  /-- SEL (R109). -/
  | sel (f : FmtV)
  /-- SADD (R110). -/
  | sadd (f : FmtS)
  /-- SSUB (R110). -/
  | ssub (f : FmtS)
  /-- SMUL (R110). -/
  | smul (f : FmtS)
  /-- SMULH (R110). -/
  | smulh (f : FmtS)
  /-- SAND (R110). -/
  | sand (f : FmtS)
  /-- SOR (R110). -/
  | sor (f : FmtS)
  /-- SXOR (R110). -/
  | sxor (f : FmtS)
  /-- SSHL (R110). -/
  | sshl (f : FmtS)
  /-- SSHR (R110). -/
  | sshr (f : FmtS)
  /-- SSAR (R110). -/
  | ssar (f : FmtS)
  /-- SMIN (R110). -/
  | smin (f : FmtS)
  /-- SMAX (R110). -/
  | smax (f : FmtS)
  /-- SMOV (R110). -/
  | smov (f : FmtS)
  /-- SADDI (R111). -/
  | saddi (f : FmtSI)
  /-- SANDI (R111). -/
  | sandi (f : FmtSI)
  /-- SORI (R111). -/
  | sori (f : FmtSI)
  /-- SXORI (R111). -/
  | sxori (f : FmtSI)
  /-- SSHLI (R111). -/
  | sshli (f : FmtSI)
  /-- SSHRI (R111). -/
  | sshri (f : FmtSI)
  /-- SLDI (R111). -/
  | sldi (f : FmtSI)
  /-- SLIT (R111). -/
  | slit (f : FmtSI) (lit : Code)
  /-- SLITH (R111). -/
  | slith (f : FmtSI) (lit : Code)
  /-- ADDS (R112). -/
  | adds (f : FmtVS)
  /-- SUBS (R112). -/
  | subs (f : FmtVS)
  /-- MULS (R112). -/
  | muls (f : FmtVS)
  /-- SHLS (R112). -/
  | shls (f : FmtVS)
  /-- ANDS (R112). -/
  | ands (f : FmtVS)
  /-- BCAST (R112). -/
  | bcast (f : FmtVS)
  /-- LEA (R113). -/
  | lea (f : FmtVS)
  /-- ICMP (R114). -/
  | icmp (f : FmtPC)
  /-- FCMP (R115). -/
  | fcmp (f : FmtPC)
  /-- ICMPS (R114). -/
  | icmps (f : FmtPC)
  /-- PAND (R117). -/
  | pand (f : FmtPL)
  /-- POR (R117). -/
  | por (f : FmtPL)
  /-- PXOR (R117). -/
  | pxor (f : FmtPL)
  /-- PANDN (R117). -/
  | pandn (f : FmtPL)
  /-- PNOT (R117). -/
  | pnot (f : FmtPL)
  /-- PMOV (R117). -/
  | pmov (f : FmtPL)
  /-- PSETA (R117). -/
  | pseta (f : FmtPL)
  /-- PCLR (R117). -/
  | pclr (f : FmtPL)
  /-- SCMP (R116). -/
  | scmp (f : FmtPCS)
  /-- MOV (R139). -/
  | mov (f : FmtV)
  /-- XRD (R139). -/
  | xrd (f : FmtV)
  /-- XWR (R139). -/
  | xwr (f : FmtV)
  /-- XSET (R140). -/
  | xset (f : FmtV)
  /-- XADD (R140). -/
  | xadd (f : FmtV)
  /-- XGET (R140). -/
  | xget (f : FmtV)
  /-- RUSE (R141). -/
  | ruse (f : FmtV)
  /-- RCLR (R142). -/
  | rclr (f : FmtV)
  /-- FADD (R152). -/
  | fadd (f : FmtV)
  /-- FSUB (R152). -/
  | fsub (f : FmtV)
  /-- FMUL (R152). -/
  | fmul (f : FmtV)
  /-- FMAC (R152). -/
  | fmac (f : FmtV)
  /-- FNMAC (R152). -/
  | fnmac (f : FmtV)
  /-- FMIN (R153). -/
  | fmin (f : FmtV)
  /-- FMAX (R153). -/
  | fmax (f : FmtV)
  /-- FABS (R152). -/
  | fabs (f : FmtV)
  /-- FNEG (R152). -/
  | fneg (f : FmtV)
  /-- FCPYS (R152). -/
  | fcpys (f : FmtV)
  /-- FRCP (R154). -/
  | frcp (f : FmtV)
  /-- FRSQ (R154). -/
  | frsq (f : FmtV)
  /-- FSQRT (R154). -/
  | fsqrt (f : FmtV)
  /-- FEXP2 (R154). -/
  | fexp2 (f : FmtV)
  /-- FLOG2 (R154). -/
  | flog2 (f : FmtV)
  /-- FSIN (R154). -/
  | fsin (f : FmtV)
  /-- FCOS (R154). -/
  | fcos (f : FmtV)
  /-- FTANH (R154). -/
  | ftanh (f : FmtV)
  /-- CVTFF (R159). -/
  | cvtff (f : FmtCv)
  /-- CVTFI (R160). -/
  | cvtfi (f : FmtCv)
  /-- CVTIF (R159). -/
  | cvtif (f : FmtCv)
  /-- CVTII (R161). -/
  | cvtii (f : FmtCv)
  /-- IDOT4 (R162). -/
  | idot4 (f : FmtV)
  /-- IDOT8 (R162). -/
  | idot8 (f : FmtV)
  /-- IDOT16 (R162). -/
  | idot16 (f : FmtV)
  /-- FDOTB (R163). -/
  | fdotb (f : FmtV)
  /-- LDQ (R171). -/
  | ldq (f : FmtMq)
  /-- STQ (R169). -/
  | stq (f : FmtMq)
  /-- SHFL (R177). -/
  | shfl (f : FmtV)
  /-- SHFLX (R177). -/
  | shflx (f : FmtV)
  /-- BCL (R177). -/
  | bcl (f : FmtV)
  /-- BALLOT (R179). -/
  | ballot (f : FmtV)
  /-- VANY (R180). -/
  | vany (f : FmtV)
  /-- VALL (R180). -/
  | vall (f : FmtV)
  /-- PCNT (R180). -/
  | pcnt (f : FmtV)
  /-- PFIRST (R180). -/
  | pfirst (f : FmtV)
  /-- SCAN (R181). -/
  | scan (f : FmtV)
  /-- SCANX (R181). -/
  | scanx (f : FmtV)
  /-- RED (R181). -/
  | red (f : FmtV)
  /-- COMPACT (R184). -/
  | compact (f : FmtV)
  /-- LEXT (R178). -/
  | lext (f : FmtV)
  /-- LEXT_ID (R178). -/
  | lextId (f : FmtV)
  /-- LEXT_HOME (R178). -/
  | lextHome (f : FmtV)
  /-- LINS (R178). -/
  | lins (f : FmtV)
  /-- LDL (R197). -/
  | ldl (f : FmtM)
  /-- LDG (R197). -/
  | ldg (f : FmtM)
  /-- LDP (R199). -/
  | ldp (f : FmtM)
  /-- LDPG (R199). -/
  | ldpg (f : FmtM)
  /-- LDU (R198). -/
  | ldu (f : FmtM)
  /-- LDL_RO (R202). -/
  | ldlRo (f : FmtM)
  /-- LDG_RO (R202). -/
  | ldgRo (f : FmtM)
  /-- LDU_RO (R202). -/
  | lduRo (f : FmtM)
  /-- LDL_NT (R203). -/
  | ldlNt (f : FmtM)
  /-- LDG_NT (R203). -/
  | ldgNt (f : FmtM)
  /-- STL (R197). -/
  | stl (f : FmtM)
  /-- STG (R197). -/
  | stg (f : FmtM)
  /-- STP (R199). -/
  | stp (f : FmtM)
  /-- STPG (R199). -/
  | stpg (f : FmtM)
  /-- STU (R198). -/
  | stu (f : FmtM)
  /-- STL_NT (R203). -/
  | stlNt (f : FmtM)
  /-- STG_NT (R203). -/
  | stgNt (f : FmtM)
  /-- FENCE (R209). -/
  | fence (f : FmtS)
  /-- LDACQ (R210). -/
  | ldacq (f : FmtS)
  /-- STREL (R210). -/
  | strel (f : FmtS)
  /-- L1INV (R211). -/
  | l1inv (f : FmtS)
  /-- L1WB (R211). -/
  | l1wb (f : FmtS)
  /-- PFD (R211). -/
  | pfd (f : FmtS)
  /-- AADD (R230). -/
  | aadd (f : FmtA)
  /-- AFADD (R230). -/
  | afadd (f : FmtA)
  /-- AMIN (R230). -/
  | amin (f : FmtA)
  /-- AMAX (R230). -/
  | amax (f : FmtA)
  /-- AFMAX (R230). -/
  | afmax (f : FmtA)
  /-- AAND (R230). -/
  | aand (f : FmtA)
  /-- AOR (R230). -/
  | aor (f : FmtA)
  /-- AXOR (R230). -/
  | axor (f : FmtA)
  /-- AXCH (R230). -/
  | axch (f : FmtA)
  /-- ACAS (R230). -/
  | acas (f : FmtA)
  /-- BARV (R240). -/
  | barv (f : FmtE)
  /-- BARW (R240). -/
  | barw (f : FmtE)
  /-- BARS (R240). -/
  | bars (f : FmtE)
  /-- BARI (R240). -/
  | bari (f : FmtE)
  /-- CPY (R254). -/
  | cpy (f : FmtE)
  /-- CPYP (R256). -/
  | cpyp (f : FmtE)
  /-- GATH (R257). -/
  | gath (f : FmtE)
  /-- SCAT (R257). -/
  | scat (f : FmtE)
  /-- BCLOSE (R247). -/
  | bclose (f : FmtE)
  /-- BWAIT (R248). -/
  | bwait (f : FmtE)
  /-- BSTAT (R253). -/
  | bstat (f : FmtE)
  /-- PUSH (R260). -/
  | push (f : FmtE)
  /-- POP (R260). -/
  | pop (f : FmtE)
  /-- PEOS (R262). -/
  | peos (f : FmtE)
  /-- PSTAT (R264). -/
  | pstat (f : FmtE)
  /-- MMA (R275). -/
  | mma (f : FmtE)
  /-- MMAZ (R275). -/
  | mmaz (f : FmtE)
  /-- ACCZ (R279). -/
  | accz (f : FmtE)
  /-- ACCRD (R280). -/
  | accrd (f : FmtE)
  /-- ACCWR (R280). -/
  | accwr (f : FmtE)
  /-- GANG (R284). -/
  | gang (f : FmtE)
  /-- MAPSET (R274). -/
  | mapset (f : FmtE)
  /-- WINSET (R278). -/
  | winset (f : FmtE)
  /-- CLOOK (R304). -/
  | clook (f : FmtE)
  /-- CNODE (R305). -/
  | cnode (f : FmtE)
  /-- CREAD (R306). -/
  | cread (f : FmtE)
  /-- CWALK (R307). -/
  | cwalk (f : FmtE)
  /-- CREF (R308). -/
  | cref (f : FmtE)
  /-- CREL (R308). -/
  | crel (f : FmtE)
  /-- CROOT (R310). -/
  | croot (f : FmtE)
  /-- CSWAP (R311). -/
  | cswap (f : FmtE)
  /-- COUT (R312). -/
  | cout (f : FmtE)
  /-- CNEW (R309). -/
  | cnew (f : FmtE)
  /-- LDV (R322). -/
  | ldv (f : FmtE)
  /-- PUBL (R319). -/
  | publ (f : FmtE)
  /-- VSTEP (R324). -/
  | vstep (f : FmtE)
  /-- VPIN (R324). -/
  | vpin (f : FmtE)
  /-- VUNPIN (R324). -/
  | vunpin (f : FmtE)
  /-- STEPA (R330). -/
  | stepa (f : FmtE)
  /-- STEPR (R331). -/
  | stepr (f : FmtE)
  /-- PEXC (R332). -/
  | pexc (f : FmtE)
  /-- PLEAD (R332). -/
  | plead (f : FmtE)
  /-- QOPEN (R334). -/
  | qopen (f : FmtE)
  /-- QCONT (R339). -/
  | qcont (f : FmtE)
  /-- QWAIT (R340). -/
  | qwait (f : FmtE)
  /-- QREAD (R341). -/
  | qread (f : FmtE)
  /-- QSTAT (R340). -/
  | qstat (f : FmtE)
  /-- RLD (R351). -/
  | rld (f : FmtE)
  /-- RST (R352). -/
  | rst (f : FmtE)
  /-- PUTSIG (R354). -/
  | putsig (f : FmtE)
  /-- RATOM (R352). -/
  | ratom (f : FmtE)
  /-- RFENCE (R355). -/
  | rfence (f : FmtE)
  /-- TRAP (R375). -/
  | trap (f : FmtE)
  /-- RETT (R376). -/
  | rett (f : FmtE)
  /-- SRD (R377). -/
  | srd (f : FmtE)
  /-- SWR (R377). -/
  | swr (f : FmtE)
  /-- TLBINV (R378). -/
  | tlbinv (f : FmtE)
  /-- KEYKILL (R392). -/
  | keykill (f : FmtE)
  /-- HALT_STOP (R380). -/
  | haltStop (f : FmtE)
  /-- HALT_SWAP (R391). -/
  | haltSwap (f : FmtE)
  /-- HALT_GO (R380). -/
  | haltGo (f : FmtE)
  /-- BKPT (R375). -/
  | bkpt (f : FmtE)
  /-- LAUNCH (R408). -/
  | launch (f : FmtE)
  /-- LAUNCH_PRO (R405). -/
  | launchPro (f : FmtE)
  /-- LCANCEL (R405). -/
  | lcancel (f : FmtE)
  /-- LCANCEL_AGAIN (R405). -/
  | lcancelAgain (f : FmtE)
  /-- QPOST (R409). -/
  | qpost (f : FmtE)
  /-- QTAKE (R400). -/
  | qtake (f : FmtE)
  /-- TSPAWN (R410). -/
  | tspawn (f : FmtE)
  /-- TSTEAL (R410). -/
  | tsteal (f : FmtE)
  /-- JOIN (R84). -/
  | join
  /-- EXIT (R85). -/
  | exit
  /-- HALT_IDLE (R380). -/
  | haltIdle
  /-- ISSUE_RUN_END (R63), a step without an encoding. -/
  | issueRunEnd
  /-- ICACHE_LINE_FILL (R68), a step without an encoding. -/
  | icacheLineFill
  /-- MEMORY_REPLY (R197), a step without an encoding. -/
  | memoryReply
  /-- ATOMIC_RETURN (R235), a step without an encoding. -/
  | atomicReturn
  /-- COPY_OP_COMPLETE (R249), a step without an encoding. -/
  | copyOpComplete
  /-- MATRIX_OP_START (R287), a step without an encoding. -/
  | matrixOpStart
  /-- MATRIX_OP_COMPLETE (R282), a step without an encoding. -/
  | matrixOpComplete
  /-- STORE_VALUE_RETURN (R303), a step without an encoding. -/
  | storeValueReturn
  /-- STORE_OP_COMPLETE (R303), a step without an encoding. -/
  | storeOpComplete
  /-- REMOTE_REQUEST (R356), a step without an encoding. -/
  | remoteRequest
  /-- REMOTE_REPLY (R351), a step without an encoding. -/
  | remoteReply
  /-- FABRIC_ACK (R355), a step without an encoding. -/
  | fabricAck
  /-- FORWARDING_POINTER (R361), a step without an encoding. -/
  | forwardingPointer
  /-- FABRIC_TIMEOUT (R364), a step without an encoding. -/
  | fabricTimeout
  /-- FABRIC_REPLAY (R364), a step without an encoding. -/
  | fabricReplay
  /-- LINK_RETRAIN (R363), a step without an encoding. -/
  | linkRetrain
  /-- STEP_ANNOUNCEMENT (R327), a step without an encoding. -/
  | stepAnnouncement
  /-- HEARTBEAT_PERIOD (R327), a step without an encoding. -/
  | heartbeatPeriod
  /-- PEER_SILENT (R328), a step without an encoding. -/
  | peerSilent
  /-- PUBLISH_MESSAGE (R320), a step without an encoding. -/
  | publishMessage
  /-- REPLICA_FETCH_COMPLETE (R435), a step without an encoding. -/
  | replicaFetchComplete
  /-- REPLICA_LINE_FETCH (R320), a step without an encoding. -/
  | replicaLineFetch
  /-- LDV_WAIT_LIMIT (R323), a step without an encoding. -/
  | ldvWaitLimit
  /-- QUORUM_CONTRIBUTION (R335), a step without an encoding. -/
  | quorumContribution
  /-- QUORUM_TIMER_EXPIRY (R336), a step without an encoding. -/
  | quorumTimerExpiry
  /-- QCONT_RESEND (R339), a step without an encoding. -/
  | qcontResend
  /-- CHUNK_REQUEST (R403), a step without an encoding. -/
  | chunkRequest
  /-- BLOCK_PLACEMENT (R404), a step without an encoding. -/
  | blockPlacement
  /-- PROLOGUE_START (R405), a step without an encoding. -/
  | prologueStart
  /-- PROLOGUE_REPEAT (R405), a step without an encoding. -/
  | prologueRepeat
  /-- LAUNCH_END (R401), a step without an encoding. -/
  | launchEnd
  /-- PARTITION_DRAIN_COMPLETE (R27), a step without an encoding. -/
  | partitionDrainComplete
  /-- MACHINE_CHECK (R388), a step without an encoding. -/
  | machineCheck
  /-- LEASE_EXPIRY (R396), a step without an encoding. -/
  | leaseExpiry
  /-- LEASE_RENEW (R396), a step without an encoding. -/
  | leaseRenew
  /-- LEASE_ACQUIRE (R396), a step without an encoding. -/
  | leaseAcquire
  /-- LEASE_RELEASE (R396), a step without an encoding. -/
  | leaseRelease
  /-- CTXCTL_CREATE (R390), a step without an encoding. -/
  | ctxctlCreate
  /-- CTXCTL_KILL (R388), a step without an encoding. -/
  | ctxctlKill
  /-- FQDONE_WRITE (R384), a step without an encoding. -/
  | fqdoneWrite
  /-- PGSIZE_WRITE (R326), a step without an encoding. -/
  | pgsizeWrite
  /-- PGOWN_WRITE (R393), a step without an encoding. -/
  | pgownWrite
  /-- CTXGID_WRITE (R347), a step without an encoding. -/
  | ctxgidWrite
  /-- EVQHEAD_WRITE (R387), a step without an encoding. -/
  | evqheadWrite
  /-- LQTAIL_DOORBELL (R397), a step without an encoding. -/
  | lqtailDoorbell
  /-- LQCTL_WRITE (R398), a step without an encoding. -/
  | lqctlWrite
  /-- DGLEN_WRITE (R440), a step without an encoding. -/
  | dglenWrite
  /-- DIGEST_COMPLETE (R440), a step without an encoding. -/
  | digestComplete
  /-- DGOUT_READ (R440), a step without an encoding. -/
  | dgoutRead
  /-- HBEAT_WRITE (R417), a step without an encoding. -/
  | hbeatWrite
  /-- HBTO_EXPIRY (R417), a step without an encoding. -/
  | hbtoExpiry
  /-- HANDOVER (R417), a step without an encoding. -/
  | handover
  /-- IMAGE_VERIFY (R417), a step without an encoding. -/
  | imageVerify
  /-- IMGWRITE (R421), a step without an encoding. -/
  | imgwrite
  /-- UPDATE (R438), a step without an encoding. -/
  | update
  /-- CKPT (R423), a step without an encoding. -/
  | ckpt
  /-- CKPT_COMPLETE (R423), a step without an encoding. -/
  | ckptComplete
  /-- HEALTH (R427), a step without an encoding. -/
  | health
  /-- RESET_WARM (R422), a step without an encoding. -/
  | resetWarm
  /-- RESET_PORT (R422), a step without an encoding. -/
  | resetPort
  /-- RESTORE (R425), a step without an encoding. -/
  | restore
  /-- RESTORE_COMPLETE (R425), a step without an encoding. -/
  | restoreComplete
  /-- PORT_RESET (R422), a step without an encoding. -/
  | portReset
  /-- COLD_RESET (R422), a step without an encoding. -/
  | coldReset
  /-- HOST_MEM_ACCESS (R421), a step without an encoding. -/
  | hostMemAccess
  /-- GET_VERSION (R414), a step without an encoding. -/
  | getVersion
  /-- GET_CAPABILITIES (R414), a step without an encoding. -/
  | getCapabilities
  /-- NEGOTIATE_ALGORITHMS (R415), a step without an encoding. -/
  | negotiateAlgorithms
  /-- GET_DIGESTS (R414), a step without an encoding. -/
  | getDigests
  /-- GET_CERTIFICATE (R414), a step without an encoding. -/
  | getCertificate
  /-- CHALLENGE (R414), a step without an encoding. -/
  | challenge
  /-- GET_MEASUREMENTS (R416), a step without an encoding. -/
  | getMeasurements
  /-- KEY_EXCHANGE (R414), a step without an encoding. -/
  | keyExchange
  /-- FINISH (R414), a step without an encoding. -/
  | finish
  /-- SPDM_HEARTBEAT (R414), a step without an encoding. -/
  | spdmHeartbeat
  /-- END_SESSION (R414), a step without an encoding. -/
  | endSession
  /-- SPDM_RESPONSE_SIGN (R420), a step without an encoding. -/
  | spdmResponseSign
  /-- POWER_GATE_ENTRY (R426), a step without an encoding. -/
  | powerGateEntry
  /-- CORE_WAKE (R426), a step without an encoding. -/
  | coreWake
  /-- CORE_POWER_UP (R426), a step without an encoding. -/
  | corePowerUp
  /-- HEALTH_COUNTER_UPDATE (R427), a step without an encoding. -/
  | healthCounterUpdate
  /-- SWAP_EXCHANGE_COMPLETE (R391), a step without an encoding. -/
  | swapExchangeComplete
  /-- WRITE_BACK_ACK (R208), a step without an encoding. -/
  | writeBackAck
  /-- POWER_LOSS (R427), a step without an encoding. -/
  | powerLoss
  /-- RETRAINING_START (R363), a step without an encoding. -/
  | retrainingStart
  /-- UNCORRECTABLE_ERROR (R443), a step without an encoding. -/
  | uncorrectableError
  /-- SCRUBBING (R443), a step without an encoding. -/
  | scrubbing
  deriving DecidableEq, Repr

end Sys2Proof
end

