-- ==== Sys2Proof/WellFormed.lean ====
section
/-! DEFINITION. Which field values are legal: the checks whose breach raises cause 4 (BADFIELD), row by row (R44, R45,
R48 to R51 and the field table of each row). -/

namespace Sys2Proof

/-- A guard other than the reserved ?!p0 (R45). -/
def guardOk (g : BitVec 4) : Bool := g != 8

/-- A rounding mode (R50). -/
def rmOk (rm : BitVec 3) : Bool := rm.ult 5

/-- A format of STQ: a block integer of width code 0 to 4, or binary (R167). -/
def stqFmtOk (m : BitVec 4) : Bool := m.ult 5 || m == 8

/-- The registers that a line of a format spans (R168). -/
def lineRegs (m : BitVec 4) : Nat :=
  match m.toNat with
  | 0 => 8
  | 1 => 4
  | 2 => 2
  | 8 => 8
  | _ => 1

/-- SCOPE and SIZE of LDACQ and STREL (R207). -/
def fenceFOk (f : BitVec 6) : Bool := f.ult 32 && f &&& 7 != 7

/-- The scope of a barrier: CORE to PKG (R243). -/
def barScopeOk (f : BitVec 6) : Bool := f == 1 || f == 2 || f == 3 || f == 4

/-- A group of n scalars from s[p] on that stays within s31. -/
def groupOk (p : BitVec 5) (n : Nat) : Bool := Nat.ble (p.toNat + n) 32

/-- A width code with its binary mark (R253, R272). -/
def formatOk (f : BitVec 6) : Bool := f.ult 5 || f == 8

/-- The fields of RATOM (R349). -/
def ratomOk (f : FmtE) : Bool :=
  let op := f.f.toNat % 16
  Nat.ble op 9 && (f.f.getLsbD 4 || (op != 1 && op != 4)) && f.w.ult 2 && (f.w == 0 || op == 2 || op == 3) &&
    !(op == 9 && f.f.getLsbD 5) && Nat.ble (f.p.toNat + (if op == 9 then 3 else 2)) 32

/-- Every field of the instruction holds a legal value, and every unused field is zero. -/
def Instr.wf : Instr → Bool
  | .bra f => guardOk f.g
  | .bany f => guardOk f.g
  | .ball f => guardOk f.g
  | .call f => f.g == 0
  | .mark f => f.g == 0
  | .ipf f => f.g == 0
  | .bri f => f.sd == 0 && f.sb == 0 && f.f == 0
  | .calli f => f.sb == 0 && f.f == 0
  | .ret f => f.sd == 0 && f.sb == 0 && f.f == 0
  | .join => true
  | .exit => true
  | .yield f => f.sd == 0 && f.sa == 0 && f.sb == 0 && f.f == 0
  | .nop f => f.sd == 0 && f.sa == 0 && f.sb == 0 && f.f == 0
  | .loop f => f.l != 3 && f.imm == 0
  | .loopi f => f.l != 3 && f.s == 0
  | .lbrk f => f.l != 3 && f.s == 0 && f.imm == 0 && f.len == 0
  | .iadd f => guardOk f.g
  | .isub f => guardOk f.g
  | .imul f => guardOk f.g
  | .imulh f => guardOk f.g
  | .imac f => guardOk f.g
  | .imin f => guardOk f.g
  | .imax f => guardOk f.g
  | .umin f => guardOk f.g
  | .umax f => guardOk f.g
  | .and f => guardOk f.g
  | .or f => guardOk f.g
  | .xor f => guardOk f.g
  | .andn f => guardOk f.g
  | .shl f => guardOk f.g
  | .shr f => guardOk f.g
  | .sar f => guardOk f.g
  | .iaddi f => guardOk f.g
  | .imuli f => guardOk f.g
  | .andi f => guardOk f.g
  | .ori f => guardOk f.g
  | .xori f => guardOk f.g
  | .shli f => guardOk f.g && f.imm.ult 32
  | .shri f => guardOk f.g && f.imm.ult 32
  | .sari f => guardOk f.g && f.imm.ult 32
  | .popc f => guardOk f.g && f.b == 0
  | .clz f => guardOk f.g && f.b == 0
  | .brev f => guardOk f.g && f.b == 0
  | .bfx f => guardOk f.g && (f.t == 0 || f.t == 3)
  | .bfi f => guardOk f.g && (f.t == 0 || f.t == 3)
  | .iadds f => guardOk f.g
  | .isubs f => guardOk f.g
  | .uadds f => guardOk f.g
  | .usubs f => guardOk f.g
  | .sel f => guardOk f.g && f.t == 0
  | .sadd f => f.f == 0
  | .ssub f => f.f == 0
  | .smul f => f.f == 0
  | .smulh f => f.f.ult 2
  | .sand f => f.f == 0
  | .sor f => f.f == 0
  | .sxor f => f.f == 0
  | .sshl f => f.f == 0
  | .sshr f => f.f == 0
  | .ssar f => f.f == 0
  | .smin f => f.f.ult 2
  | .smax f => f.f.ult 2
  | .smov f => f.sb == 0 && f.f == 0
  | .saddi _ => true
  | .sandi _ => true
  | .sori _ => true
  | .sxori _ => true
  | .sshli f => f.imm.ult 64
  | .sshri f => f.imm.ult 64
  | .sldi f => f.sa == 0
  | .slit f _ => f.sa == 0 && f.imm == 0
  | .slith f _ => f.sa == 0 && f.imm == 0
  | .adds f => guardOk f.g
  | .subs f => guardOk f.g
  | .muls f => guardOk f.g
  | .shls f => guardOk f.g
  | .ands f => guardOk f.g
  | .bcast f => guardOk f.g && f.a == 0
  | .lea f => guardOk f.g
  | .icmp f => f.cond.ult 6 && f.k.ult 2
  | .fcmp f => f.cond.ult 8 && f.k.ult 2 && f.t != 3
  | .icmps f => f.cond.ult 6 && f.k.ult 2
  | .pand _ => true
  | .por _ => true
  | .pxor _ => true
  | .pandn _ => true
  | .pnot f => f.pb == 0
  | .pmov f => f.pb == 0
  | .pseta f => f.pa == 0 && f.pb == 0
  | .pclr f => f.pa == 0 && f.pb == 0
  | .scmp f => f.cond.ult 6 && f.k.ult 2 && f.z == 0
  | .mov f => guardOk f.g && f.b == 0 && f.t == 0
  | .xrd f => guardOk f.g && f.a.ult 8 && f.t == 0
  | .xwr f => guardOk f.g && f.d.ult 8 && f.t == 0
  | .xset f => f.g == 0 && f.d.ult 8 && f.b == 0 && f.t == 0
  | .xadd f => f.g == 0 && f.d.ult 8 && f.b == 0 && f.t == 0
  | .xget f => f.g == 0 && f.a.ult 8 && f.b == 0 && f.t == 0
  | .ruse f => f.g == 0 && f.d == 0 && f.a == 0 && f.b == 0 && f.t != 3
  | .rclr f => f.g == 0 && f.d == 0 && f.a == 0 && f.b == 0 && f.t == 0
  | .fadd f => guardOk f.g && f.t != 3
  | .fsub f => guardOk f.g && f.t != 3
  | .fmul f => guardOk f.g && f.t != 3
  | .fmac f => guardOk f.g && f.t != 3
  | .fnmac f => guardOk f.g && f.t != 3
  | .fmin f => guardOk f.g && f.t != 3
  | .fmax f => guardOk f.g && f.t != 3
  | .fabs f => guardOk f.g && f.b == 0 && f.t != 3
  | .fneg f => guardOk f.g && f.b == 0 && f.t != 3
  | .fcpys f => guardOk f.g && f.t != 3
  | .frcp f => guardOk f.g && f.b == 0 && f.t != 3
  | .frsq f => guardOk f.g && f.b == 0 && f.t != 3
  | .fsqrt f => guardOk f.g && f.b == 0 && f.t != 3
  | .fexp2 f => guardOk f.g && f.b == 0 && f.t != 3
  | .flog2 f => guardOk f.g && f.b == 0 && f.t != 3
  | .fsin f => guardOk f.g && f.b == 0 && f.t != 3
  | .fcos f => guardOk f.g && f.b == 0 && f.t != 3
  | .ftanh f => guardOk f.g && f.b == 0 && f.t != 3
  | .cvtff f => guardOk f.g && rmOk f.rm && f.st != 3 && f.t != 3
  | .cvtfi f => guardOk f.g && rmOk f.rm && f.st != 3
  | .cvtif f => guardOk f.g && rmOk f.rm && f.t != 3
  | .cvtii f => guardOk f.g && rmOk f.rm
  | .idot4 f => guardOk f.g && f.t != 3
  | .idot8 f => guardOk f.g && f.t != 3
  | .idot16 f => guardOk f.g && f.t != 3
  | .fdotb f => guardOk f.g && f.t == 1
  | .ldq f => guardOk f.g && f.rm == 0 && f.fmt == 0
  | .stq f => guardOk f.g && rmOk f.rm && stqFmtOk f.fmt && Nat.ble (f.d.toNat + lineRegs f.fmt) 32
  | .shfl f => guardOk f.g
  | .shflx f => guardOk f.g
  | .bcl f => guardOk f.g
  | .ballot f => guardOk f.g && f.t == 0
  | .vany f => guardOk f.g && f.b == 0 && f.t == 0
  | .vall f => guardOk f.g && f.b == 0 && f.t == 0
  | .pcnt f => guardOk f.g && f.b == 0 && f.t == 0
  | .pfirst f => guardOk f.g && f.b == 0 && f.t == 0
  | .scan f => guardOk f.g
  | .scanx f => guardOk f.g
  | .red f => guardOk f.g
  | .compact f => f.g == 0 && f.d == 0 && f.a == 0 && f.b == 0 && f.t == 0
  | .lext f => guardOk f.g && f.t == 0
  | .lextId f => guardOk f.g && f.a == 0 && f.b == 0 && f.t == 1
  | .lextHome f => guardOk f.g && f.a == 0 && f.b == 0 && f.t == 2
  | .lins f => guardOk f.g && f.t == 0
  | .ldl f => guardOk f.g
  | .ldg f => guardOk f.g
  | .ldp f => guardOk f.g
  | .ldpg f => guardOk f.g
  | .ldu f => guardOk f.g
  | .ldlRo f => guardOk f.g
  | .ldgRo f => guardOk f.g
  | .lduRo f => guardOk f.g
  | .ldlNt f => guardOk f.g
  | .ldgNt f => guardOk f.g
  | .stl f => guardOk f.g
  | .stg f => guardOk f.g
  | .stp f => guardOk f.g
  | .stpg f => guardOk f.g
  | .stu f => guardOk f.g
  | .stlNt f => guardOk f.g
  | .stgNt f => guardOk f.g
  | .fence f => f.sd == 0 && f.sa == 0 && f.sb == 0 && f.f.ult 7
  | .ldacq f => f.sb == 0 && fenceFOk f.f
  | .strel f => f.sd == 0 && fenceFOk f.f
  | .l1inv f => f.sd == 0 && (f.f == 0 || f.f == 32 && f.sa == 0 && f.sb == 0)
  | .l1wb f => f.sd == 0 && (f.f == 0 || f.f == 32 && f.sa == 0 && f.sb == 0)
  | .pfd f => f.sd == 0 && f.sb == 0 && f.f.ult 2
  | .aadd f => guardOk f.g && f.scope != 7 && f.z.ult 2 && Nat.ble (f.d.toNat + 2) 32 && !f.u
  | .afadd f => guardOk f.g && f.scope != 7 && f.z.ult 2 && Nat.ble (f.d.toNat + 2) 32 && !f.u && f.z == 1
  | .amin f => guardOk f.g && f.scope != 7 && f.z.ult 2 && Nat.ble (f.d.toNat + 2) 32
  | .amax f => guardOk f.g && f.scope != 7 && f.z.ult 2 && Nat.ble (f.d.toNat + 2) 32
  | .afmax f => guardOk f.g && f.scope != 7 && f.z.ult 2 && Nat.ble (f.d.toNat + 2) 32 && !f.u && f.z == 1
  | .aand f => guardOk f.g && f.scope != 7 && f.z.ult 2 && Nat.ble (f.d.toNat + 2) 32 && !f.u
  | .aor f => guardOk f.g && f.scope != 7 && f.z.ult 2 && Nat.ble (f.d.toNat + 2) 32 && !f.u
  | .axor f => guardOk f.g && f.scope != 7 && f.z.ult 2 && Nat.ble (f.d.toNat + 2) 32 && !f.u
  | .axch f => guardOk f.g && f.scope != 7 && f.z.ult 2 && Nat.ble (f.d.toNat + 2) 32 && !f.u
  | .acas f => guardOk f.g && f.scope != 7 && f.z.ult 2 && Nat.ble (f.d.toNat + 3) 32 && !f.u && !f.r
  | .barv f => f.p == 0 && f.q == 0 && f.w.ult 16 && barScopeOk f.f
  | .barw f => f.p == 0 && f.q == 0 && f.w.ult 16 && barScopeOk f.f
  | .bars f => f.p == 0 && f.q == 0 && f.w.ult 16 && barScopeOk f.f
  | .bari f => f.p == 0 && f.w.ult 16 && barScopeOk f.f
  | .cpy f => f.q == 0 && f.w == 0 && f.f.ult 32 && f.f &&& 12 != 12 && groupOk f.p (3 + (f.f.toNat / 4) % 4)
  | .cpyp f => f.q == 0 && f.w == 0 && formatOk f.f && groupOk f.p 3
  | .gath f => f.q == 0 && f.w == 0 && (f.f == 0 || f.f == 16) && groupOk f.p 5
  | .scat f => f.q == 0 && f.w == 0 && (f.f == 0 || f.f == 16) && groupOk f.p 5
  | .bclose f => f.q == 0 && f.w == 0 && f.f.ult 4
  | .bwait f => f.p == 0 && f.w == 0 && f.f.ult 4
  | .bstat f => f.q == 0 && f.w.ult 2 && f.f.ult 4
  | .push f => f.q == 0 && f.w.ult 4 && f.f.ult 3
  | .pop f => f.w.ult 4 && f.f.ult 3
  | .peos f => f.p == 0 && f.q == 0 && f.w.ult 4 && f.f == 0
  | .pstat f => f.q == 0 && f.w.ult 4 && f.f == 0
  | .mma f => f.p.ult 8 && f.q.ult 8 && f.f == 0
  | .mmaz f => f.p.ult 8 && f.q.ult 8 && f.f == 0
  | .accz f => f.p == 0 && f.q == 0 && f.w == 0 && f.f == 0
  | .accrd f => f.w == 0 && f.f == 0
  | .accwr f => f.w == 0 && f.f == 0
  | .gang f => f.q == 0 && f.w == 0 && f.f == 0
  | .mapset f => f.q == 0 && f.w.ult 8 && f.f.ult 32 && formatOk (f.f &&& 15)
  | .winset f => f.q == 0 && f.w == 0 && f.f == 0
  | .clook f => f.f == 0
  | .cnode f => f.w == 0 && f.f == 0 && groupOk f.q 8
  | .cread f => f.f == 0
  | .cwalk f => f.f.ult 32
  | .cref f => f.q == 0 && f.w == 0 && f.f == 0
  | .crel f => f.q == 0 && f.w == 0 && f.f == 0
  | .croot f => f.w == 0 && f.f.ult 2
  | .cswap f => f.f == 0
  | .cout f => f.q == 0 && f.w == 0 && f.f == 0 && groupOk f.p 4
  | .cnew f => f.p == 0 && f.f.ult 16
  | .ldv f => f.f.ult 2
  | .publ f => f.f == 0
  | .vstep f => f.w == 0 && f.f == 0
  | .vpin f => f.p == 0 && f.f == 0
  | .vunpin f => f.p == 0 && f.f == 0
  | .stepa f => f.p == 0 && f.w == 0 && f.f == 0
  | .stepr f => f.w == 0 && f.f.ult 4 && (f.f == 2 || f.q == 0)
  | .pexc f => f.p == 0 && f.w == 0 && f.f.ult 2
  | .plead f => f.p == 0 && f.w == 0 && f.f == 0
  | .qopen f => f.q == 0 && f.w == 0 && f.f.ult 2 && groupOk f.p 3
  | .qcont f => f.q == 0 && f.w == 0 && f.f == 0 && groupOk f.p 2
  | .qwait f => f.w == 0 && f.f == 0
  | .qread f => f.q == 0 && f.w == 0 && f.f == 0 && groupOk f.p 2
  | .qstat f => f.w == 0 && f.f.ult 2
  | .rld f => f.f.ult 8 && (f.f.getLsbD 2 || f.w == 0)
  | .rst f => f.f.ult 8 && (f.f.getLsbD 2 || f.w == 0)
  | .putsig f => f.q == 0 && f.w == 0 && f.f.ult 2 && groupOk f.p 5
  | .ratom f => ratomOk f
  | .rfence f => f.p == 0 && f.q == 0 && f.w == 0 && (f.f == 5 || f.f == 6)
  | .trap f => f.p == 0 && f.q == 0
  | .rett f => f.p == 0 && f.q == 0 && f.w == 0 && f.f.ult 2
  | .srd f => f.q == 0
  | .swr f => f.p == 0
  | .tlbinv f => f.w == 0 && (f.f == 0 || f.f == 1 && f.q == 0)
  | .keykill f => f.q == 0 && f.w == 0 && f.f == 0
  | .haltIdle => true
  | .haltStop f => f.p == 0 && f.w == 0 && f.f == 1
  | .haltSwap f => f.p == 0 && f.w == 0 && f.f == 2
  | .haltGo f => f.p == 0 && f.w == 0 && f.f == 3
  | .bkpt f => f.p == 0 && f.q == 0
  | .launch f => f.w == 0 && f.f == 0
  | .launchPro f => f.w == 0 && f.f == 1
  | .lcancel f => f.p == 0 && f.q == 0 && f.w == 0 && f.f == 0
  | .lcancelAgain f => f.p == 0 && f.w == 0 && f.f == 1
  | .qpost f => f.f == 0
  | .qtake f => f.q == 0 && f.w == 0 && f.f == 0 && groupOk f.p 2
  | .tspawn f => f.q == 0 && f.w == 0 && f.f.ult 2 && groupOk f.p 4
  | .tsteal f => f.w == 0 && f.f == 0 && groupOk f.p 4 && (f.q.ult f.p || Nat.ble (f.p.toNat + 4) f.q.toNat)
  | .issueRunEnd => true
  | .icacheLineFill => true
  | .memoryReply => true
  | .atomicReturn => true
  | .copyOpComplete => true
  | .matrixOpStart => true
  | .matrixOpComplete => true
  | .storeValueReturn => true
  | .storeOpComplete => true
  | .remoteRequest => true
  | .remoteReply => true
  | .fabricAck => true
  | .forwardingPointer => true
  | .fabricTimeout => true
  | .fabricReplay => true
  | .linkRetrain => true
  | .stepAnnouncement => true
  | .heartbeatPeriod => true
  | .peerSilent => true
  | .publishMessage => true
  | .replicaFetchComplete => true
  | .replicaLineFetch => true
  | .ldvWaitLimit => true
  | .quorumContribution => true
  | .quorumTimerExpiry => true
  | .qcontResend => true
  | .chunkRequest => true
  | .blockPlacement => true
  | .prologueStart => true
  | .prologueRepeat => true
  | .launchEnd => true
  | .partitionDrainComplete => true
  | .machineCheck => true
  | .leaseExpiry => true
  | .leaseRenew => true
  | .leaseAcquire => true
  | .leaseRelease => true
  | .ctxctlCreate => true
  | .ctxctlKill => true
  | .fqdoneWrite => true
  | .pgsizeWrite => true
  | .pgownWrite => true
  | .ctxgidWrite => true
  | .evqheadWrite => true
  | .lqtailDoorbell => true
  | .lqctlWrite => true
  | .dglenWrite => true
  | .digestComplete => true
  | .dgoutRead => true
  | .hbeatWrite => true
  | .hbtoExpiry => true
  | .handover => true
  | .imageVerify => true
  | .imgwrite => true
  | .update => true
  | .ckpt => true
  | .ckptComplete => true
  | .health => true
  | .resetWarm => true
  | .resetPort => true
  | .restore => true
  | .restoreComplete => true
  | .portReset => true
  | .coldReset => true
  | .hostMemAccess => true
  | .getVersion => true
  | .getCapabilities => true
  | .negotiateAlgorithms => true
  | .getDigests => true
  | .getCertificate => true
  | .challenge => true
  | .getMeasurements => true
  | .keyExchange => true
  | .finish => true
  | .spdmHeartbeat => true
  | .endSession => true
  | .spdmResponseSign => true
  | .powerGateEntry => true
  | .coreWake => true
  | .corePowerUp => true
  | .healthCounterUpdate => true
  | .swapExchangeComplete => true
  | .writeBackAck => true
  | .powerLoss => true
  | .retrainingStart => true
  | .uncorrectableError => true
  | .scrubbing => true

/-- The instruction has an encoding: it is not one of the steps that only the opcode table's last rows name. -/
def Instr.encoded : Instr → Bool
  | .bra _ => true
  | .bany _ => true
  | .ball _ => true
  | .call _ => true
  | .mark _ => true
  | .ipf _ => true
  | .bri _ => true
  | .calli _ => true
  | .ret _ => true
  | .join => true
  | .exit => true
  | .yield _ => true
  | .nop _ => true
  | .loop _ => true
  | .loopi _ => true
  | .lbrk _ => true
  | .iadd _ => true
  | .isub _ => true
  | .imul _ => true
  | .imulh _ => true
  | .imac _ => true
  | .imin _ => true
  | .imax _ => true
  | .umin _ => true
  | .umax _ => true
  | .and _ => true
  | .or _ => true
  | .xor _ => true
  | .andn _ => true
  | .shl _ => true
  | .shr _ => true
  | .sar _ => true
  | .iaddi _ => true
  | .imuli _ => true
  | .andi _ => true
  | .ori _ => true
  | .xori _ => true
  | .shli _ => true
  | .shri _ => true
  | .sari _ => true
  | .popc _ => true
  | .clz _ => true
  | .brev _ => true
  | .bfx _ => true
  | .bfi _ => true
  | .iadds _ => true
  | .isubs _ => true
  | .uadds _ => true
  | .usubs _ => true
  | .sel _ => true
  | .sadd _ => true
  | .ssub _ => true
  | .smul _ => true
  | .smulh _ => true
  | .sand _ => true
  | .sor _ => true
  | .sxor _ => true
  | .sshl _ => true
  | .sshr _ => true
  | .ssar _ => true
  | .smin _ => true
  | .smax _ => true
  | .smov _ => true
  | .saddi _ => true
  | .sandi _ => true
  | .sori _ => true
  | .sxori _ => true
  | .sshli _ => true
  | .sshri _ => true
  | .sldi _ => true
  | .slit _ _ => true
  | .slith _ _ => true
  | .adds _ => true
  | .subs _ => true
  | .muls _ => true
  | .shls _ => true
  | .ands _ => true
  | .bcast _ => true
  | .lea _ => true
  | .icmp _ => true
  | .fcmp _ => true
  | .icmps _ => true
  | .pand _ => true
  | .por _ => true
  | .pxor _ => true
  | .pandn _ => true
  | .pnot _ => true
  | .pmov _ => true
  | .pseta _ => true
  | .pclr _ => true
  | .scmp _ => true
  | .mov _ => true
  | .xrd _ => true
  | .xwr _ => true
  | .xset _ => true
  | .xadd _ => true
  | .xget _ => true
  | .ruse _ => true
  | .rclr _ => true
  | .fadd _ => true
  | .fsub _ => true
  | .fmul _ => true
  | .fmac _ => true
  | .fnmac _ => true
  | .fmin _ => true
  | .fmax _ => true
  | .fabs _ => true
  | .fneg _ => true
  | .fcpys _ => true
  | .frcp _ => true
  | .frsq _ => true
  | .fsqrt _ => true
  | .fexp2 _ => true
  | .flog2 _ => true
  | .fsin _ => true
  | .fcos _ => true
  | .ftanh _ => true
  | .cvtff _ => true
  | .cvtfi _ => true
  | .cvtif _ => true
  | .cvtii _ => true
  | .idot4 _ => true
  | .idot8 _ => true
  | .idot16 _ => true
  | .fdotb _ => true
  | .ldq _ => true
  | .stq _ => true
  | .shfl _ => true
  | .shflx _ => true
  | .bcl _ => true
  | .ballot _ => true
  | .vany _ => true
  | .vall _ => true
  | .pcnt _ => true
  | .pfirst _ => true
  | .scan _ => true
  | .scanx _ => true
  | .red _ => true
  | .compact _ => true
  | .lext _ => true
  | .lextId _ => true
  | .lextHome _ => true
  | .lins _ => true
  | .ldl _ => true
  | .ldg _ => true
  | .ldp _ => true
  | .ldpg _ => true
  | .ldu _ => true
  | .ldlRo _ => true
  | .ldgRo _ => true
  | .lduRo _ => true
  | .ldlNt _ => true
  | .ldgNt _ => true
  | .stl _ => true
  | .stg _ => true
  | .stp _ => true
  | .stpg _ => true
  | .stu _ => true
  | .stlNt _ => true
  | .stgNt _ => true
  | .fence _ => true
  | .ldacq _ => true
  | .strel _ => true
  | .l1inv _ => true
  | .l1wb _ => true
  | .pfd _ => true
  | .aadd _ => true
  | .afadd _ => true
  | .amin _ => true
  | .amax _ => true
  | .afmax _ => true
  | .aand _ => true
  | .aor _ => true
  | .axor _ => true
  | .axch _ => true
  | .acas _ => true
  | .barv _ => true
  | .barw _ => true
  | .bars _ => true
  | .bari _ => true
  | .cpy _ => true
  | .cpyp _ => true
  | .gath _ => true
  | .scat _ => true
  | .bclose _ => true
  | .bwait _ => true
  | .bstat _ => true
  | .push _ => true
  | .pop _ => true
  | .peos _ => true
  | .pstat _ => true
  | .mma _ => true
  | .mmaz _ => true
  | .accz _ => true
  | .accrd _ => true
  | .accwr _ => true
  | .gang _ => true
  | .mapset _ => true
  | .winset _ => true
  | .clook _ => true
  | .cnode _ => true
  | .cread _ => true
  | .cwalk _ => true
  | .cref _ => true
  | .crel _ => true
  | .croot _ => true
  | .cswap _ => true
  | .cout _ => true
  | .cnew _ => true
  | .ldv _ => true
  | .publ _ => true
  | .vstep _ => true
  | .vpin _ => true
  | .vunpin _ => true
  | .stepa _ => true
  | .stepr _ => true
  | .pexc _ => true
  | .plead _ => true
  | .qopen _ => true
  | .qcont _ => true
  | .qwait _ => true
  | .qread _ => true
  | .qstat _ => true
  | .rld _ => true
  | .rst _ => true
  | .putsig _ => true
  | .ratom _ => true
  | .rfence _ => true
  | .trap _ => true
  | .rett _ => true
  | .srd _ => true
  | .swr _ => true
  | .tlbinv _ => true
  | .keykill _ => true
  | .haltIdle => true
  | .haltStop _ => true
  | .haltSwap _ => true
  | .haltGo _ => true
  | .bkpt _ => true
  | .launch _ => true
  | .launchPro _ => true
  | .lcancel _ => true
  | .lcancelAgain _ => true
  | .qpost _ => true
  | .qtake _ => true
  | .tspawn _ => true
  | .tsteal _ => true
  | .issueRunEnd => false
  | .icacheLineFill => false
  | .memoryReply => false
  | .atomicReturn => false
  | .copyOpComplete => false
  | .matrixOpStart => false
  | .matrixOpComplete => false
  | .storeValueReturn => false
  | .storeOpComplete => false
  | .remoteRequest => false
  | .remoteReply => false
  | .fabricAck => false
  | .forwardingPointer => false
  | .fabricTimeout => false
  | .fabricReplay => false
  | .linkRetrain => false
  | .stepAnnouncement => false
  | .heartbeatPeriod => false
  | .peerSilent => false
  | .publishMessage => false
  | .replicaFetchComplete => false
  | .replicaLineFetch => false
  | .ldvWaitLimit => false
  | .quorumContribution => false
  | .quorumTimerExpiry => false
  | .qcontResend => false
  | .chunkRequest => false
  | .blockPlacement => false
  | .prologueStart => false
  | .prologueRepeat => false
  | .launchEnd => false
  | .partitionDrainComplete => false
  | .machineCheck => false
  | .leaseExpiry => false
  | .leaseRenew => false
  | .leaseAcquire => false
  | .leaseRelease => false
  | .ctxctlCreate => false
  | .ctxctlKill => false
  | .fqdoneWrite => false
  | .pgsizeWrite => false
  | .pgownWrite => false
  | .ctxgidWrite => false
  | .evqheadWrite => false
  | .lqtailDoorbell => false
  | .lqctlWrite => false
  | .dglenWrite => false
  | .digestComplete => false
  | .dgoutRead => false
  | .hbeatWrite => false
  | .hbtoExpiry => false
  | .handover => false
  | .imageVerify => false
  | .imgwrite => false
  | .update => false
  | .ckpt => false
  | .ckptComplete => false
  | .health => false
  | .resetWarm => false
  | .resetPort => false
  | .restore => false
  | .restoreComplete => false
  | .portReset => false
  | .coldReset => false
  | .hostMemAccess => false
  | .getVersion => false
  | .getCapabilities => false
  | .negotiateAlgorithms => false
  | .getDigests => false
  | .getCertificate => false
  | .challenge => false
  | .getMeasurements => false
  | .keyExchange => false
  | .finish => false
  | .spdmHeartbeat => false
  | .endSession => false
  | .spdmResponseSign => false
  | .powerGateEntry => false
  | .coreWake => false
  | .corePowerUp => false
  | .healthCounterUpdate => false
  | .swapExchangeComplete => false
  | .writeBackAck => false
  | .powerLoss => false
  | .retrainingStart => false
  | .uncorrectableError => false
  | .scrubbing => false

end Sys2Proof
end

