-- ==== Sys2Proof/Decode.lean ====
section
/-! DEFINITION. Decoding of an instruction word (R43, R51 to R54) and, after it, the encoder of the same tables. -/

namespace Sys2Proof

/-- Why a word is no legal instruction: cause 1 or cause 4 (R54). -/
inductive DecodeError where
  | undef
  | badField
  deriving DecidableEq, Repr

/-- JOIN or EXIT: every field must be zero (R83), and C = 1 leaves no legal chain (R35). -/
def bare (w : Code) (i : Instr) : Except DecodeError Instr :=
  if w.extractLsb' 0 21 == 0 && !w.getLsbD 31 then .ok i else .error .badField

/-- The fields of format V in a word (R43). -/
def decodeFmtV (w : Code) : FmtV :=
  { c := w.getLsbD 31, g := w.extractLsb' 17 4, d := w.extractLsb' 12 5, a := w.extractLsb' 7 5, b := w.extractLsb' 2 5, t := w.extractLsb' 0 2 }

/-- The fields of format VI in a word (R43). -/
def decodeFmtVI (w : Code) : FmtVI :=
  { c := w.getLsbD 31, g := w.extractLsb' 17 4, d := w.extractLsb' 12 5, a := w.extractLsb' 7 5, imm := w.extractLsb' 0 7 }

/-- The fields of format VS in a word (R43). -/
def decodeFmtVS (w : Code) : FmtVS :=
  { c := w.getLsbD 31, g := w.extractLsb' 17 4, d := w.extractLsb' 12 5, a := w.extractLsb' 7 5, s := w.extractLsb' 2 5, t := w.extractLsb' 0 2 }

/-- The fields of format S in a word (R43). -/
def decodeFmtS (w : Code) : FmtS :=
  { c := w.getLsbD 31, sd := w.extractLsb' 16 5, sa := w.extractLsb' 11 5, sb := w.extractLsb' 6 5, f := w.extractLsb' 0 6 }

/-- The fields of format SI in a word (R43). -/
def decodeFmtSI (w : Code) : FmtSI :=
  { c := w.getLsbD 31, sd := w.extractLsb' 16 5, sa := w.extractLsb' 11 5, imm := w.extractLsb' 0 11 }

/-- The fields of format PL in a word (R43). -/
def decodeFmtPL (w : Code) : FmtPL :=
  { c := w.getLsbD 31, pd := w.extractLsb' 14 7, pa := w.extractLsb' 7 7, pb := w.extractLsb' 0 7 }

/-- The fields of format B in a word (R43). -/
def decodeFmtB (w : Code) : FmtB :=
  { c := w.getLsbD 31, g := w.extractLsb' 17 4, off := w.extractLsb' 0 17 }

/-- The fields of format LP in a word (R43). -/
def decodeFmtLP (w : Code) : FmtLP :=
  { c := w.getLsbD 31, l := w.extractLsb' 19 2, s := w.extractLsb' 14 5, imm := w.extractLsb' 8 6, len := w.extractLsb' 0 8 }

/-- The fields of format M in a word (R43). -/
def decodeFmtM (w : Code) : FmtM :=
  { c := w.getLsbD 31, g := w.extractLsb' 17 4, d := w.extractLsb' 12 5, s := w.extractLsb' 7 5, x := w.extractLsb' 2 5, z := w.extractLsb' 0 2 }

/-- The fields of format E in a word (R43). -/
def decodeFmtE (w : Code) : FmtE :=
  { c := w.getLsbD 31, p := w.extractLsb' 16 5, q := w.extractLsb' 11 5, w := w.extractLsb' 6 5, f := w.extractLsb' 0 6 }

/-- The fields of format Cv in a word (R43). -/
def decodeFmtCv (w : Code) : FmtCv :=
  { c := w.getLsbD 31, g := w.extractLsb' 17 4, d := w.extractLsb' 12 5, a := w.extractLsb' 7 5, rm := w.extractLsb' 4 3, st := w.extractLsb' 2 2, t := w.extractLsb' 0 2 }

/-- The fields of format Mq in a word (R43). -/
def decodeFmtMq (w : Code) : FmtMq :=
  { c := w.getLsbD 31, g := w.extractLsb' 17 4, d := w.extractLsb' 12 5, s := w.extractLsb' 7 5, rm := w.extractLsb' 4 3, fmt := w.extractLsb' 0 4 }

/-- The fields of format A in a word (R43). -/
def decodeFmtA (w : Code) : FmtA :=
  { c := w.getLsbD 31, g := w.extractLsb' 17 4, d := w.extractLsb' 12 5, s := w.extractLsb' 7 5, scope := w.extractLsb' 4 3, r := w.getLsbD 3, u := w.getLsbD 2, z := w.extractLsb' 0 2 }

/-- The fields of format PC in a word (R43). -/
def decodeFmtPC (w : Code) : FmtPC :=
  { c := w.getLsbD 31, cond := w.extractLsb' 21 4, pd := w.extractLsb' 14 7, a := w.extractLsb' 9 5, b := w.extractLsb' 4 5, k := w.extractLsb' 2 2, t := w.extractLsb' 0 2 }

/-- The fields of format PCS in a word (R43). -/
def decodeFmtPCS (w : Code) : FmtPCS :=
  { c := w.getLsbD 31, cond := w.extractLsb' 21 4, pd := w.extractLsb' 14 7, sa := w.extractLsb' 9 5, sb := w.extractLsb' 4 5, k := w.extractLsb' 2 2, z := w.extractLsb' 0 2 }

/-- Row 0x01 of the opcode map (R53). -/
def decodeRow01 (w : Code) : Except DecodeError Instr :=
  match (w.extractLsb' 21 4).toNat with
  | 0 => .ok (.bra (decodeFmtB w))
  | 1 => .ok (.bany (decodeFmtB w))
  | 2 => .ok (.ball (decodeFmtB w))
  | 3 => .ok (.call (decodeFmtB w))
  | 4 => .ok (.mark (decodeFmtB w))
  | 5 => .ok (.ipf (decodeFmtB w))
  | _ => .error .undef

/-- Row 0x02 of the opcode map (R53). -/
def decodeRow02 (w : Code) : Except DecodeError Instr :=
  match (w.extractLsb' 21 4).toNat with
  | 0 => .ok (.bri (decodeFmtS w))
  | 1 => .ok (.calli (decodeFmtS w))
  | 2 => .ok (.ret (decodeFmtS w))
  | 3 => bare w .join
  | 4 => bare w .exit
  | 5 => .ok (.yield (decodeFmtS w))
  | 6 => .ok (.nop (decodeFmtS w))
  | _ => .error .undef

/-- Row 0x03 of the opcode map (R53). -/
def decodeRow03 (w : Code) : Except DecodeError Instr :=
  match (w.extractLsb' 21 4).toNat with
  | 0 => .ok (.loop (decodeFmtLP w))
  | 1 => .ok (.loopi (decodeFmtLP w))
  | 2 => .ok (.lbrk (decodeFmtLP w))
  | _ => .error .undef

/-- Row 0x04 of the opcode map (R53). -/
def decodeRow04 (w : Code) : Except DecodeError Instr :=
  match (w.extractLsb' 21 4).toNat with
  | 0 => .ok (.iadd (decodeFmtV w))
  | 1 => .ok (.isub (decodeFmtV w))
  | 2 => .ok (.imul (decodeFmtV w))
  | 3 => .ok (.imulh (decodeFmtV w))
  | 4 => .ok (.imac (decodeFmtV w))
  | 5 => .ok (.imin (decodeFmtV w))
  | 6 => .ok (.imax (decodeFmtV w))
  | 7 => .ok (.umin (decodeFmtV w))
  | 8 => .ok (.umax (decodeFmtV w))
  | 9 => .ok (.and (decodeFmtV w))
  | 10 => .ok (.or (decodeFmtV w))
  | 11 => .ok (.xor (decodeFmtV w))
  | 12 => .ok (.andn (decodeFmtV w))
  | 13 => .ok (.shl (decodeFmtV w))
  | 14 => .ok (.shr (decodeFmtV w))
  | 15 => .ok (.sar (decodeFmtV w))
  | _ => .error .undef

/-- Row 0x05 of the opcode map (R53). -/
def decodeRow05 (w : Code) : Except DecodeError Instr :=
  match (w.extractLsb' 21 4).toNat with
  | 0 => .ok (.iaddi (decodeFmtVI w))
  | 1 => .ok (.imuli (decodeFmtVI w))
  | 2 => .ok (.andi (decodeFmtVI w))
  | 3 => .ok (.ori (decodeFmtVI w))
  | 4 => .ok (.xori (decodeFmtVI w))
  | 5 => .ok (.shli (decodeFmtVI w))
  | 6 => .ok (.shri (decodeFmtVI w))
  | 7 => .ok (.sari (decodeFmtVI w))
  | _ => .error .undef

/-- Row 0x06 of the opcode map (R53). -/
def decodeRow06 (w : Code) : Except DecodeError Instr :=
  match (w.extractLsb' 21 4).toNat with
  | 0 => .ok (.popc (decodeFmtV w))
  | 1 => .ok (.clz (decodeFmtV w))
  | 2 => .ok (.brev (decodeFmtV w))
  | 3 => .ok (.bfx (decodeFmtV w))
  | 4 => .ok (.bfi (decodeFmtV w))
  | 5 => .ok (.iadds (decodeFmtV w))
  | 6 => .ok (.isubs (decodeFmtV w))
  | 7 => .ok (.uadds (decodeFmtV w))
  | 8 => .ok (.usubs (decodeFmtV w))
  | 9 => .ok (.sel (decodeFmtV w))
  | _ => .error .undef

/-- Row 0x07 of the opcode map (R53). -/
def decodeRow07 (w : Code) : Except DecodeError Instr :=
  match (w.extractLsb' 21 4).toNat with
  | 0 => .ok (.sadd (decodeFmtS w))
  | 1 => .ok (.ssub (decodeFmtS w))
  | 2 => .ok (.smul (decodeFmtS w))
  | 3 => .ok (.smulh (decodeFmtS w))
  | 4 => .ok (.sand (decodeFmtS w))
  | 5 => .ok (.sor (decodeFmtS w))
  | 6 => .ok (.sxor (decodeFmtS w))
  | 7 => .ok (.sshl (decodeFmtS w))
  | 8 => .ok (.sshr (decodeFmtS w))
  | 9 => .ok (.ssar (decodeFmtS w))
  | 10 => .ok (.smin (decodeFmtS w))
  | 11 => .ok (.smax (decodeFmtS w))
  | 12 => .ok (.smov (decodeFmtS w))
  | _ => .error .undef

/-- Row 0x08 of the opcode map (R53). -/
def decodeRow08 (w lit : Code) : Except DecodeError Instr :=
  match (w.extractLsb' 21 4).toNat with
  | 0 => .ok (.saddi (decodeFmtSI w))
  | 1 => .ok (.sandi (decodeFmtSI w))
  | 2 => .ok (.sori (decodeFmtSI w))
  | 3 => .ok (.sxori (decodeFmtSI w))
  | 4 => .ok (.sshli (decodeFmtSI w))
  | 5 => .ok (.sshri (decodeFmtSI w))
  | 6 => .ok (.sldi (decodeFmtSI w))
  | 7 => .ok (.slit (decodeFmtSI w) lit)
  | 8 => .ok (.slith (decodeFmtSI w) lit)
  | _ => .error .undef

/-- Row 0x09 of the opcode map (R53). -/
def decodeRow09 (w : Code) : Except DecodeError Instr :=
  match (w.extractLsb' 21 4).toNat with
  | 0 => .ok (.adds (decodeFmtVS w))
  | 1 => .ok (.subs (decodeFmtVS w))
  | 2 => .ok (.muls (decodeFmtVS w))
  | 3 => .ok (.shls (decodeFmtVS w))
  | 4 => .ok (.ands (decodeFmtVS w))
  | 5 => .ok (.bcast (decodeFmtVS w))
  | 6 => .ok (.lea (decodeFmtVS w))
  | _ => .error .undef

/-- Row 0x0A of the opcode map (R53). -/
def decodeRow0A (w : Code) : Except DecodeError Instr :=
  .ok (.icmp (decodeFmtPC w))

/-- Row 0x0B of the opcode map (R53). -/
def decodeRow0B (w : Code) : Except DecodeError Instr :=
  .ok (.fcmp (decodeFmtPC w))

/-- Row 0x0C of the opcode map (R53). -/
def decodeRow0C (w : Code) : Except DecodeError Instr :=
  .ok (.icmps (decodeFmtPC w))

/-- Row 0x0D of the opcode map (R53). -/
def decodeRow0D (w : Code) : Except DecodeError Instr :=
  match (w.extractLsb' 21 4).toNat with
  | 0 => .ok (.pand (decodeFmtPL w))
  | 1 => .ok (.por (decodeFmtPL w))
  | 2 => .ok (.pxor (decodeFmtPL w))
  | 3 => .ok (.pandn (decodeFmtPL w))
  | 4 => .ok (.pnot (decodeFmtPL w))
  | 5 => .ok (.pmov (decodeFmtPL w))
  | 6 => .ok (.pseta (decodeFmtPL w))
  | 7 => .ok (.pclr (decodeFmtPL w))
  | _ => .error .undef

/-- Row 0x0E of the opcode map (R53). -/
def decodeRow0E (w : Code) : Except DecodeError Instr :=
  .ok (.scmp (decodeFmtPCS w))

/-- Row 0x10 of the opcode map (R53). -/
def decodeRow10 (w : Code) : Except DecodeError Instr :=
  match (w.extractLsb' 21 4).toNat with
  | 0 => .ok (.mov (decodeFmtV w))
  | 1 => .ok (.xrd (decodeFmtV w))
  | 2 => .ok (.xwr (decodeFmtV w))
  | 3 => .ok (.xset (decodeFmtV w))
  | 4 => .ok (.xadd (decodeFmtV w))
  | 5 => .ok (.xget (decodeFmtV w))
  | 6 => .ok (.ruse (decodeFmtV w))
  | 7 => .ok (.rclr (decodeFmtV w))
  | _ => .error .undef

/-- Row 0x11 of the opcode map (R53). -/
def decodeRow11 (w : Code) : Except DecodeError Instr :=
  match (w.extractLsb' 21 4).toNat with
  | 0 => .ok (.fadd (decodeFmtV w))
  | 1 => .ok (.fsub (decodeFmtV w))
  | 2 => .ok (.fmul (decodeFmtV w))
  | 3 => .ok (.fmac (decodeFmtV w))
  | 4 => .ok (.fnmac (decodeFmtV w))
  | 5 => .ok (.fmin (decodeFmtV w))
  | 6 => .ok (.fmax (decodeFmtV w))
  | 7 => .ok (.fabs (decodeFmtV w))
  | 8 => .ok (.fneg (decodeFmtV w))
  | 9 => .ok (.fcpys (decodeFmtV w))
  | _ => .error .undef

/-- Row 0x12 of the opcode map (R53). -/
def decodeRow12 (w : Code) : Except DecodeError Instr :=
  match (w.extractLsb' 21 4).toNat with
  | 0 => .ok (.frcp (decodeFmtV w))
  | 1 => .ok (.frsq (decodeFmtV w))
  | 2 => .ok (.fsqrt (decodeFmtV w))
  | 3 => .ok (.fexp2 (decodeFmtV w))
  | 4 => .ok (.flog2 (decodeFmtV w))
  | 5 => .ok (.fsin (decodeFmtV w))
  | 6 => .ok (.fcos (decodeFmtV w))
  | 7 => .ok (.ftanh (decodeFmtV w))
  | _ => .error .undef

/-- Row 0x13 of the opcode map (R53). -/
def decodeRow13 (w : Code) : Except DecodeError Instr :=
  match (w.extractLsb' 21 4).toNat with
  | 0 => .ok (.cvtff (decodeFmtCv w))
  | 1 => .ok (.cvtfi (decodeFmtCv w))
  | 2 => .ok (.cvtif (decodeFmtCv w))
  | 3 => .ok (.cvtii (decodeFmtCv w))
  | _ => .error .undef

/-- Row 0x14 of the opcode map (R53). -/
def decodeRow14 (w : Code) : Except DecodeError Instr :=
  match (w.extractLsb' 21 4).toNat with
  | 0 => .ok (.idot4 (decodeFmtV w))
  | 1 => .ok (.idot8 (decodeFmtV w))
  | 2 => .ok (.idot16 (decodeFmtV w))
  | 3 => .ok (.fdotb (decodeFmtV w))
  | _ => .error .undef

/-- Row 0x15 of the opcode map (R53). -/
def decodeRow15 (w : Code) : Except DecodeError Instr :=
  match (w.extractLsb' 21 4).toNat with
  | 0 => .ok (.ldq (decodeFmtMq w))
  | 1 => .ok (.stq (decodeFmtMq w))
  | _ => .error .undef

/-- Row 0x18 of the opcode map (R53). -/
def decodeRow18 (w : Code) : Except DecodeError Instr :=
  match (w.extractLsb' 21 4).toNat with
  | 0 => .ok (.shfl (decodeFmtV w))
  | 1 => .ok (.shflx (decodeFmtV w))
  | 2 => .ok (.bcl (decodeFmtV w))
  | 3 => .ok (.ballot (decodeFmtV w))
  | 4 => .ok (.vany (decodeFmtV w))
  | 5 => .ok (.vall (decodeFmtV w))
  | 6 => .ok (.pcnt (decodeFmtV w))
  | 7 => .ok (.pfirst (decodeFmtV w))
  | 8 => .ok (.scan (decodeFmtV w))
  | 9 => .ok (.scanx (decodeFmtV w))
  | 10 => .ok (.red (decodeFmtV w))
  | 11 => .ok (.compact (decodeFmtV w))
  | 12 => .ok (match (w.extractLsb' 0 2).toNat with
    | 1 => .lextId (decodeFmtV w)
    | 2 => .lextHome (decodeFmtV w)
    | _ => .lext (decodeFmtV w))
  | 13 => .ok (.lins (decodeFmtV w))
  | _ => .error .undef

/-- Row 0x20 of the opcode map (R53). -/
def decodeRow20 (w : Code) : Except DecodeError Instr :=
  match (w.extractLsb' 21 4).toNat with
  | 0 => .ok (.ldl (decodeFmtM w))
  | 1 => .ok (.ldg (decodeFmtM w))
  | 2 => .ok (.ldp (decodeFmtM w))
  | 3 => .ok (.ldpg (decodeFmtM w))
  | 4 => .ok (.ldu (decodeFmtM w))
  | 5 => .ok (.ldlRo (decodeFmtM w))
  | 6 => .ok (.ldgRo (decodeFmtM w))
  | 7 => .ok (.lduRo (decodeFmtM w))
  | 8 => .ok (.ldlNt (decodeFmtM w))
  | 9 => .ok (.ldgNt (decodeFmtM w))
  | _ => .error .undef

/-- Row 0x21 of the opcode map (R53). -/
def decodeRow21 (w : Code) : Except DecodeError Instr :=
  match (w.extractLsb' 21 4).toNat with
  | 0 => .ok (.stl (decodeFmtM w))
  | 1 => .ok (.stg (decodeFmtM w))
  | 2 => .ok (.stp (decodeFmtM w))
  | 3 => .ok (.stpg (decodeFmtM w))
  | 4 => .ok (.stu (decodeFmtM w))
  | 5 => .ok (.stlNt (decodeFmtM w))
  | 6 => .ok (.stgNt (decodeFmtM w))
  | _ => .error .undef

/-- Row 0x22 of the opcode map (R53). -/
def decodeRow22 (w : Code) : Except DecodeError Instr :=
  match (w.extractLsb' 21 4).toNat with
  | 0 => .ok (.fence (decodeFmtS w))
  | 1 => .ok (.ldacq (decodeFmtS w))
  | 2 => .ok (.strel (decodeFmtS w))
  | 3 => .ok (.l1inv (decodeFmtS w))
  | 4 => .ok (.l1wb (decodeFmtS w))
  | 5 => .ok (.pfd (decodeFmtS w))
  | _ => .error .undef

/-- Row 0x24 of the opcode map (R53). -/
def decodeRow24 (w : Code) : Except DecodeError Instr :=
  match (w.extractLsb' 21 4).toNat with
  | 0 => .ok (.aadd (decodeFmtA w))
  | 1 => .ok (.afadd (decodeFmtA w))
  | 2 => .ok (.amin (decodeFmtA w))
  | 3 => .ok (.amax (decodeFmtA w))
  | 4 => .ok (.afmax (decodeFmtA w))
  | 5 => .ok (.aand (decodeFmtA w))
  | 6 => .ok (.aor (decodeFmtA w))
  | 7 => .ok (.axor (decodeFmtA w))
  | 8 => .ok (.axch (decodeFmtA w))
  | 9 => .ok (.acas (decodeFmtA w))
  | _ => .error .undef

/-- Row 0x25 of the opcode map (R53). -/
def decodeRow25 (w : Code) : Except DecodeError Instr :=
  match (w.extractLsb' 21 4).toNat with
  | 0 => .ok (.barv (decodeFmtE w))
  | 1 => .ok (.barw (decodeFmtE w))
  | 2 => .ok (.bars (decodeFmtE w))
  | 3 => .ok (.bari (decodeFmtE w))
  | _ => .error .undef

/-- Row 0x28 of the opcode map (R53). -/
def decodeRow28 (w : Code) : Except DecodeError Instr :=
  match (w.extractLsb' 21 4).toNat with
  | 0 => .ok (.cpy (decodeFmtE w))
  | 1 => .ok (.cpyp (decodeFmtE w))
  | 2 => .ok (.gath (decodeFmtE w))
  | 3 => .ok (.scat (decodeFmtE w))
  | 4 => .ok (.bclose (decodeFmtE w))
  | 5 => .ok (.bwait (decodeFmtE w))
  | 6 => .ok (.bstat (decodeFmtE w))
  | _ => .error .undef

/-- Row 0x29 of the opcode map (R53). -/
def decodeRow29 (w : Code) : Except DecodeError Instr :=
  match (w.extractLsb' 21 4).toNat with
  | 0 => .ok (.push (decodeFmtE w))
  | 1 => .ok (.pop (decodeFmtE w))
  | 2 => .ok (.peos (decodeFmtE w))
  | 3 => .ok (.pstat (decodeFmtE w))
  | _ => .error .undef

/-- Row 0x2C of the opcode map (R53). -/
def decodeRow2C (w : Code) : Except DecodeError Instr :=
  match (w.extractLsb' 21 4).toNat with
  | 0 => .ok (.mma (decodeFmtE w))
  | 1 => .ok (.mmaz (decodeFmtE w))
  | 2 => .ok (.accz (decodeFmtE w))
  | 3 => .ok (.accrd (decodeFmtE w))
  | 4 => .ok (.accwr (decodeFmtE w))
  | 5 => .ok (.gang (decodeFmtE w))
  | 6 => .ok (.mapset (decodeFmtE w))
  | 7 => .ok (.winset (decodeFmtE w))
  | _ => .error .undef

/-- Row 0x30 of the opcode map (R53). -/
def decodeRow30 (w : Code) : Except DecodeError Instr :=
  match (w.extractLsb' 21 4).toNat with
  | 0 => .ok (.clook (decodeFmtE w))
  | 1 => .ok (.cnode (decodeFmtE w))
  | 2 => .ok (.cread (decodeFmtE w))
  | 3 => .ok (.cwalk (decodeFmtE w))
  | 4 => .ok (.cref (decodeFmtE w))
  | 5 => .ok (.crel (decodeFmtE w))
  | 6 => .ok (.croot (decodeFmtE w))
  | 7 => .ok (.cswap (decodeFmtE w))
  | 8 => .ok (.cout (decodeFmtE w))
  | 9 => .ok (.cnew (decodeFmtE w))
  | _ => .error .undef

/-- Row 0x34 of the opcode map (R53). -/
def decodeRow34 (w : Code) : Except DecodeError Instr :=
  match (w.extractLsb' 21 4).toNat with
  | 0 => .ok (.ldv (decodeFmtE w))
  | 1 => .ok (.publ (decodeFmtE w))
  | 2 => .ok (.vstep (decodeFmtE w))
  | 3 => .ok (.vpin (decodeFmtE w))
  | 4 => .ok (.vunpin (decodeFmtE w))
  | _ => .error .undef

/-- Row 0x35 of the opcode map (R53). -/
def decodeRow35 (w : Code) : Except DecodeError Instr :=
  match (w.extractLsb' 21 4).toNat with
  | 0 => .ok (.stepa (decodeFmtE w))
  | 1 => .ok (.stepr (decodeFmtE w))
  | 2 => .ok (.pexc (decodeFmtE w))
  | 3 => .ok (.plead (decodeFmtE w))
  | _ => .error .undef

/-- Row 0x36 of the opcode map (R53). -/
def decodeRow36 (w : Code) : Except DecodeError Instr :=
  match (w.extractLsb' 21 4).toNat with
  | 0 => .ok (.qopen (decodeFmtE w))
  | 1 => .ok (.qcont (decodeFmtE w))
  | 2 => .ok (.qwait (decodeFmtE w))
  | 3 => .ok (.qread (decodeFmtE w))
  | 4 => .ok (.qstat (decodeFmtE w))
  | _ => .error .undef

/-- Row 0x38 of the opcode map (R53). -/
def decodeRow38 (w : Code) : Except DecodeError Instr :=
  match (w.extractLsb' 21 4).toNat with
  | 0 => .ok (.rld (decodeFmtE w))
  | 1 => .ok (.rst (decodeFmtE w))
  | 2 => .ok (.putsig (decodeFmtE w))
  | 3 => .ok (.ratom (decodeFmtE w))
  | 4 => .ok (.rfence (decodeFmtE w))
  | _ => .error .undef

/-- Row 0x3C of the opcode map (R53). -/
def decodeRow3C (w : Code) : Except DecodeError Instr :=
  match (w.extractLsb' 21 4).toNat with
  | 0 => .ok (.trap (decodeFmtE w))
  | 1 => .ok (.rett (decodeFmtE w))
  | 2 => .ok (.srd (decodeFmtE w))
  | 3 => .ok (.swr (decodeFmtE w))
  | 4 => .ok (.tlbinv (decodeFmtE w))
  | 5 => .ok (.keykill (decodeFmtE w))
  | 6 => .ok (match (w.extractLsb' 0 2).toNat with
    | 0 => if w.extractLsb' 0 21 == 0 && !w.getLsbD 31 then .haltIdle else .haltStop (decodeFmtE w)
    | 1 => .haltStop (decodeFmtE w)
    | 2 => .haltSwap (decodeFmtE w)
    | _ => .haltGo (decodeFmtE w))
  | 7 => .ok (.bkpt (decodeFmtE w))
  | _ => .error .undef

/-- Row 0x3E of the opcode map (R53). -/
def decodeRow3E (w : Code) : Except DecodeError Instr :=
  match (w.extractLsb' 21 4).toNat with
  | 0 => .ok (if w.getLsbD 0 then .launchPro (decodeFmtE w) else .launch (decodeFmtE w))
  | 1 => .ok (if w.getLsbD 0 then .lcancelAgain (decodeFmtE w) else .lcancel (decodeFmtE w))
  | 2 => .ok (.qpost (decodeFmtE w))
  | 3 => .ok (.qtake (decodeFmtE w))
  | 4 => .ok (.tspawn (decodeFmtE w))
  | 5 => .ok (.tsteal (decodeFmtE w))
  | _ => .error .undef

/-- The instruction that a word names, its fields not yet checked; lit is the word after it, which SLIT and SLITH take
(R52, R53). An error where the map has no instruction (R54). -/
def rawDecode (w lit : Code) : Except DecodeError Instr :=
  match (w.extractLsb' 25 6).toNat with
  | 0x01 => decodeRow01 w
  | 0x02 => decodeRow02 w
  | 0x03 => decodeRow03 w
  | 0x04 => decodeRow04 w
  | 0x05 => decodeRow05 w
  | 0x06 => decodeRow06 w
  | 0x07 => decodeRow07 w
  | 0x08 => decodeRow08 w lit
  | 0x09 => decodeRow09 w
  | 0x0A => decodeRow0A w
  | 0x0B => decodeRow0B w
  | 0x0C => decodeRow0C w
  | 0x0D => decodeRow0D w
  | 0x0E => decodeRow0E w
  | 0x10 => decodeRow10 w
  | 0x11 => decodeRow11 w
  | 0x12 => decodeRow12 w
  | 0x13 => decodeRow13 w
  | 0x14 => decodeRow14 w
  | 0x15 => decodeRow15 w
  | 0x18 => decodeRow18 w
  | 0x20 => decodeRow20 w
  | 0x21 => decodeRow21 w
  | 0x22 => decodeRow22 w
  | 0x24 => decodeRow24 w
  | 0x25 => decodeRow25 w
  | 0x28 => decodeRow28 w
  | 0x29 => decodeRow29 w
  | 0x2C => decodeRow2C w
  | 0x30 => decodeRow30 w
  | 0x34 => decodeRow34 w
  | 0x35 => decodeRow35 w
  | 0x36 => decodeRow36 w
  | 0x38 => decodeRow38 w
  | 0x3C => decodeRow3C w
  | 0x3E => decodeRow3E w
  | _ => .error .undef

/-- The legal instruction that a word names, or why it is none (R54). -/
def decode (w lit : Code) : Except DecodeError Instr :=
  match rawDecode w lit with
  | .ok i => if i.wf then .ok i else .error .badField
  | .error e => .error e

/-- The decoder on an opcode-table word of nbits bits: the instruction's own word, then a literal word that is zero where
the table gives it no bits (R52). -/
def decodeTableWord (nbits w : Nat) : Option Instr :=
  match decode (BitVec.ofNat 32 w) (if Nat.ble nbits 32 then 0 else BitVec.ofNat 32 (w / 4294967296)) with
  | .ok i => some i
  | .error _ => none

/-- A bit as a field of one bit. -/
def bit1 (b : Bool) : BitVec 1 := BitVec.ofBool b

/-- A word of format V (R43). -/
def encodeFmtV (maj : BitVec 6) (min : BitVec 4) (f : FmtV) : Code :=
  bit1 f.c ++ maj ++ min ++ f.g ++ f.d ++ f.a ++ f.b ++ f.t

/-- A word of format VI (R43). -/
def encodeFmtVI (maj : BitVec 6) (min : BitVec 4) (f : FmtVI) : Code :=
  bit1 f.c ++ maj ++ min ++ f.g ++ f.d ++ f.a ++ f.imm

/-- A word of format VS (R43). -/
def encodeFmtVS (maj : BitVec 6) (min : BitVec 4) (f : FmtVS) : Code :=
  bit1 f.c ++ maj ++ min ++ f.g ++ f.d ++ f.a ++ f.s ++ f.t

/-- A word of format S (R43). -/
def encodeFmtS (maj : BitVec 6) (min : BitVec 4) (f : FmtS) : Code :=
  bit1 f.c ++ maj ++ min ++ f.sd ++ f.sa ++ f.sb ++ f.f

/-- A word of format SI (R43). -/
def encodeFmtSI (maj : BitVec 6) (min : BitVec 4) (f : FmtSI) : Code :=
  bit1 f.c ++ maj ++ min ++ f.sd ++ f.sa ++ f.imm

/-- A word of format PL (R43). -/
def encodeFmtPL (maj : BitVec 6) (min : BitVec 4) (f : FmtPL) : Code :=
  bit1 f.c ++ maj ++ min ++ f.pd ++ f.pa ++ f.pb

/-- A word of format B (R43). -/
def encodeFmtB (maj : BitVec 6) (min : BitVec 4) (f : FmtB) : Code :=
  bit1 f.c ++ maj ++ min ++ f.g ++ f.off

/-- A word of format LP (R43). -/
def encodeFmtLP (maj : BitVec 6) (min : BitVec 4) (f : FmtLP) : Code :=
  bit1 f.c ++ maj ++ min ++ f.l ++ f.s ++ f.imm ++ f.len

/-- A word of format M (R43). -/
def encodeFmtM (maj : BitVec 6) (min : BitVec 4) (f : FmtM) : Code :=
  bit1 f.c ++ maj ++ min ++ f.g ++ f.d ++ f.s ++ f.x ++ f.z

/-- A word of format E (R43). -/
def encodeFmtE (maj : BitVec 6) (min : BitVec 4) (f : FmtE) : Code :=
  bit1 f.c ++ maj ++ min ++ f.p ++ f.q ++ f.w ++ f.f

/-- A word of format Cv (R43). -/
def encodeFmtCv (maj : BitVec 6) (min : BitVec 4) (f : FmtCv) : Code :=
  bit1 f.c ++ maj ++ min ++ f.g ++ f.d ++ f.a ++ f.rm ++ f.st ++ f.t

/-- A word of format Mq (R43). -/
def encodeFmtMq (maj : BitVec 6) (min : BitVec 4) (f : FmtMq) : Code :=
  bit1 f.c ++ maj ++ min ++ f.g ++ f.d ++ f.s ++ f.rm ++ f.fmt

/-- A word of format A (R43). -/
def encodeFmtA (maj : BitVec 6) (min : BitVec 4) (f : FmtA) : Code :=
  bit1 f.c ++ maj ++ min ++ f.g ++ f.d ++ f.s ++ f.scope ++ bit1 f.r ++ bit1 f.u ++ f.z

/-- A word of format PC (R43). -/
def encodeFmtPC (maj : BitVec 6) (f : FmtPC) : Code :=
  bit1 f.c ++ maj ++ f.cond ++ f.pd ++ f.a ++ f.b ++ f.k ++ f.t

/-- A word of format PCS (R43). -/
def encodeFmtPCS (maj : BitVec 6) (f : FmtPCS) : Code :=
  bit1 f.c ++ maj ++ f.cond ++ f.pd ++ f.sa ++ f.sb ++ f.k ++ f.z

/-- The words of an instruction (R43, R52, R53); the steps without an encoding have none. -/
def encode : Instr → List Code
  | .bra f => [encodeFmtB 0x01 0 f]
  | .bany f => [encodeFmtB 0x01 1 f]
  | .ball f => [encodeFmtB 0x01 2 f]
  | .call f => [encodeFmtB 0x01 3 f]
  | .mark f => [encodeFmtB 0x01 4 f]
  | .ipf f => [encodeFmtB 0x01 5 f]
  | .bri f => [encodeFmtS 0x02 0 f]
  | .calli f => [encodeFmtS 0x02 1 f]
  | .ret f => [encodeFmtS 0x02 2 f]
  | .join => [0x04600000]
  | .exit => [0x04800000]
  | .yield f => [encodeFmtS 0x02 5 f]
  | .nop f => [encodeFmtS 0x02 6 f]
  | .loop f => [encodeFmtLP 0x03 0 f]
  | .loopi f => [encodeFmtLP 0x03 1 f]
  | .lbrk f => [encodeFmtLP 0x03 2 f]
  | .iadd f => [encodeFmtV 0x04 0 f]
  | .isub f => [encodeFmtV 0x04 1 f]
  | .imul f => [encodeFmtV 0x04 2 f]
  | .imulh f => [encodeFmtV 0x04 3 f]
  | .imac f => [encodeFmtV 0x04 4 f]
  | .imin f => [encodeFmtV 0x04 5 f]
  | .imax f => [encodeFmtV 0x04 6 f]
  | .umin f => [encodeFmtV 0x04 7 f]
  | .umax f => [encodeFmtV 0x04 8 f]
  | .and f => [encodeFmtV 0x04 9 f]
  | .or f => [encodeFmtV 0x04 10 f]
  | .xor f => [encodeFmtV 0x04 11 f]
  | .andn f => [encodeFmtV 0x04 12 f]
  | .shl f => [encodeFmtV 0x04 13 f]
  | .shr f => [encodeFmtV 0x04 14 f]
  | .sar f => [encodeFmtV 0x04 15 f]
  | .iaddi f => [encodeFmtVI 0x05 0 f]
  | .imuli f => [encodeFmtVI 0x05 1 f]
  | .andi f => [encodeFmtVI 0x05 2 f]
  | .ori f => [encodeFmtVI 0x05 3 f]
  | .xori f => [encodeFmtVI 0x05 4 f]
  | .shli f => [encodeFmtVI 0x05 5 f]
  | .shri f => [encodeFmtVI 0x05 6 f]
  | .sari f => [encodeFmtVI 0x05 7 f]
  | .popc f => [encodeFmtV 0x06 0 f]
  | .clz f => [encodeFmtV 0x06 1 f]
  | .brev f => [encodeFmtV 0x06 2 f]
  | .bfx f => [encodeFmtV 0x06 3 f]
  | .bfi f => [encodeFmtV 0x06 4 f]
  | .iadds f => [encodeFmtV 0x06 5 f]
  | .isubs f => [encodeFmtV 0x06 6 f]
  | .uadds f => [encodeFmtV 0x06 7 f]
  | .usubs f => [encodeFmtV 0x06 8 f]
  | .sel f => [encodeFmtV 0x06 9 f]
  | .sadd f => [encodeFmtS 0x07 0 f]
  | .ssub f => [encodeFmtS 0x07 1 f]
  | .smul f => [encodeFmtS 0x07 2 f]
  | .smulh f => [encodeFmtS 0x07 3 f]
  | .sand f => [encodeFmtS 0x07 4 f]
  | .sor f => [encodeFmtS 0x07 5 f]
  | .sxor f => [encodeFmtS 0x07 6 f]
  | .sshl f => [encodeFmtS 0x07 7 f]
  | .sshr f => [encodeFmtS 0x07 8 f]
  | .ssar f => [encodeFmtS 0x07 9 f]
  | .smin f => [encodeFmtS 0x07 10 f]
  | .smax f => [encodeFmtS 0x07 11 f]
  | .smov f => [encodeFmtS 0x07 12 f]
  | .saddi f => [encodeFmtSI 0x08 0 f]
  | .sandi f => [encodeFmtSI 0x08 1 f]
  | .sori f => [encodeFmtSI 0x08 2 f]
  | .sxori f => [encodeFmtSI 0x08 3 f]
  | .sshli f => [encodeFmtSI 0x08 4 f]
  | .sshri f => [encodeFmtSI 0x08 5 f]
  | .sldi f => [encodeFmtSI 0x08 6 f]
  | .slit f lit => [encodeFmtSI 0x08 7 f, lit]
  | .slith f lit => [encodeFmtSI 0x08 8 f, lit]
  | .adds f => [encodeFmtVS 0x09 0 f]
  | .subs f => [encodeFmtVS 0x09 1 f]
  | .muls f => [encodeFmtVS 0x09 2 f]
  | .shls f => [encodeFmtVS 0x09 3 f]
  | .ands f => [encodeFmtVS 0x09 4 f]
  | .bcast f => [encodeFmtVS 0x09 5 f]
  | .lea f => [encodeFmtVS 0x09 6 f]
  | .icmp f => [encodeFmtPC 0x0A f]
  | .fcmp f => [encodeFmtPC 0x0B f]
  | .icmps f => [encodeFmtPC 0x0C f]
  | .pand f => [encodeFmtPL 0x0D 0 f]
  | .por f => [encodeFmtPL 0x0D 1 f]
  | .pxor f => [encodeFmtPL 0x0D 2 f]
  | .pandn f => [encodeFmtPL 0x0D 3 f]
  | .pnot f => [encodeFmtPL 0x0D 4 f]
  | .pmov f => [encodeFmtPL 0x0D 5 f]
  | .pseta f => [encodeFmtPL 0x0D 6 f]
  | .pclr f => [encodeFmtPL 0x0D 7 f]
  | .scmp f => [encodeFmtPCS 0x0E f]
  | .mov f => [encodeFmtV 0x10 0 f]
  | .xrd f => [encodeFmtV 0x10 1 f]
  | .xwr f => [encodeFmtV 0x10 2 f]
  | .xset f => [encodeFmtV 0x10 3 f]
  | .xadd f => [encodeFmtV 0x10 4 f]
  | .xget f => [encodeFmtV 0x10 5 f]
  | .ruse f => [encodeFmtV 0x10 6 f]
  | .rclr f => [encodeFmtV 0x10 7 f]
  | .fadd f => [encodeFmtV 0x11 0 f]
  | .fsub f => [encodeFmtV 0x11 1 f]
  | .fmul f => [encodeFmtV 0x11 2 f]
  | .fmac f => [encodeFmtV 0x11 3 f]
  | .fnmac f => [encodeFmtV 0x11 4 f]
  | .fmin f => [encodeFmtV 0x11 5 f]
  | .fmax f => [encodeFmtV 0x11 6 f]
  | .fabs f => [encodeFmtV 0x11 7 f]
  | .fneg f => [encodeFmtV 0x11 8 f]
  | .fcpys f => [encodeFmtV 0x11 9 f]
  | .frcp f => [encodeFmtV 0x12 0 f]
  | .frsq f => [encodeFmtV 0x12 1 f]
  | .fsqrt f => [encodeFmtV 0x12 2 f]
  | .fexp2 f => [encodeFmtV 0x12 3 f]
  | .flog2 f => [encodeFmtV 0x12 4 f]
  | .fsin f => [encodeFmtV 0x12 5 f]
  | .fcos f => [encodeFmtV 0x12 6 f]
  | .ftanh f => [encodeFmtV 0x12 7 f]
  | .cvtff f => [encodeFmtCv 0x13 0 f]
  | .cvtfi f => [encodeFmtCv 0x13 1 f]
  | .cvtif f => [encodeFmtCv 0x13 2 f]
  | .cvtii f => [encodeFmtCv 0x13 3 f]
  | .idot4 f => [encodeFmtV 0x14 0 f]
  | .idot8 f => [encodeFmtV 0x14 1 f]
  | .idot16 f => [encodeFmtV 0x14 2 f]
  | .fdotb f => [encodeFmtV 0x14 3 f]
  | .ldq f => [encodeFmtMq 0x15 0 f]
  | .stq f => [encodeFmtMq 0x15 1 f]
  | .shfl f => [encodeFmtV 0x18 0 f]
  | .shflx f => [encodeFmtV 0x18 1 f]
  | .bcl f => [encodeFmtV 0x18 2 f]
  | .ballot f => [encodeFmtV 0x18 3 f]
  | .vany f => [encodeFmtV 0x18 4 f]
  | .vall f => [encodeFmtV 0x18 5 f]
  | .pcnt f => [encodeFmtV 0x18 6 f]
  | .pfirst f => [encodeFmtV 0x18 7 f]
  | .scan f => [encodeFmtV 0x18 8 f]
  | .scanx f => [encodeFmtV 0x18 9 f]
  | .red f => [encodeFmtV 0x18 10 f]
  | .compact f => [encodeFmtV 0x18 11 f]
  | .lext f => [encodeFmtV 0x18 12 f]
  | .lextId f => [encodeFmtV 0x18 12 f]
  | .lextHome f => [encodeFmtV 0x18 12 f]
  | .lins f => [encodeFmtV 0x18 13 f]
  | .ldl f => [encodeFmtM 0x20 0 f]
  | .ldg f => [encodeFmtM 0x20 1 f]
  | .ldp f => [encodeFmtM 0x20 2 f]
  | .ldpg f => [encodeFmtM 0x20 3 f]
  | .ldu f => [encodeFmtM 0x20 4 f]
  | .ldlRo f => [encodeFmtM 0x20 5 f]
  | .ldgRo f => [encodeFmtM 0x20 6 f]
  | .lduRo f => [encodeFmtM 0x20 7 f]
  | .ldlNt f => [encodeFmtM 0x20 8 f]
  | .ldgNt f => [encodeFmtM 0x20 9 f]
  | .stl f => [encodeFmtM 0x21 0 f]
  | .stg f => [encodeFmtM 0x21 1 f]
  | .stp f => [encodeFmtM 0x21 2 f]
  | .stpg f => [encodeFmtM 0x21 3 f]
  | .stu f => [encodeFmtM 0x21 4 f]
  | .stlNt f => [encodeFmtM 0x21 5 f]
  | .stgNt f => [encodeFmtM 0x21 6 f]
  | .fence f => [encodeFmtS 0x22 0 f]
  | .ldacq f => [encodeFmtS 0x22 1 f]
  | .strel f => [encodeFmtS 0x22 2 f]
  | .l1inv f => [encodeFmtS 0x22 3 f]
  | .l1wb f => [encodeFmtS 0x22 4 f]
  | .pfd f => [encodeFmtS 0x22 5 f]
  | .aadd f => [encodeFmtA 0x24 0 f]
  | .afadd f => [encodeFmtA 0x24 1 f]
  | .amin f => [encodeFmtA 0x24 2 f]
  | .amax f => [encodeFmtA 0x24 3 f]
  | .afmax f => [encodeFmtA 0x24 4 f]
  | .aand f => [encodeFmtA 0x24 5 f]
  | .aor f => [encodeFmtA 0x24 6 f]
  | .axor f => [encodeFmtA 0x24 7 f]
  | .axch f => [encodeFmtA 0x24 8 f]
  | .acas f => [encodeFmtA 0x24 9 f]
  | .barv f => [encodeFmtE 0x25 0 f]
  | .barw f => [encodeFmtE 0x25 1 f]
  | .bars f => [encodeFmtE 0x25 2 f]
  | .bari f => [encodeFmtE 0x25 3 f]
  | .cpy f => [encodeFmtE 0x28 0 f]
  | .cpyp f => [encodeFmtE 0x28 1 f]
  | .gath f => [encodeFmtE 0x28 2 f]
  | .scat f => [encodeFmtE 0x28 3 f]
  | .bclose f => [encodeFmtE 0x28 4 f]
  | .bwait f => [encodeFmtE 0x28 5 f]
  | .bstat f => [encodeFmtE 0x28 6 f]
  | .push f => [encodeFmtE 0x29 0 f]
  | .pop f => [encodeFmtE 0x29 1 f]
  | .peos f => [encodeFmtE 0x29 2 f]
  | .pstat f => [encodeFmtE 0x29 3 f]
  | .mma f => [encodeFmtE 0x2C 0 f]
  | .mmaz f => [encodeFmtE 0x2C 1 f]
  | .accz f => [encodeFmtE 0x2C 2 f]
  | .accrd f => [encodeFmtE 0x2C 3 f]
  | .accwr f => [encodeFmtE 0x2C 4 f]
  | .gang f => [encodeFmtE 0x2C 5 f]
  | .mapset f => [encodeFmtE 0x2C 6 f]
  | .winset f => [encodeFmtE 0x2C 7 f]
  | .clook f => [encodeFmtE 0x30 0 f]
  | .cnode f => [encodeFmtE 0x30 1 f]
  | .cread f => [encodeFmtE 0x30 2 f]
  | .cwalk f => [encodeFmtE 0x30 3 f]
  | .cref f => [encodeFmtE 0x30 4 f]
  | .crel f => [encodeFmtE 0x30 5 f]
  | .croot f => [encodeFmtE 0x30 6 f]
  | .cswap f => [encodeFmtE 0x30 7 f]
  | .cout f => [encodeFmtE 0x30 8 f]
  | .cnew f => [encodeFmtE 0x30 9 f]
  | .ldv f => [encodeFmtE 0x34 0 f]
  | .publ f => [encodeFmtE 0x34 1 f]
  | .vstep f => [encodeFmtE 0x34 2 f]
  | .vpin f => [encodeFmtE 0x34 3 f]
  | .vunpin f => [encodeFmtE 0x34 4 f]
  | .stepa f => [encodeFmtE 0x35 0 f]
  | .stepr f => [encodeFmtE 0x35 1 f]
  | .pexc f => [encodeFmtE 0x35 2 f]
  | .plead f => [encodeFmtE 0x35 3 f]
  | .qopen f => [encodeFmtE 0x36 0 f]
  | .qcont f => [encodeFmtE 0x36 1 f]
  | .qwait f => [encodeFmtE 0x36 2 f]
  | .qread f => [encodeFmtE 0x36 3 f]
  | .qstat f => [encodeFmtE 0x36 4 f]
  | .rld f => [encodeFmtE 0x38 0 f]
  | .rst f => [encodeFmtE 0x38 1 f]
  | .putsig f => [encodeFmtE 0x38 2 f]
  | .ratom f => [encodeFmtE 0x38 3 f]
  | .rfence f => [encodeFmtE 0x38 4 f]
  | .trap f => [encodeFmtE 0x3C 0 f]
  | .rett f => [encodeFmtE 0x3C 1 f]
  | .srd f => [encodeFmtE 0x3C 2 f]
  | .swr f => [encodeFmtE 0x3C 3 f]
  | .tlbinv f => [encodeFmtE 0x3C 4 f]
  | .keykill f => [encodeFmtE 0x3C 5 f]
  | .haltIdle => [0x78C00000]
  | .haltStop f => [encodeFmtE 0x3C 6 f]
  | .haltSwap f => [encodeFmtE 0x3C 6 f]
  | .haltGo f => [encodeFmtE 0x3C 6 f]
  | .bkpt f => [encodeFmtE 0x3C 7 f]
  | .launch f => [encodeFmtE 0x3E 0 f]
  | .launchPro f => [encodeFmtE 0x3E 0 f]
  | .lcancel f => [encodeFmtE 0x3E 1 f]
  | .lcancelAgain f => [encodeFmtE 0x3E 1 f]
  | .qpost f => [encodeFmtE 0x3E 2 f]
  | .qtake f => [encodeFmtE 0x3E 3 f]
  | .tspawn f => [encodeFmtE 0x3E 4 f]
  | .tsteal f => [encodeFmtE 0x3E 5 f]
  | .issueRunEnd => []
  | .icacheLineFill => []
  | .memoryReply => []
  | .atomicReturn => []
  | .copyOpComplete => []
  | .matrixOpStart => []
  | .matrixOpComplete => []
  | .storeValueReturn => []
  | .storeOpComplete => []
  | .remoteRequest => []
  | .remoteReply => []
  | .fabricAck => []
  | .forwardingPointer => []
  | .fabricTimeout => []
  | .fabricReplay => []
  | .linkRetrain => []
  | .stepAnnouncement => []
  | .heartbeatPeriod => []
  | .peerSilent => []
  | .publishMessage => []
  | .replicaFetchComplete => []
  | .replicaLineFetch => []
  | .ldvWaitLimit => []
  | .quorumContribution => []
  | .quorumTimerExpiry => []
  | .qcontResend => []
  | .chunkRequest => []
  | .blockPlacement => []
  | .prologueStart => []
  | .prologueRepeat => []
  | .launchEnd => []
  | .partitionDrainComplete => []
  | .machineCheck => []
  | .leaseExpiry => []
  | .leaseRenew => []
  | .leaseAcquire => []
  | .leaseRelease => []
  | .ctxctlCreate => []
  | .ctxctlKill => []
  | .fqdoneWrite => []
  | .pgsizeWrite => []
  | .pgownWrite => []
  | .ctxgidWrite => []
  | .evqheadWrite => []
  | .lqtailDoorbell => []
  | .lqctlWrite => []
  | .dglenWrite => []
  | .digestComplete => []
  | .dgoutRead => []
  | .hbeatWrite => []
  | .hbtoExpiry => []
  | .handover => []
  | .imageVerify => []
  | .imgwrite => []
  | .update => []
  | .ckpt => []
  | .ckptComplete => []
  | .health => []
  | .resetWarm => []
  | .resetPort => []
  | .restore => []
  | .restoreComplete => []
  | .portReset => []
  | .coldReset => []
  | .hostMemAccess => []
  | .getVersion => []
  | .getCapabilities => []
  | .negotiateAlgorithms => []
  | .getDigests => []
  | .getCertificate => []
  | .challenge => []
  | .getMeasurements => []
  | .keyExchange => []
  | .finish => []
  | .spdmHeartbeat => []
  | .endSession => []
  | .spdmResponseSign => []
  | .powerGateEntry => []
  | .coreWake => []
  | .corePowerUp => []
  | .healthCounterUpdate => []
  | .swapExchangeComplete => []
  | .writeBackAck => []
  | .powerLoss => []
  | .retrainingStart => []
  | .uncorrectableError => []
  | .scrubbing => []

end Sys2Proof
end

