-- ==== Sys2Proof/Config.lean ====
section
/-! DEFINITION. What one part fixes and the manual leaves open (log 6): free values, each an opaque constant of which
nothing can be proved. A free value is applied to a counter of State or to what it depends on. -/

namespace Sys2Proof.Config

/-- A value that the manual leaves open at one happening: applied to State.fresh (log 6). -/
opaque freeWord : Nat → Word

/-- FP32 results of FRCP, FRSQ, FEXP2, FLOG2, FSIN, FCOS and FTANH, by function number and operand (R155, log 11):
taken only where they are within the bound of the manual. -/
opaque special : Nat → BitVec 32 → BitVec 32

/-- A byte of a block written under one key and read under another (R393): by the writing key, the reading key, the
address and the stored byte (log 16). -/
opaque garble : Nat → Nat → Nat → Byte → Byte

/-- The 32-bit fingerprint of the 256 bytes of a slice, as its 32 lanes: any function (R124, log 14). -/
opaque fingerprint : List Word → BitVec 32

/-- The home die of a line of far memory: an interleave that is not architectural (R189, log 26). -/
opaque farHome : Nat → Fin 4

/-- A decoder maps the line of CXL memory with this number (R190): the host programs the decoders (log 37). -/
opaque cxlMapped : Nat → Bool

/-- Whether the device merges an .R atomic with its neighbours, and in which order (R233, log 23). -/
opaque mergeOrder : Nat → Nat

/-- Bytes of what the part is made with (R412, log 25), by kind and index: 0 the measurement of layer 1, 1 the unique device
secret. -/
opaque identityByte : Nat → Nat → Byte

/-- The label of a boot layer (R412, log 25). -/
opaque layerLabel : Nat → List Byte

/-- The certificate of the key pair made from a seed, by the key pair made from another, or by Kyzoka's where that is empty
(R412, R414, log 25). -/
opaque certificate : List Byte → List Byte → List Byte

/-- Byte of a signature of a response, by a number of its own (R414, log 25). -/
opaque signatureByte : Nat → Nat → Byte

/-- Byte of the ciphertext that ML-KEM-768 forms for an encapsulation key, at one exchange (R415, log 25). -/
opaque kemCiphertext : List Byte → Nat → Nat → Byte

/-- Byte of the secret that goes with that ciphertext (R415, log 25). -/
opaque kemSecret : List Byte → Nat → Nat → Byte

end Sys2Proof.Config
end

