-- ==== Sys2Proof/Machine/Flags.lean ====
section
/-! DEFINITION. Sub-elements of a lane, and the arithmetic on them with the flag it sets (R100, R101, R105 to R108). -/

namespace Sys2Proof.Machine

/-! ### The sticky flags (R149) -/

def flNV : BitVec 6 := 1
def flDZ : BitVec 6 := 2
def flOF : BitVec 6 := 4
def flUF : BitVec 6 := 8
def flNX : BitVec 6 := 16
def flSAT : BitVec 6 := 32

/-- Sub-element width that T names in an integer row (R46). -/
def widthOf (t : BitVec 2) : Nat :=
  match t.toNat with
  | 0 => 32
  | 1 => 16
  | 2 => 8
  | _ => 64

/-- Sub-element e of a lane, as an unsigned number (R100). -/
def elem (w : Nat) (x : Word) (e : Nat) : Nat := x.toNat / 2 ^ (w * e) % 2 ^ w

/-- A lane from its sub-elements, each cut to its width (R100). -/
def pack (w : Nat) (f : Nat → Nat) : Word :=
  BitVec.ofNat 64 ((List.range (64 / w)).foldl (fun n e => n + f e % 2 ^ w * 2 ^ (w * e)) 0)

/-- A w-bit number read as two's complement. -/
def sgn (w x : Nat) : Int := if Nat.blt x (2 ^ (w - 1)) then Int.ofNat x else Int.ofNat x - Int.ofNat (2 ^ w)

/-- The low w bits of an exact integer (R101). -/
def low (w : Nat) (z : Int) : Nat := (z % Int.ofNat (2 ^ w)).toNat

/-- An exact integer clamped to a range, and whether it was (R101). -/
def clamp (z lo hi : Int) : Int × Bool := if z < lo then (lo, true) else if hi < z then (hi, true) else (z, false)

/-- Clamped to the signed range of w bits. -/
def clampS (w : Nat) (z : Int) : Nat × Bool :=
  let r := clamp z (-(Int.ofNat (2 ^ (w - 1)))) (Int.ofNat (2 ^ (w - 1)) - 1)
  (low w r.1, r.2)

/-- Clamped to the unsigned range of w bits. -/
def clampU (w : Nat) (z : Int) : Nat × Bool :=
  let r := clamp z 0 (Int.ofNat (2 ^ w) - 1)
  (low w r.1, r.2)

/-- SAT where a value was clamped (R101, R149). -/
def satFlag (b : Bool) : BitVec 6 := if b then flSAT else 0

/-- An arithmetic shift right of a w-bit number. -/
def sarE (w a n : Nat) : Nat := low w (sgn w a / Int.ofNat (2 ^ n))

/-- Number of 1 bits among the low n bits. -/
def popcount (x : Nat) : Nat → Nat
  | 0 => 0
  | n + 1 => popcount x n + (if x.testBit n then 1 else 0)

/-- Number of 0 bits above the highest 1 bit of a w-bit number (R107). -/
def leadingZeros (x : Nat) : Nat → Nat
  | 0 => 0
  | n + 1 => if x.testBit n then 0 else leadingZeros x n + 1

/-- The low w bits in reverse order (R107). -/
def reverseBits (w x : Nat) : Nat := (List.range w).foldl (fun r i => r * 2 + (if x.testBit i then 1 else 0)) 0

/-- Length of a bit field clipped at bit w - 1 (R108). -/
def fieldLength (w c : Nat) : Nat :=
  let p := c % 256
  if Nat.blt p w then Nat.min (c / 256 % 256) (w - p) else 0

/-- BFX of one sub-element with its control (R108). -/
def bfxE (w a c : Nat) : Nat :=
  let m := fieldLength w c
  let f := a / 2 ^ (c % 256) % 2 ^ m
  if m == 0 then 0 else if c.testBit 16 then low w (sgn m f) else f

/-- BFI of one sub-element into its destination (R108). -/
def bfiE (w d a c : Nat) : Nat :=
  let m := fieldLength w c
  let p := c % 256
  if m == 0 then d else d - d / 2 ^ p % 2 ^ m * 2 ^ p + a % 2 ^ m * 2 ^ p

end Sys2Proof.Machine
end

