-- ==== Sys2Proof/Machine/Float.lean ====
section
/-! DEFINITION. Floating point: the three formats, exact values, and rounding once (R146 to R151), then the special functions
(R154 to R156). -/

namespace Sys2Proof.Machine

/-! ### Formats (R146) -/

/-- A binary format: exponent and fraction bits. -/
structure FpFmt where
  eb : Nat
  mb : Nat
  deriving DecidableEq, Repr

def fp32 : FpFmt := { eb := 8, mb := 23 }
def bf16 : FpFmt := { eb := 8, mb := 7 }
def fp16 : FpFmt := { eb := 5, mb := 10 }

/-- The format that T names in an FP row (R46). -/
def fpOf (t : BitVec 2) : FpFmt :=
  match t.toNat with
  | 0 => fp32
  | 1 => bf16
  | _ => fp16

def FpFmt.width (f : FpFmt) : Nat := f.eb + f.mb + 1
def FpFmt.bias (f : FpFmt) : Nat := 2 ^ (f.eb - 1) - 1

/-- Exponent of the last place of subnormals. -/
def FpFmt.qmin (f : FpFmt) : Int := 1 - Int.ofNat (f.bias + f.mb)

/-- Bits of infinity, of the largest finite value and of the canonical NaN, sign clear (R146). -/
def FpFmt.inf (f : FpFmt) : Nat := (2 ^ f.eb - 1) * 2 ^ f.mb
def FpFmt.maxFinite (f : FpFmt) : Nat := f.inf - 1
def FpFmt.nan (f : FpFmt) : Nat := f.inf + 2 ^ (f.mb - 1)

/-- Bits with a sign. -/
def FpFmt.signed (f : FpFmt) (neg : Bool) (x : Nat) : Nat := if neg then x + 2 ^ (f.eb + f.mb) else x

/-- A value: a finite one is m x 2^e with its sign (R146). -/
inductive Fp where
  | nan (signalling : Bool)
  | inf (neg : Bool)
  | fin (neg : Bool) (m : Nat) (e : Int)
  deriving DecidableEq, Repr

/-- The value of bits. -/
def FpFmt.decode (f : FpFmt) (x : Nat) : Fp :=
  let neg := x.testBit (f.eb + f.mb)
  let be := x / 2 ^ f.mb % 2 ^ f.eb
  let fr := x % 2 ^ f.mb
  if be == 2 ^ f.eb - 1 then (if fr == 0 then .inf neg else .nan (!(fr.testBit (f.mb - 1))))
  else if be == 0 then .fin neg fr f.qmin
  else .fin neg (fr + 2 ^ f.mb) (f.qmin + Int.ofNat (be - 1))

def Fp.isNan : Fp → Bool
  | .nan _ => true
  | _ => false

/-- NV for a signalling NaN among the operands (R148). -/
def nvOf (xs : List Fp) : BitVec 6 := if xs.any (fun x => x == .nan true) then flNV else 0

/-! ### Rounding (R147, R151) -/

/-- The rounding modes of R50. -/
inductive Rm where
  | rne | rz | ru | rd | rto
  deriving DecidableEq, Repr

def rmOf (r : BitVec 3) : Rm :=
  match r.toNat with
  | 0 => .rne
  | 1 => .rz
  | 2 => .ru
  | 3 => .rd
  | _ => .rto

/-- An exact magnitude n + r / d (0 <= r < d) rounded to an integer (R151). -/
def roundQuot (rm : Rm) (neg : Bool) (n r d : Nat) : Nat :=
  if r == 0 then n else
  match rm with
  | .rne => if Nat.blt d (2 * r) || (2 * r == d && n % 2 == 1) then n + 1 else n
  | .rz => n
  | .ru => if neg then n else n + 1
  | .rd => if neg then n + 1 else n
  | .rto => if n % 2 == 0 then n + 1 else n

/-- The quotient and remainder of p / q x 2^s. -/
def scaled (p q : Nat) (s : Int) : Nat × Nat × Nat :=
  match s with
  | .ofNat k => (p * 2 ^ k / q, p * 2 ^ k % q, q)
  | .negSucc k => (p / (q * 2 ^ (k + 1)), p % (q * 2 ^ (k + 1)), q * 2 ^ (k + 1))

/-- The exponent E with 2^E <= p / q x 2^e < 2^(E+1), for p and q not 0. -/
def expOf (p q : Nat) (e : Int) : Int :=
  let g := Int.ofNat p.log2 - Int.ofNat q.log2
  let below := match g with
    | .ofNat k => Nat.blt p (q * 2 ^ k)
    | .negSucc k => Nat.blt (p * 2 ^ (k + 1)) q
  (if below then g - 1 else g) + e

/-- The bits of a result beyond the largest finite magnitude (R151). -/
def FpFmt.overflow (f : FpFmt) (rm : Rm) (neg : Bool) : Nat :=
  f.signed neg (match rm with
    | .rne => f.inf
    | .rz => f.maxFinite
    | .ru => if neg then f.maxFinite else f.inf
    | .rd => if neg then f.inf else f.maxFinite
    | .rto => f.maxFinite)

/-- Rounds the exact magnitude p / q x 2^e (p and q not 0) once, with its flags: tininess after rounding (R147, R149). -/
def FpFmt.round (f : FpFmt) (rm : Rm) (neg : Bool) (p q : Nat) (e : Int) : Nat × BitVec 6 :=
  let x := expOf p q e
  let lo := f.qmin
  let qe := if x - Int.ofNat f.mb < lo then lo else x - Int.ofNat f.mb
  let r := scaled p q (e - qe)
  let n := roundQuot rm neg r.1 r.2.1 r.2.2
  let field := (qe - lo).toNat * 2 ^ f.mb + n
  let inexact := r.2.1 != 0
  let u := scaled p q (e - (x - Int.ofNat f.mb))
  let grows := roundQuot rm neg u.1 u.2.1 u.2.2 == 2 ^ (f.mb + 1)
  let least := lo + Int.ofNat f.mb
  let tiny := decide (x < least) && !(decide (x + 1 = least) && grows)
  if Nat.ble f.inf field then (f.overflow rm neg, flOF ||| flNX)
  else (f.signed neg field, (if inexact then flNX else 0) ||| (if tiny && inexact then flUF else 0))

/-- A signed dyadic number z x 2^e rounded; an exact zero has the sign given. -/
def FpFmt.roundInt (f : FpFmt) (rm : Rm) (z e : Int) (zeroNeg : Bool) : Nat × BitVec 6 :=
  if z == 0 then (f.signed zeroNeg 0, 0) else f.round rm (decide (z < 0)) z.natAbs 1 e

/-! ### Arithmetic (R147, R148, R152, R153) -/

/-- A finite value as a signed integer at an exponent not above its own. -/
def atExp (neg : Bool) (m : Nat) (e base : Int) : Int :=
  let v := Int.ofNat (m * 2 ^ (e - base).toNat)
  if neg then -v else v

/-- The exact sum of finite values, at the least of their exponents. -/
def sumExact (xs : List (Bool × Nat × Int)) : Int × Int :=
  let base := xs.foldl (fun b x => if x.2.2 < b then x.2.2 else b) 0
  (xs.foldl (fun z x => z + atExp x.1 x.2.1 x.2.2 base) 0, base)

/-- The exact product of two values where neither is a NaN; nothing for 0 x infinity. -/
def mulFp : Fp → Fp → Option Fp
  | .fin n m e, .fin n' m' e' => some (.fin (n != n') (m * m') (e + e'))
  | .inf n, .inf n' => some (.inf (n != n'))
  | .inf n, .fin n' m' _ => if m' == 0 then none else some (.inf (n != n'))
  | .fin n m _, .inf n' => if m == 0 then none else some (.inf (n != n'))
  | _, _ => none

/-- The rounded sum of terms, products of two factors among them; NaNs, invalid operations and signs of zero as R147 and
R148 say. A term is a list of one or two factors. DEDUCED: of more than two terms an exact zero sum is -0 only where every term
is -0, which extends what R147 says of two (log 109). -/
def FpFmt.sumTerms (f : FpFmt) (ts : List (List Fp)) : Nat × BitVec 6 :=
  let prods := ts.map fun t => match t with
    | [a, b] => if a.isNan || b.isNan then some (Fp.nan false) else mulFp a b
    | [a] => some a
    | _ => some (.fin false 0 0)
  let nv := nvOf ts.flatten
  let invalid := prods.any (fun p => p.isNone) ||
    (prods.contains (some (.inf true)) && prods.contains (some (.inf false)))
  if invalid then (f.nan, flNV)
  else if prods.any (fun p => match p with
    | some x => x.isNan
    | none => true) then (f.nan, nv)
  else if prods.contains (some (.inf true)) then (f.signed true f.inf, 0)
  else if prods.contains (some (.inf false)) then (f.inf, 0)
  else
    let fins := prods.filterMap fun p => match p with
      | some (.fin n m e) => some (n, m, e)
      | _ => none
    let z := sumExact fins
    f.roundInt .rne z.1 z.2 (fins.all fun x => x.1 && x.2.1 == 0)

def Fp.negate : Fp → Fp
  | .nan b => .nan b
  | .inf n => .inf (!n)
  | .fin n m e => .fin (!n) m e

def FpFmt.add (f : FpFmt) (a b : Nat) : Nat × BitVec 6 := f.sumTerms [[f.decode a], [f.decode b]]
def FpFmt.sub (f : FpFmt) (a b : Nat) : Nat × BitVec 6 := f.sumTerms [[f.decode a], [(f.decode b).negate]]
def FpFmt.mac (f : FpFmt) (d a b : Nat) : Nat × BitVec 6 := f.sumTerms [[f.decode d], [f.decode a, f.decode b]]
def FpFmt.nmac (f : FpFmt) (d a b : Nat) : Nat × BitVec 6 :=
  f.sumTerms [[f.decode d], [(f.decode a).negate, f.decode b]]

/-- The rounded product; a zero has the product's sign. -/
def FpFmt.mul (f : FpFmt) (a b : Nat) : Nat × BitVec 6 :=
  let x := f.decode a
  let y := f.decode b
  if x.isNan || y.isNan then (f.nan, nvOf [x, y]) else
  match mulFp x y with
  | none => (f.nan, flNV)
  | some (.fin n m e) => if m == 0 then (f.signed n 0, 0) else f.round .rne n m 1 e
  | some (.inf n) => (f.signed n f.inf, 0)
  | some (.nan _) => (f.nan, 0)

/-- The order of two values that are not NaNs: negative, zero, positive. -/
def cmpFp : Fp → Fp → Int
  | .inf n, .inf n' => if n == n' then 0 else if n then -1 else 1
  | .inf n, _ => if n then -1 else 1
  | _, .inf n => if n then 1 else -1
  | .fin n m e, .fin n' m' e' =>
    let base := if e < e' then e else e'
    atExp n m e base - atExp n' m' e' base
  | _, _ => 0

/-- minimumNumber and maximumNumber, -0 less than +0 (R153). -/
def FpFmt.minMax (f : FpFmt) (wantMax : Bool) (a b : Nat) : Nat × BitVec 6 :=
  let x := f.decode a
  let y := f.decode b
  let fl := nvOf [x, y]
  if x.isNan && y.isNan then (f.nan, fl)
  else if x.isNan then (b, fl)
  else if y.isNan then (a, fl)
  else
    let c := cmpFp x y
    let aLess := decide (c < 0) || (c == 0 && a.testBit (f.eb + f.mb))
    ((if aLess == wantMax then b else a), fl)

/-- The FP dot product of R163. -/
def dotB (d : Nat) (as bs : List Nat) : Nat × BitVec 6 :=
  fp32.sumTerms ([fp32.decode d] :: (as.zip bs).map fun p => [bf16.decode p.1, bf16.decode p.2])

/-! ### Fixed point for the special functions: numbers scaled by 2^256 -/

def fixOne : Nat := 2 ^ 256
def fixPi : Nat := 0x3243f6a8885a308d313198a2e03707344a4093822299f31d0082efa98ec4e6c89
def fixLn2 : Nat := 0xb17217f7d1cf79abc9e3b39803f2f6af40f343267298b62d8a0d175b8baafa2b

def fixMul (a b : Nat) : Nat := a * b / fixOne

/-- The sum of terms x^2k / (2k + c)! scaled, alternating or not: n terms on from term, whose index is k. -/
def fixSeries (x2 c : Nat) (alt : Bool) : Nat → Nat → Nat → Int
  | 0, _, _ => 0
  | n + 1, k, term =>
    let next := fixMul term x2 / ((2 * k + 1 + c) * (2 * k + 2 + c))
    (if alt && k % 2 == 1 then -(Int.ofNat term) else Int.ofNat term) + fixSeries x2 c alt n (k + 1) next

/-- sum of x^n / n! from n on (R154). -/
def fixExpFrom (x : Nat) : Nat → Nat → Nat → Nat
  | 0, _, _ => 0
  | k + 1, n, term => term + fixExpFrom x k (n + 1) (fixMul term x / (n + 1))

/-- 2^f for f below 1. -/
def fixExp2 (f : Nat) : Nat := fixExpFrom (fixMul f fixLn2) 80 0 fixOne

/-- sum of z^(2k+1) / (2k+1). -/
def fixAtanhFrom (z2 : Nat) : Nat → Nat → Nat → Nat
  | 0, _, _ => 0
  | n + 1, k, pow => pow / (2 * k + 1) + fixAtanhFrom z2 n (k + 1) (fixMul pow z2)

/-- log2 of m in [1, 2). -/
def fixLog2 (m : Nat) : Nat :=
  let z := (m - fixOne) * fixOne / (m + fixOne)
  2 * fixAtanhFrom (fixMul z z) 100 0 z * fixOne / fixLn2

/-- sin(x) / x and cos(x) for x up to pi / 2; sinh(x) / x and cosh(x) for x up to 1. -/
def fixSinc (x : Nat) : Nat := (fixSeries (fixMul x x) 1 true 60 0 fixOne).toNat
def fixCos (x : Nat) : Nat := (fixSeries (fixMul x x) 0 true 60 0 fixOne).toNat
def fixSinhc (x : Nat) : Nat := (fixSeries (fixMul x x) 1 false 60 0 fixOne).toNat
def fixCosh (x : Nat) : Nat := (fixSeries (fixMul x x) 0 false 60 0 fixOne).toNat

/-- A finite magnitude in fixed point, truncated. -/
def toFix (m : Nat) (e : Int) : Nat := (scaled m 1 (e + 256)).1

/-! ### The special functions (R154 to R156) -/

/-- The value of a special function at a finite operand outside its special cases: exactly rational, or so close to
p / q x 2^e that rounding to any of the formats is not affected. -/
structure Approx where
  neg : Bool
  p : Nat
  q : Nat
  e : Int
  /-- The value is exactly p / q x 2^e. -/
  exact : Bool
  deriving DecidableEq, Repr

/-- A magnitude is an integer, or an integer and a half: twice it (R154). -/
def twice? (m : Nat) (e : Int) : Option Nat :=
  let r := scaled m 1 (e + 1)
  if r.2.1 == 0 then some r.1 else none

/-- 1 / a. -/
def recipOf (neg : Bool) (m : Nat) (e : Int) : Approx := { neg := neg, p := 1, q := m, e := -e, exact := true }

/-- The integer square root, by bits from the highest. -/
def sqrtFrom (x : Nat) : Nat → Nat → Nat
  | 0, r => r
  | n + 1, r => sqrtFrom x n (if Nat.ble ((r + 2 ^ n) * (r + 2 ^ n)) x then r + 2 ^ n else r)

/-- The square root of m x 2^e: 200 bits of it and a mark below them where it is not exact. -/
def sqrtOf (m : Nat) (e : Int) : Approx :=
  let odd := e % 2 != 0
  let m' := (if odd then 2 * m else m) * 2 ^ 400
  let e' := (if odd then e - 1 else e) / 2 - 200
  let r := sqrtFrom m' 250 0
  if r * r == m' then { neg := false, p := r, q := 1, e := e', exact := true }
  else { neg := false, p := 2 * r + 1, q := 1, e := e' - 1, exact := false }

/-- 1 / sqrt(m x 2^e). -/
def rsqrtOf (m : Nat) (e : Int) : Approx :=
  let r := sqrtOf m e
  { neg := false, p := 1, q := r.p, e := -r.e, exact := r.exact }

/-- 2^a. -/
def exp2Of (neg : Bool) (m : Nat) (e : Int) : Approx :=
  let r := scaled m 1 (e + 256)
  let whole := r.1 / fixOne
  let frac := r.1 % fixOne
  if Nat.blt 100000 whole then { neg := false, p := 1, q := 1, e := if neg then -100000 else 100000, exact := false }
  else if frac == 0 && r.2.1 == 0 then
    { neg := false, p := 1, q := 1, e := if neg then -(Int.ofNat whole) else Int.ofNat whole, exact := true }
  else if neg then
    { neg := false, p := fixExp2 (fixOne - frac - (if frac == 0 then 1 else 0)), q := 1, e := -(Int.ofNat whole) - 257, exact := false }
  else { neg := false, p := fixExp2 frac, q := 1, e := Int.ofNat whole - 256, exact := false }

/-- log2 of m x 2^e. -/
def log2Of (m : Nat) (e : Int) : Approx :=
  let x := expOf m 1 e
  let f := (scaled m 1 (e - x + 256)).1
  let v := x * Int.ofNat fixOne + Int.ofNat (fixLog2 f)
  { neg := decide (v < 0), p := v.natAbs, q := 1, e := -256, exact := f == fixOne }

/-- sin(pi x r) for r in (0, 1/2] as a fraction of fixOne; m x 2^e is r exactly. -/
def sinPi (m : Nat) (e : Int) : Approx :=
  let x := fixMul (toFix m e) fixPi
  { neg := false, p := m * fixPi * fixSinc x, q := 1, e := e - 512, exact := false }

/-- The reduction of a half-turn argument: the integer part and the fraction m' x 2^e in [0, 1). -/
def halfTurns (m : Nat) (e : Int) : Nat × Nat :=
  match e with
  | .ofNat k => (m * 2 ^ k, 0)
  | .negSucc k => (m / 2 ^ (k + 1), m % 2 ^ (k + 1))

/-- sin(pi a) for a neither an integer nor a half-integer. -/
def sinOf (neg : Bool) (m : Nat) (e : Int) : Approx :=
  let h := halfTurns m e
  let one := 2 ^ (-e).toNat
  let r := if Nat.blt (one / 2) h.2 then one - h.2 else h.2
  let v := sinPi r e
  { v with neg := (h.1 % 2 == 1) != neg }

/-- cos(pi a) for a neither an integer nor a half-integer. -/
def cosOf (m : Nat) (e : Int) : Approx :=
  let h := halfTurns m e
  let one := 2 ^ (-e).toNat
  let flip := Nat.blt (one / 2) h.2
  let r := if flip then one - h.2 else h.2
  let c := if Nat.ble (one / 4) r then sinPi (one / 2 - r) e
    else { neg := false, p := fixCos (fixMul (toFix r e) fixPi), q := 1, e := -256, exact := false }
  { c with neg := (h.1 % 2 == 1) != flip }

/-- tanh a. -/
def tanhOf (neg : Bool) (m : Nat) (e : Int) : Approx :=
  let x := toFix m e
  if Nat.ble x fixOne then
    { neg := neg, p := m * fixSinhc x, q := fixCosh x, e := e, exact := false }
  else if Nat.blt (100 * fixOne) x then { neg := neg, p := fixOne - 1, q := fixOne, e := 0, exact := false }
  else
    let y := 2 * x * fixOne / fixLn2
    let g := fixExp2 (y % fixOne) * 2 ^ (y / fixOne)
    { neg := neg, p := g - fixOne, q := g + fixOne, e := 0, exact := false }

/-- Whether the candidate FP32 bits lie within a bound of the value: k units in the last place of the candidate itself, or
an absolute error of 2^-22 (R155). -/
def withinBound (c : Nat) (a : Approx) (ulps : Nat) (absolute : Bool) : Bool :=
  match fp32.decode c with
  | .fin n m e =>
    let lim : Nat × Int := if absolute then (1, -22) else (ulps, e)
    let base := [e, a.e, lim.2].foldl (fun b x => if x < b then x else b) 0
    let diff := (atExp n m e base * Int.ofNat a.q - atExp a.neg a.p a.e base).natAbs
    Nat.ble diff (lim.1 * 2 ^ (lim.2 - base).toNat * a.q)
  | _ => false

/-- NX exactly when the result differs from the true value; UF with NX for a subnormal or zero result; OF as rounding says
(R156). -/
def specialFlags (f : FpFmt) (r : Nat) (inexact : Bool) (rounded : BitVec 6) : BitVec 6 :=
  (rounded &&& flOF) ||| (if inexact then flNX else 0) |||
    (if inexact && Nat.blt (r % 2 ^ (f.eb + f.mb)) (2 ^ f.mb) then flUF else 0)

/-- A result of function number fn at bits x: correctly rounded, but in FP32 the part's own value where it lies within the
bound: of FEXP2, one spacing for a subnormal result (R155, R156, log 11). -/
def FpFmt.deliver (f : FpFmt) (fn x : Nat) (a : Approx) (ulps : Nat) (absolute : Bool) : Nat × BitVec 6 :=
  let r := f.round .rne a.neg a.p a.q a.e
  let exactHere := a.exact && r.2 == 0
  if f == fp32 && fn != 2 && !exactHere && r.2 &&& flOF == 0 then
    let c := (Config.special fn (BitVec.ofNat 32 x)).toNat
    let k := if fn == 3 && Nat.blt c (2 ^ f.mb) then 1 else ulps
    let v := if withinBound c a k absolute then c else r.1
    (v, specialFlags f v true 0)
  else (r.1, specialFlags f r.1 (!exactHere) r.2)

/-- Row 0x12 at bits x (R154). -/
def FpFmt.special (f : FpFmt) (fn x : Nat) : Nat × BitVec 6 :=
  match f.decode x with
  | .nan sg => (f.nan, if sg then flNV else 0)
  | .inf neg =>
    match fn with
    | 0 => (f.signed neg 0, 0)
    | 1 => if neg then (f.nan, flNV) else (0, 0)
    | 2 => if neg then (f.nan, flNV) else (f.inf, 0)
    | 3 => if neg then (0, 0) else (f.inf, 0)
    | 4 => if neg then (f.nan, flNV) else (f.inf, 0)
    | 5 => (f.nan, flNV)
    | 6 => (f.nan, flNV)
    | _ => (f.signed neg (f.bias * 2 ^ f.mb), 0)
  | .fin neg m e =>
    let one := f.bias * 2 ^ f.mb
    if m == 0 then
      match fn with
      | 0 => (f.signed neg f.inf, flDZ)
      | 1 => (f.signed neg f.inf, flDZ)
      | 2 => (f.signed neg 0, 0)
      | 3 => (one, 0)
      | 4 => (f.signed true f.inf, flDZ)
      | 5 => (f.signed neg 0, 0)
      | 6 => (one, 0)
      | _ => (f.signed neg 0, 0)
    else
      match fn with
      | 0 => f.deliver 0 x (recipOf neg m e) 1 false
      | 1 => if neg then (f.nan, flNV) else f.deliver 1 x (rsqrtOf m e) 1 false
      | 2 => if neg then (f.nan, flNV) else f.deliver 2 x (sqrtOf m e) 1 false
      | 3 => f.deliver 3 x (exp2Of neg m e) 2 false
      | 4 =>
        if neg then (f.nan, flNV)
        else
          let a := log2Of m e
          if a.p == 0 then (0, 0)
          else f.deliver 4 x a 2 (decide (cmpFp (.fin false m e) (.fin false 1 (-1)) ≥ 0) &&
            decide (cmpFp (.fin false m e) (.fin false 2 0) ≤ 0))
      | 5 =>
        match twice? m e with
        | some h => if h % 2 == 0 then (f.signed neg 0, 0) else (f.signed ((h / 2 % 2 == 1) != neg) one, 0)
        | none => f.deliver 5 x (sinOf neg m e) 0 true
      | 6 =>
        match twice? m e with
        | some h => if h % 2 == 1 then (0, 0) else (f.signed (h / 2 % 2 == 1) one, 0)
        | none => f.deliver 6 x (cosOf m e) 0 true
      | _ => f.deliver 7 x (tanhOf neg m e) 2 false

/-! ### Conversions (R158 to R161) -/

/-- Rounds a finite value to an integer under a mode (R151): the integer, and whether it differs. -/
def toInteger (rm : Rm) (neg : Bool) (m : Nat) (e : Int) : Int × Bool :=
  let r := scaled m 1 e
  let n := Int.ofNat (roundQuot rm neg r.1 r.2.1 r.2.2)
  (if neg then -n else n, r.2.1 != 0)

/-- An FP value rounded to another format (R159). -/
def convertFF (src dst : FpFmt) (rm : Rm) (x : Nat) : Nat × BitVec 6 :=
  match src.decode x with
  | .nan sg => (dst.nan, if sg then flNV else 0)
  | .inf n => (dst.signed n dst.inf, 0)
  | .fin n m e => if m == 0 then (dst.signed n 0, 0) else dst.round rm n m 1 e

end Sys2Proof.Machine
end

