-- ==== Sys2Proof/Machine/Table.lean ====
section
/-! DEFINITION. Sparse tables: lists of (key, value) pairs with strictly rising keys. Every collection of State that is
keyed by a number is one of these, memory included. -/

namespace Sys2Proof.Machine

/-- Entries in strictly rising order of their keys. -/
abbrev Table (α : Type) := List (Nat × α)

/-- The entry under a key. -/
def Table.find? {α : Type} : Table α → Nat → Option α
  | [], _ => none
  | (k, a) :: t, n => if k == n then some a else if Nat.blt n k then none else Table.find? t n

/-- The entry under a key, or a default. -/
def Table.getD {α : Type} (t : Table α) (n : Nat) (d : α) : α :=
  match Table.find? t n with
  | some a => a
  | none => d

/-- Sets the entry under a key. -/
def Table.put {α : Type} : Table α → Nat → α → Table α
  | [], n, a => [(n, a)]
  | (k, b) :: t, n, a =>
    if k == n then (n, a) :: t else if Nat.blt n k then (n, a) :: (k, b) :: t else (k, b) :: Table.put t n a

/-- Removes the entry under a key. -/
def Table.del {α : Type} : Table α → Nat → Table α
  | [], _ => []
  | (k, b) :: t, n => if k == n then t else if Nat.blt n k then (k, b) :: t else (k, b) :: Table.del t n

/-- Sets or removes the entry under a key. -/
def Table.set {α : Type} (t : Table α) (n : Nat) : Option α → Table α
  | some a => Table.put t n a
  | none => Table.del t n

/-- The keys in rising order. -/
def Table.keys {α : Type} (t : Table α) : List Nat := t.map Prod.fst

/-- The values in rising order of their keys. -/
def Table.vals {α : Type} (t : Table α) : List α := t.map Prod.snd

/-- Changes every value. -/
def Table.mapVals {α : Type} (t : Table α) (f : Nat → α → α) : Table α := t.map fun e => (e.1, f e.1 e.2)

/-- Changes the value under a key, where there is one. -/
def Table.adjust {α : Type} (t : Table α) (n : Nat) (f : α → α) : Table α :=
  match Table.find? t n with
  | some a => Table.put t n (f a)
  | none => t

/-- Keeps the entries that a test accepts. -/
def Table.keep {α : Type} (t : Table α) (f : Nat → α → Bool) : Table α := t.filter fun e => f e.1 e.2

/-- The keys rise strictly. -/
def Table.wf {α : Type} : Table α → Bool
  | [] => true
  | [_] => true
  | (k, _) :: (j, b) :: t => Nat.blt k j && Table.wf ((j, b) :: t)

/-- The first entry that a test accepts. -/
def Table.first? {α : Type} (t : Table α) (f : Nat → α → Bool) : Option (Nat × α) := List.find? (fun e => f e.1 e.2) t

end Sys2Proof.Machine
end

