-- ==== Sys2Proof/Machine/State.lean ====
section
/-! DEFINITION. The state of one package: every register, queue, table and mark the manual gives it, as plain data.
INVENTORY.md, under State, names the rule of each field. -/

namespace Sys2Proof.Machine

/-- Memory cells: (address, byte) in strictly rising order, no zero byte listed; an unlisted byte reads 0 (log 4). -/
abbrev Memory := List Host.Cell

/-- The canonical form of memory. -/
def Memory.wf (m : Memory) : Bool := Table.wf m && m.all fun c => c.2 != 0#8

/-- The role of a team (R258, R395). -/
inductive Role where
  | alone | loader | computer | storer
  /-- A control core's system thread. -/
  | system
  /-- A control core's prologue thread. -/
  | prologue
  deriving DecidableEq, Repr

/-- Why a team does not issue (R22, R24): a stall or an awaited event. -/
inductive Wait where
  | ready
  /-- Frozen on an instruction-cache line of its quad (R68). -/
  | line (addr : Nat)
  /-- A pending translation miss, by its serial number (R384). -/
  | miss (id : Nat)
  /-- The reply to a remote load (R351). -/
  | reply (id : Nat)
  /-- Acknowledgements of writes (R208). -/
  | acks (ids : List Nat)
  /-- A version of a page with at least this step (R323). -/
  | version (page : Nat) (step : Nat)
  /-- Entries of a page's record, or lines of a version, that are being fetched; the load's address (R320, R435). -/
  | fetch (page : Nat) (a : Word)
  /-- A step advance held by the progress table (R330). -/
  | step
  /-- A barrier release (R239): scope code and number. -/
  | barrier (scope n : Nat)
  /-- A batch of a class (R248). -/
  | batch (cls n : Nat)
  /-- The end of a class's oldest closed batch, so that another can close: a stall (R247). -/
  | close (cls n : Nat)
  /-- A slot or an entry of a pipe (R260, R261). -/
  | pipe (n : Nat)
  /-- A matrix rendezvous latch (R285). -/
  | latch (n : Nat)
  /-- The close of a quorum slot, by its key, and the destination of the QWAIT (R340). -/
  | slot (key : Nat) (reg : BitVec 5)
  /-- Fabric acknowledgements awaited by RFENCE or a POD or SYS release (R355). -/
  | fabric
  /-- Accumulator rows or queue room still in use by operations (R281, R287). -/
  | engine
  /-- The end of operations of the array, by their numbers (R278). -/
  | ops (ids : List Nat)
  /-- A value that a store operation returns (R303). -/
  | value (id : Nat)
  /-- HALT.idle: an event or a doorbell (R380). -/
  | doorbell
  /-- HALT.stop or HALT.swap of a partition (R380). -/
  | halt (part : Nat)
  /-- The digest unit's output (R440). -/
  | digest
  /-- Values on their way to its registers, after which the team retires (R85). -/
  | retire
  /-- A thread without work: an idle prologue thread, or a system thread halted for a new image (R395, R417). -/
  | idle
  deriving DecidableEq, Repr

/-- A divergence-stack entry (R70). -/
structure StackEntry where
  rejoin : Bool
  addr : Word
  mask : Mask
  deriving DecidableEq, Repr

/-- An open loop level (R87). -/
structure LoopLevel where
  first : Word
  last : Word
  count : Nat
  deriving DecidableEq, Repr

/-- A poisoned slice: register, mask word, the cause its reader raises (21 or 84), the load's address, and whether a reader has
raised it (R205). -/
structure Poison where
  reg : Nat
  row : Nat
  cause : Nat
  addr : Word
  read : Bool := false
  deriving DecidableEq, Repr

/-- A failed operation of a batch not yet reported (R251). -/
structure Failure where
  batch : Nat
  cause : Nat
  issue : Word
  addr : Word
  deriving DecidableEq, Repr

/-- The batches of one class (R247): open number, done number, failures not yet reported. -/
structure Batches where
  opened : Nat := 1
  done : Nat := 0
  failed : List Failure := []
  /-- Batch number and virtual line of each memory line that an operation of the C class wrote (R249). -/
  wrote : List (Nat × Nat) := []
  deriving DecidableEq, Repr

/-- An operand map (R271). -/
structure OperandMap where
  role : Nat
  pbase : Nat
  sbase : Nat
  rows : Nat
  ksize : Nat
  width : Nat
  binary : Bool
  deriving DecidableEq, Repr

/-- A gang (R284): its members in order, as team indexes of the core with the identity that was resident there. -/
structure Gang where
  members : List (Nat × Nat)
  deriving DecidableEq, Repr

/-- The trap registers of a team (R373), and the stack depth at trap entry (R376). -/
structure TrapRegs where
  entry : Word := 0
  cause : Nat := 0
  inh : Bool := false
  tpc : Word := 0
  addr : Word := 0
  pass : Nat := 0
  eng : Bool := false
  cls : Nat := 0
  code : Nat := 0
  issue : Word := 0
  batch : Word := 0
  scratch : Word := 0
  depth : Nat := 0
  deriving DecidableEq, Repr

/-- A team, or a thread of a control core (R17 to R24, R121, R395). -/
structure Team where
  uid : Nat
  ctx : Nat
  part : Nat
  launch : Nat
  record : Nat
  pos : Nat
  block : Nat
  leader : Nat
  role : Role
  level : Nat
  width : Nat
  vdecl : Nat
  pdecl : Nat
  pc : Word
  /-- The next word belongs to a chain whose legality has been checked. -/
  chained : Bool := false
  /-- Words of the packet at pc have issued, and the team has not left it since (R32, R40). -/
  inPacket : Bool := false
  /-- The next word was reached by a transfer (R37). -/
  target : Bool := false
  /-- A YIELD stands in the chain being issued (R35). -/
  yielded : Bool := false
  live : Mask
  active : Mask
  /-- HOMEID of each lane after a COMPACT; empty while it equals LANEID (R20). -/
  home : List Nat := []
  v : Table Lanes := []
  p : Table Mask := []
  sr : Table Word := []
  x : List (BitVec 16)
  policy : Nat := 0
  poison : List Poison := []
  /-- Poisoned slices that have been overwritten before they were read (R205, R427). -/
  unread : Nat := 0
  stack : List StackEntry := []
  /-- Entries of the stack, counted from its bottom, that have moved to the divergence spill area (R70, R72). -/
  spilled : Nat := 0
  dsbase : Word
  /-- Open levels, innermost first. -/
  loops : List LoopLevel := []
  nflags : BitVec 6 := 0
  trap : TrapRegs := {}
  batchC : Batches := {}
  batchM : Batches := {}
  batchF : Batches := {}
  batchQ : Batches := {}
  maps : Table OperandMap := []
  gang : Option Gang := none
  /-- ACCWND: first row and row count of the window (R278). -/
  window : Nat × Nat := (0, 0)
  /-- Barrier scopes and numbers whose arrival is pending (R239), coded 16 x scope + number. -/
  pendingBars : List Nat := []
  ldvlim : Word := 0
  pself : Word := 0
  /-- The newest step of a page that the team published (R222), by page identifier. -/
  seen : Table Nat := []
  /-- The page and step that the LDV at pc has resolved to, while lines of that version are fetched (R320, R323). -/
  resolved : Option (Nat × Nat) := none
  wait : Wait := .ready
  /-- The mask word at which the instruction at pc resumes (R204, R376). -/
  resume : Nat := 0
  /-- How far the instruction at pc has got, where it has several parts. -/
  phase : Nat := 0
  /-- Clocks left of a limited wait (R323). -/
  limit : Nat := 0
  /-- A cause that the instruction at pc raises when it is issued again (R351, R384, R285). -/
  raised : Option (Nat × Word) := none
  /-- The address of a word whose fetch the supervisor could not serve: it raises cause 11 when it is reached (R33, R384). -/
  lost : Option Word := none
  stamp : Nat
  deriving DecidableEq, Repr

/-- A line of a core's L1 (R188, R192, R202). -/
structure Line where
  ctx : Nat
  va : Nat
  pa : Nat
  valid : BitVec 64
  dirty : BitVec 64
  data : BitVec 512
  rd : Bool
  wr : Bool
  usr : Bool
  cls : Nat
  ro : Bool := false
  /-- Some one store wrote the whole line, so its write-back writes a raw descriptor (R165). -/
  raw : Bool := false
  deriving DecidableEq, Repr

/-- A write on its way from a core to the home of its line (R188, R191): the bytes of a line that the mask names. -/
structure Flight where
  core : Nat
  ctx : Nat
  pa : Nat
  mask : BitVec 64
  data : BitVec 512
  /-- The descriptor that the write's form writes (R165). -/
  desc : Option (BitVec 16)
  /-- An FP32 addition to a location instead of a write: its address and the contribution (R233). -/
  add : Option (Nat × Nat) := none
  /-- The request that carries the contribution, once it has merged into another (R233). -/
  into : Option Nat := none
  deriving DecidableEq, Repr

/-- Where a value that has not arrived yet goes (R197, R235, R303). -/
inductive Target where
  /-- Lanes of one slice: register, mask word, lanes written, the values of its 32 lanes, cause of poison (0 none) and
  address. -/
  | slice (reg row : Nat) (lanes : BitVec 32) (vals : List Word) (cause : Nat) (addr : Word)
  /-- A scalar register. -/
  | scalar (reg : BitVec 5) (val : Word)
  deriving DecidableEq, Repr

/-- Values on their way to a team's registers. -/
structure Pending where
  core : Nat
  team : Nat
  /-- 0 a load of row 0x15, 0x20 or 0x21, 1 an atomic, 2 a remote read, 3 a content-store value. -/
  kind : Nat
  targets : List Target
  /-- Bytes of a lane of a remote access, and for a read each lane with the place of its line among those asked for and its
  address (R351, R352). -/
  size : Nat := 8
  reads : List (Nat × Nat × Word) := []
  deriving DecidableEq, Repr

/-- A physical slice of a core's slice store (R124, R127, R129): its name, its value, whether it is stored without
deduplication, and its place in the spill area while it stands there. -/
structure Slice where
  id : Nat
  val : Lanes
  own : Bool := false
  place : Option Nat := none
  deriving DecidableEq, Repr

/-- An entry of the reuse table (R132, R134): what identifies the pass, and what it recorded. Slices stand by their names,
0 the zero slice. -/
structure ReuseEntry where
  word : Code
  sources : List Nat
  old : Nat
  act : BitVec 32
  grd : BitVec 32
  scalars : List Word
  row : Nat
  ctx : Nat
  team : Nat
  load : Bool
  footprint : List Nat
  /-- The name a CREAD entry read, or the page an LDV entry read (R137). -/
  name : Word
  result : List Nat
  flags : BitVec 6
  step : Nat
  /-- The values on their way that complete the pass, by their number; 0 once it has completed (R134). -/
  flight : Nat := 0
  deriving DecidableEq, Repr

/-- A barrier counter of one core (R239). -/
structure Barrier where
  expected : Nat := 0
  arrived : Nat := 0
  deriving DecidableEq, Repr

/-- An arrival at a rendezvous latch (R285): the member's index, what its MMA copied and the first row it checked. -/
structure Arrival where
  index : Nat
  zero : Bool
  a : OperandMap
  row : Nat
  deriving DecidableEq, Repr

/-- A rendezvous latch that gathers (R285): its member list, the B map that opened it and the members that arrived. -/
structure Latch where
  members : List Nat
  b : OperandMap
  arrived : List Arrival
  deriving DecidableEq, Repr

/-- The power state of a core (R426). -/
inductive Power where
  | running | request | gated
  deriving DecidableEq, Repr

/-- A core (R10, R62, R63, R145, R403, R406, R426). -/
structure Core where
  lines : List Line := []
  /-- Lines of the spill areas in the reserved part of the L1, the one used last first (R72, R130). -/
  reserved : List Line := []
  /-- The physical slices in use, the one read last first (R124, R129). -/
  slices : List Slice := []
  /-- The slice that each architectural slice maps to, keyed 8,192 x team index + 32 x register + mask word; one that maps to
  the zero slice is not listed (R126, R127). -/
  names : Table Nat := []
  /-- The name that the next new slice takes. -/
  nextSlice : Nat := 1
  runTeam : Option Nat := none
  runCount : Nat := 0
  slips : Word := 0
  bars : Table Barrier := []
  reuse : List ReuseEntry := []
  ruhits : Word := 0
  rulook : Word := 0
  slspill : Word := 0
  slbase : Word := 0
  spillres : Nat := 16
  latches : Table Latch := []
  /-- Accepted operations of the array in order, by their numbers, and the one that it performs (R287). -/
  matrixQueue : List Nat := []
  matrixRun : Option Nat := none
  mmaops : Word := 0
  tasks : List (List Word) := []
  /-- The launch and the undealt records first .. first + n - 1 of the core's chunk (R403). -/
  chunk : Option (Nat × Nat × Nat) := none
  power : Power := .running
  wakeHeld : Bool := false
  /-- The affine engine's issue run: its loader team and its issues (R265, R266). -/
  affineTeam : Option Nat := none
  affineCount : Nat := 0
  deriving DecidableEq, Repr

/-- A pipe of a pipeline group (R258 to R264). -/
structure Pipe where
  producer : Nat
  consumer : Nat
  /-- Numbers of slots claimed and of slots taken since placement. -/
  pushed : Nat := 0
  popped : Nat := 0
  eos : Bool := false
  /-- Consumer retired; producer retired. -/
  cret : Bool := false
  pret : Bool := false
  /-- The slots claimed and not yet freed, by claim number, with their 256 bytes once they are filled. -/
  slots : Table (Option (List Byte)) := []
  deriving DecidableEq, Repr

/-- A team block or pipeline group (R258, R277, R404). -/
structure Block where
  core : Nat
  ctx : Nat
  launch : Nat
  record : Nat
  /-- The first of the consecutive team indexes that the block keeps until its last team retires, and their number; 0 for
  a pipeline group, whose roles keep one each (R429). -/
  first : Nat := 0
  count : Nat := 0
  /-- Scratchpad bytes of each role: (allocation, cells), keyed by role code 0 alone or computer, 1 loader, 2 storer. -/
  scratchSize : Nat
  scratch : Table (Table Byte) := []
  accRows : Nat
  /-- Accumulator elements not +0, keyed 128 x row + column. -/
  acc : Table (BitVec 32) := []
  pipes : Table Pipe := []
  deriving DecidableEq, Repr

/-- A leaf of a page table as the translation unit keeps it (R382). -/
structure TlbEntry where
  ctx : Nat
  /-- First virtual address and size of the page. -/
  base : Nat
  size : Nat
  leaf : Word
  deriving DecidableEq, Repr

/-- A quad (R9, R67): instruction-cache lines with the context, the virtual line address and its 48 words; a word of a
page that could not be fetched is absent. -/
structure Quad where
  part : Nat := 0
  icache : List (Nat × Nat × List (Option Code)) := []
  /-- Lines being filled: context, line address. -/
  filling : List (Nat × Nat) := []
  deriving DecidableEq, Repr

/-- The digest unit of a control core (R440). -/
structure Digest where
  addr : Word := 0
  len : Word := 0
  /-- Where the digest that was started begins: DGADDR at the write of DGLEN. -/
  start : Word := 0
  out : List Word := []
  reads : Nat := 0
  running : Bool := false
  deriving DecidableEq, Repr

/-- The state of a quorum slot (R333). -/
inductive SlotState where
  | idle | opened | closed
  deriving DecidableEq, Repr

/-- A working area of a slot: the sum of the contributions, empty before the first, with their count and the flags of
their additions (R333, R335, R337). -/
structure Area where
  sum : List (BitVec 32) := []
  count : Nat := 0
  flags : BitVec 6 := 0
  deriving DecidableEq, Repr

/-- A quorum slot (R333 to R340). -/
structure Slot where
  state : SlotState := .idle
  ctx : Nat := 0
  step : Nat := 0
  quorum : Nat := 0
  floor : Nat := 0
  len : Nat := 0
  time : Nat := 0
  lambda : BitVec 32 := 0
  openedAt : Nat := 0
  onTime : Area := {}
  late : Area := {}
  early : Area := {}
  /-- What the last close formed: the result, the kind (1 quorum, 2 dusk, 3 empty), the late contributions that it met,
  and its flags. -/
  result : List (BitVec 32) := []
  kind : Nat := 0
  folded : Nat := 0
  flags : BitVec 6 := 0
  drops : Nat := 0
  /-- The clock at which it last took a contribution (R335). -/
  takenAt : Option Nat := none
  deriving DecidableEq, Repr

/-- The leaf of a translation, as an access uses it. -/
structure Page where
  rd : Bool
  wr : Bool
  ex : Bool
  usr : Bool
  cls : Nat
  /-- Physical address of the accessed byte; for a REM or VERS page the owner's PAGE x 65,536 plus the offset. -/
  pa : Nat
  pkg : Nat
  deriving DecidableEq, Repr

/-- What a miss stopped: a data access or a fetch of a team, or an engine operation (R384). -/
inductive Waiter where
  | team (key uid : Nat) (fetch : Bool) (a : Word)
  | op (id : Nat) (a : Word)
  /-- The reading of a launch's card (R399), or the writing of its completion record (R401). -/
  | launch (id : Nat)
  /-- The reading of an argument record of a launch for a core (R404). -/
  | record (id core : Nat)
  /-- The reading of a queued launch's card for its dependences (R400): context, queue, sequence number. -/
  | card (ctx queue seq : Nat)
  deriving DecidableEq, Repr

/-- A pending translation miss (R384, R386): context and page, the address, kinds and source of its event, the event's
sequence number once it is written, and what waits. -/
structure Miss where
  ctx : Nat
  page : Nat
  addr : Word
  kinds : Nat
  source : Word
  seq : Option Nat
  waiters : List Waiter
  deriving DecidableEq, Repr

/-- A content-store directory entry (R296 to R300). -/
structure DirEntry where
  name : Word
  loc : Nat
  count : Nat
  quiet : Bool := false
  node : Bool := false
  /-- A node that a replica fetched: some of its entries may be missing here (R320, R431). -/
  bare : Bool := false
  deriving DecidableEq, Repr

/-- An entry of a version record (R318, R319): step, root, pins, and the names fetched under a replica's entry (R320). -/
structure VersionEntry where
  step : Nat
  root : Word
  pins : Nat := 0
  held : List Word := []
  deriving DecidableEq, Repr

/-- The version record of a page at its home, or the replica of it here (R318, R320). -/
structure VersionRecord where
  home : Bool := true
  /-- In rising order of their steps. -/
  entries : List VersionEntry := []
  /-- Packages with a replica, at the home. -/
  replicas : List Nat := []
  /-- A replica whose entries are being fetched (R435). -/
  fetching : Bool := false
  /-- The newest publish message that found every entry of a replica pinned: step, root (R320). -/
  pending : Option (Nat × Word) := none
  /-- Evicted entries of a replica that a load still holds (R323). -/
  leaving : List VersionEntry := []
  deriving DecidableEq, Repr

/-- A peer of a progress group (R326 to R328). -/
structure Peer where
  pkg : Nat
  here : Bool
  step : Nat := 0
  /-- Clock at which the silence counter was last cleared. -/
  heardAt : Nat := 0
  silent : Bool := false
  excused : Bool := false
  deriving DecidableEq, Repr

/-- A launch queue (R397, R398, R411). -/
structure Queue where
  base : Word := 0
  size : Nat := 16
  head : Nat := 0
  tail : Nat := 0
  seq : Nat := 1
  prio : Nat := 0
  enable : Bool := false
  serial : Bool := false
  devpost : Bool := false
  halted : Bool := false
  /-- Open buffers, innermost first: next entry's address, entries left. -/
  nest : List (Nat × Nat) := []
  /-- Rises with every taking of an entry from the queue; 0 never. -/
  takenAt : Nat := 0
  /-- The sequence number of an entry whose card the supervisor could not make readable (R384, R400). -/
  unserved : Option Nat := none
  deriving DecidableEq, Repr

/-- A task spill ring (R406, R411). -/
structure SpillRing where
  base : Word := 0
  size : Nat := 0
  /-- The place of the oldest record, and the number of records. -/
  head : Nat := 0
  count : Nat := 0
  deriving DecidableEq, Repr

/-- A context number's state on the package (R394, R347, R245, R99, R317, R345, R326, R411). -/
structure Context where
  alive : Bool := false
  killed : Bool := false
  /-- Identity of the memory key while it lives (R392). -/
  key : Option Nat := none
  part : Nat := 0
  ptroot : Word := 0
  skey : List Word := [0, 0, 0, 0]
  gid : Nat := 0
  fwdcnt : Word := 0
  bargrant : Word := 0
  dspool : Table Word := []
  csArena : Word := 0
  csSize : Word := 0
  dir : List DirEntry := []
  versions : Table VersionRecord := []
  /-- The progress table, by peer number. -/
  peers : List Peer := []
  lead : Nat := 2
  pgBase : Word := 0
  pgSize : Nat := 0
  psilent : Word := 0
  pautox : Bool := false
  psdef : Word := 0
  qgrant : Table Word := []
  spill : Table SpillRing := []
  queues : Table Queue := []
  /-- Raised priorities of launches that have not ended, keyed 2^32 x queue + SEQ (R402). -/
  raised : Table Nat := []
  deriving DecidableEq, Repr

/-- A partition (R390, R391, R394). -/
structure Partition where
  live : Nat := 0
  cellar : Nat := 0
  stopped : Bool := false
  swapping : Bool := false
  /-- Halting for HALT.stop (1) or HALT.swap (2), or exchanging (3); 0 none. -/
  phase : Nat := 0
  /-- The live state was running when it was halted; the same of the state in the cellar. -/
  wasRunning : Bool := false
  cellarRunning : Bool := false
  deriving DecidableEq, Repr

/-- The state of one core that passes through the cellar, of the context held there (R26, R242, R406). -/
structure CoreShadow where
  bars : Table Barrier := []
  latches : Table Latch := []
  tasks : List (List Word) := []
  chunk : Option (Nat × Nat × Nat) := none
  matrixQueue : List Nat := []
  matrixRun : Option Nat := none
  slices : List Slice := []
  names : Table Nat := []
  deriving DecidableEq, Repr

/-- The cellar of a partition's cores (R26, R391): teams, blocks, and the state of each core. -/
structure Cellar where
  teams : Table Team := []
  blocks : Table Block := []
  cores : Table CoreShadow := []
  deriving DecidableEq, Repr

/-- The state of a launch (R401). -/
inductive LaunchState where
  | taken | prologue | dealing | draining | done | cancelled | failed
  deriving DecidableEq, Repr

/-- A launch (R399 to R405). -/
structure Launch where
  ctx : Nat
  queue : Nat
  seq : Nat
  term : Nat
  card : Nat
  state : LaunchState
  /-- The doublewords of the card as read last; empty before the first read. -/
  dws : List Word := []
  argbase : Word := 0
  reccount : Nat := 0
  next : Nat := 0
  blocks : List Nat := []
  unrep : Nat := 0
  firstFail : Option (Nat × Word) := none
  /-- A cause that fails the launch once its blocks have retired (R404). -/
  cause : Nat := 0
  /-- The prologue has cancelled the launch (R405). -/
  cancel : Bool := false
  /-- The card is still to be read: for the first time, or after the prologue with the ARGBASE and RECCOUNT that it gave
  (R399, R405). -/
  reading : Bool := false
  pro : Option (Word × Nat) := none
  order : Nat
  runs : Nat := 0
  /-- FCLK of the next prologue run, and the prologue thread that runs it. -/
  again : Option Nat := none
  die : Option Nat := none
  /-- The queue state to restore if the ticket goes stale (R400). -/
  back : Queue := {}
  /-- The translation miss that the reading of the card or the writing of the completion record waits for (R399, R401). -/
  miss : Option Nat := none
  /-- Cores whose reading of an argument record waits for a translation miss (R404). -/
  waiting : List Nat := []
  deriving DecidableEq, Repr

/-- An event of the supervisor queue that has no room yet (R386, R387). -/
structure Event where
  kind : Nat
  cause : Nat
  ctx : Nat
  addr : Word
  data : Word
  source : Word
  /-- The pending miss that a TMISS event belongs to. -/
  miss : Option Nat := none
  deriving DecidableEq, Repr

/-- The event queue (R386, R387, R394). -/
structure EventQueue where
  base : Word := 0
  size : Nat := 64
  head : Nat := 0
  tail : Nat := 0
  lost : Word := 0
  next : Nat := 1
  waiting : List Event := []
  deriving DecidableEq, Repr

/-- The leader lease (R396). -/
structure Lease where
  holder : Nat := 0
  held : Bool := false
  term : Nat := 0
  expiry : Nat := 0
  length : Nat := 2400000
  ok : List Bool := [false, false, false, false]
  deriving DecidableEq, Repr

/-- A UALink link (R363). -/
structure Link where
  up : Bool := false
  width : Nat := 0
  retraining : Bool := false
  mismatches : Nat := 0
  deriving DecidableEq, Repr

/-- The reading of a message by its receiver before, from one source (R356), with the line it was sent to first (R361). -/
structure Heard where
  source : Nat
  gctx : Nat
  team : Nat
  line : Nat
  origin : Option (Nat × Nat) := none
  seq : Nat
  /-- What was answered, for a repeat. -/
  answer : RemoteAnswer
  deriving DecidableEq, Repr

/-- What this package answered a contribution of another (R339, R364): its source, group context and sequence number, and 0
taken, 1 refused for another sending, or a cause. -/
structure Verdict where
  source : Nat
  gctx : Nat
  seq : Nat
  verdict : Nat
  deriving DecidableEq, Repr

/-- The payload writes of a PUTSIG of another package that have been performed here, and whether one of them failed (R354). -/
structure Signal where
  source : Nat
  gctx : Nat
  team : Nat
  number : Nat
  count : Nat
  failed : Option Nat := none
  deriving DecidableEq, Repr

/-- The state of a live update (R417, R428): 0 IDLE, 1 STAGED, 2 QUIESCE, 3 HANDOVER, 4 COMMIT, 5 ROLLBACK. -/
structure Update where
  state : Nat := 0
  active : Nat := 0
  /-- No slot verified at boot: the host port is in its error state (R412). -/
  fault : Bool := false
  hbto : Word := 120000000
  tbaddr : Word := 0
  stgver : Word := 0
  /-- FCLK at the first instruction fetch of the new image (R417); none before it. -/
  since : Option Nat := none
  halted : List Bool := [false, false, false, false]
  deriving DecidableEq, Repr

/-- A firmware image slot (R412, R413): its bytes, whether the loader has verified it, and what the loader reads from it,
its security version and the first words of the firmware and of the supervisor image that it loads (log 20). -/
structure ImageSlot where
  bytes : Table Byte := []
  size : Nat := 0
  verified : Bool := false
  secver : Nat := 0
  entry : Nat := 0
  sup : Nat := 0
  deriving DecidableEq, Repr

/-- The mailbox (R421). -/
structure Mailbox where
  cmd : Word := 0
  stat : Word := 0
  args : List Word := [0, 0, 0, 0]
  data : List Byte := []
  deriving DecidableEq, Repr

/-- What the last access of the host came to (R421): data read, a write performed, or completion with an error. -/
inductive HostReply where
  | nothing
  | data (bs : List Byte)
  | done
  | failed
  deriving DecidableEq, Repr

/-- A checkpoint or a restore in progress (R423, R425). -/
structure Transfer where
  restore : Bool
  ctx : Nat
  addr : Nat
  flags : Word
  names : Word
  deriving DecidableEq, Repr

/-- A signed response that waits for an image that holds the lease (R420): its code, the operation of a GET_MEASUREMENTS (R416),
what precedes already, and the number of the session that it belongs to (0 none). -/
structure Unsigned where
  code : Nat
  op : Nat := 0
  first : List Byte := []
  session : Nat := 0
  deriving DecidableEq, Repr

/-- The SPDM responder (R414 to R416, R420): how far the connection has come and its messages, the session by its number
(0 none), and whether its FINISH was good. -/
structure Spdm where
  version : Bool := false
  caps : Bool := false
  algs : Bool := false
  /-- The messages that made the connection: version, capabilities and algorithms. -/
  vca : List Byte := []
  session : Nat := 0
  /-- The handshake secret of the session (R415). -/
  secret : List Byte := []
  /-- The transcript of the session, from its connection to KEY_EXCHANGE_RSP, and its hashes TH1 and TH2 (R415, log 108). -/
  transcript : List Byte := []
  th1 : List Byte := []
  th2 : List Byte := []
  /-- Responses sealed, and requests opened, under the keys in use. -/
  sealed : Nat := 0
  opened : Nat := 0
  finished : Bool := false
  unsigned : List Unsigned := []
  /-- Responses sent, oldest first: response code and contents. -/
  sent : List (Nat × List Byte) := []
  deriving DecidableEq, Repr

/-- A request of this package to another (R351 to R354): where it goes, the forwardings that it has met (R361), and the
virtual address that its failure or its forwarding reports. -/
structure Sent where
  pkg : Nat
  forwards : Nat := 0
  va : Word
  req : RemoteRequest
  deriving DecidableEq, Repr

/-- What an operation does (R249, R275, R303, R352): one constructor for each kind. -/
inductive Work where
  /-- CPY (R254): F, source, destination, the length word, row and plane strides. -/
  | copy (f : Nat) (src dst len rows planes : Word)
  /-- CPYP (R256): F, address, stride, the shape word. -/
  | planes (f : Nat) (src stride shape : Word)
  /-- GATH and SCAT (R257): memory base, packed rows, index list, shape, stride. -/
  | gather (scatter : Bool) (base packed index shape stride : Word)
  /-- PUSH.m and PUSH.s (R260): pipe, slot, memory or scratchpad, address. -/
  | push (pipe n : Nat) (mem : Bool) (a : Word)
  /-- POP.m and POP.s (R260). -/
  | pop (pipe n : Nat) (mem : Bool) (a : Word)
  /-- MMA and MMAZ of one member (R275, R286): its maps, its first row of the block, and the number of the array's
  operation. -/
  | matrix (zero : Bool) (a b : OperandMap) (row : Nat) (number : Nat)
  /-- ACCZ (R279): first row of the block, rows, and the number of the array's operation. -/
  | clearRows (row rows : Nat) (number : Nat)
  /-- COUT (R312): tree, destination, first leaf, count and depth. -/
  | copyOut (tree dst x0 shape : Word)
  /-- CNEW whose record cannot be reached yet (R309): record, name and depth. -/
  | newRoot (a name : Word) (depth : Nat)
  /-- An operation that has been performed or has failed, and whose completion is still to be seen (R303). -/
  | settled (fail : Option (Nat × Word))
  /-- VPIN and VUNPIN that wait for their record (R320, R324): page, step. -/
  | pin (page step : Nat) (down : Bool)
  /-- QCONT (R339): source, destination word, the clock of the last refusal while it waits to be sent again, and whether it has
  been sent at all (R364). -/
  | contribute (src dst : Word) (refused : Option Nat) (sent : Bool)
  /-- QREAD (R341): destination, selector and slot key. -/
  | readResult (dst sel : Word) (slot : Nat)
  /-- Requests to other packages (R351 to R354). -/
  | remote (rs : List Sent)
  /-- PUTSIG before its flag is sent (R354): source, destination, length, flag address, operand, add; the payload bytes that
  have been sent, their requests that are not yet acknowledged, and the flag's request once it has its number. -/
  | putsig (src dst len flag val : Word) (add : Bool) (off : Nat) (rs : List Sent) (last : Option Sent)
  deriving DecidableEq, Repr

/-- An asynchronous operation (R246 to R252); class 4 marks a request that belongs to no batch. -/
structure Op where
  core : Nat
  key : Nat
  uid : Nat
  ctx : Nat
  block : Nat
  part : Nat
  launch : Nat
  cls : Nat
  batch : Nat
  issue : Word
  work : Work
  /-- ACLK of its first sending, and the miss it waits for. -/
  since : Nat
  miss : Option Nat := none
  /-- The page, by its virtual number, whose miss the supervisor could not serve (R384). -/
  unserved : Option Nat := none
  /-- The fault that fails it once what it has sent is acknowledged (R354). -/
  fault : Option (Nat × Word) := none
  deriving DecidableEq, Repr

/-- A message of this package to another (R320, R327, R339, R356). -/
structure Message where
  dest : Nat
  kind : Nat
  gctx : Nat
  args : List Word
  deriving DecidableEq, Repr

/-- The health counters (R427): the groups in nonvolatile storage, the clock of their last update, LINKRT, FABREPLAY, the
sum of SLIPS and the poisoned slices never read as last copied, updates committed, rollbacks, gating entries and aborted
gating entries since, the marked lines that scrubbing has counted, and the poisoned slices never read of teams that are gone. -/
structure Health where
  groups : Table (List Word) := []
  updatedAt : Nat := 0
  seen : List Word := [0, 0, 0, 0]
  unread : Nat := 0
  tally : List Word := [0, 0, 0, 0]
  counted : List Nat := []
  deriving DecidableEq, Repr

/-- What the outside world or the scheduler does next (log 2). -/
inductive Happening where
  /-- A step without an encoding. -/
  | event (i : Instr) (d : Detail)
  /-- One word of the team or thread with this key. -/
  | issue (k : Nat)
  /-- ACLK that pass. -/
  | wait (n : Nat)
  deriving DecidableEq, Repr

/-- One HZ-SP256 package. -/
structure State where
  agenda : List Happening
  /-- The operands of the step without an encoding that is being made. -/
  detail : Detail
  actor : Nat
  turn : Nat
  fresh : Nat
  serial : Nat
  /-- ACLK since reset; FCLK runs at twice its rate (R7). -/
  clock : Nat
  teams : Table Team
  cores : Table Core
  blocks : Table Block
  quads : Table Quad
  tlb : Table (List TlbEntry)
  ctxs : Table Context
  parts : Table Partition
  cellars : Table Cellar
  mem : Memory
  /-- Descriptors that are not 0, by physical line (R164). -/
  descs : Table (BitVec 16)
  /-- Lines marked uncorrectable: in their data, in their descriptor (R443, R442). -/
  bad : Table (Bool × Bool)
  /-- The key a 16-byte block was last written under; a block never written is not listed (R393). -/
  keyTags : Table Nat
  owners : Table Nat
  pgown : Nat
  flights : Table Flight
  pendings : Table Pending
  ops : Table Op
  misses : Table Miss
  evq : EventQueue
  slots : Table Slot
  /-- The thread of each die's control core that issued last, by its key: the two issue in turn (R395). -/
  lastThread : List Nat
  syssel : List Word
  lqsel : List Nat
  digests : List Digest
  launches : Table Launch
  lease : Lease
  links : Table Link
  fabto : Word
  linkrt : Word
  fabreplay : Word
  pkgnum : Nat
  pbeat : Word
  beatAt : Nat
  cscoll : Word
  messages : List Message
  heard : List Heard
  /-- Requests that wait for earlier-numbered ones of their team and line (R356). -/
  held : List RemoteRequest
  /-- PUTSIGs of other packages whose flags are still to come (R354). -/
  signals : List Signal
  /-- Answers to the contributions of other packages (R339, R364). -/
  verdicts : List Verdict
  /-- Pages of this package that have migrated (R361): a CXL pool or a package, its number, and the address of the page there. -/
  moved : Table (Bool × Nat × Nat)
  sentSeq : Table Nat
  update : Update
  imageA : ImageSlot
  imageB : ImageSlot
  rollback : Nat
  mailbox : Mailbox
  /-- The completion of the last host access (R421). -/
  hostReply : HostReply
  transfer : Option Transfer
  spdm : Spdm
  health : Health
  deriving DecidableEq, Repr

/-- Why a step stops with a fault. -/
inductive Fault where
  /-- Raised by exec where the acting team or thread does not exist: the manual has no instruction without an issuer, and
  step never meets it. Safe: the machine stops. -/
  | noIssuer
  deriving DecidableEq, Repr

/-- Why an instruction is refused. -/
inductive Refusal where
  /-- Raised by Dispatch for an instruction whose meaning is not written. Safe: the machine stops. -/
  | notModelled (mnemonic : String)
  deriving DecidableEq, Repr

/-- The key of a die's system thread. -/
def sysKey (die : Nat) : Nat := 16384 + 2 * die

/-- The key of a die's prologue thread. -/
def proKey (die : Nat) : Nat := 16385 + 2 * die

/-- A control-core thread after reset (R395, R439): scalars zero, loops closed. -/
def Team.thread (uid : Nat) (role : Role) (level : Nat) (w : Wait) : Team :=
  { uid := uid, ctx := 0, part := 0, launch := 0, record := 0, pos := 0, block := 0, leader := 0, role := role,
    level := level, width := 0, vdecl := 0, pdecl := 0, pc := 0, live := 0, active := 0, x := [], dsbase := 0,
    wait := w, stamp := 0 }

/-- The package right after a cold reset (R99, R145, R245, R291, R317, R345, R368, R373, R394, R411, R428): every field
at the reset value of its rule; where the manual gives none, at the value that INVENTORY.md names (log 4, 5). -/
def State.reset : State where
  agenda := []
  detail := .nothing
  actor := sysKey 0
  turn := 0
  fresh := 0
  serial := 9
  clock := 0
  teams := [(sysKey 0, Team.thread 1 .system 2 .ready), (proKey 0, Team.thread 2 .prologue 0 .idle),
    (sysKey 1, Team.thread 3 .system 2 .ready), (proKey 1, Team.thread 4 .prologue 0 .idle),
    (sysKey 2, Team.thread 5 .system 2 .ready), (proKey 2, Team.thread 6 .prologue 0 .idle),
    (sysKey 3, Team.thread 7 .system 2 .ready), (proKey 3, Team.thread 8 .prologue 0 .idle)]
  cores := []
  blocks := []
  quads := []
  tlb := []
  ctxs := []
  parts := []
  cellars := []
  mem := []
  descs := []
  bad := []
  keyTags := []
  owners := []
  pgown := 0
  flights := []
  pendings := []
  ops := []
  misses := []
  evq := {}
  slots := []
  lastThread := [sysKey 0, sysKey 1, sysKey 2, sysKey 3]
  syssel := [0, 0, 0, 0]
  lqsel := [0, 0, 0, 0]
  digests := [{}, {}, {}, {}]
  launches := []
  lease := {}
  links := []
  fabto := 12000000
  linkrt := 0
  fabreplay := 0
  pkgnum := 0
  pbeat := 1200000
  beatAt := 0
  cscoll := 0
  messages := []
  heard := []
  held := []
  signals := []
  verdicts := []
  moved := []
  sentSeq := []
  update := {}
  imageA := { verified := true }
  imageB := {}
  rollback := 0
  mailbox := {}
  hostReply := .nothing
  transfer := none
  spdm := {}
  health := {}

end Sys2Proof.Machine
end

