-- ==== Sys2Proof/Machine/Memory.lean ====
section
/-! DEFINITION. Physical memory, its descriptors and keys, page tables and the translation unit, and the L1 of a core. -/

namespace Sys2Proof.Machine

/-! ### Physical addresses (R190) -/

/-- The window of a die's near DRAM is 64 GiB. -/
def dieWindow : Nat := 0x1000000000

/-- Near DRAM that page tables may map, of any die (R190). -/
def isNear (pa : Nat) : Bool := Nat.blt pa (4 * dieWindow) && Nat.blt (pa % dieWindow) 0xB80000000

/-- The firmware-reserved part of near DRAM, of any die (R190). -/
def isReserved (pa : Nat) : Bool :=
  Nat.blt pa (4 * dieWindow) && Nat.ble 0xB80000000 (pa % dieWindow) && Nat.blt (pa % dieWindow) 0xC00000000

/-- Far memory (R190). -/
def isFar (pa : Nat) : Bool := Nat.ble 0x10000000000 pa && Nat.blt pa 0x18000000000

/-- CXL memory (R190). -/
def isCxl (pa : Nat) : Bool := Nat.ble 0x8000000000000 pa && Nat.blt pa 0x10000000000000

/-- Device memory that page tables may map. -/
def isDevice (pa : Nat) : Bool := isNear pa || isFar pa

/-- A populated range outside the firmware-reserved parts (R190). -/
def isOpen (pa : Nat) : Bool := isDevice pa || isCxl pa

/-- A populated range (R190). -/
def isPopulated (pa : Nat) : Bool := isOpen pa || isReserved pa

/-- The die whose L2 slices home a line of device memory (R189, log 26). -/
def homeDie (pa : Nat) : Nat := if isFar pa then (Config.farHome (pa / 64)).val else pa / dieWindow % 4

/-! ### Keys and cells (R392, R393) -/

/-- A context's state, all at reset where the number was never used. -/
def State.ctx (s : State) (c : Nat) : Context := Table.getD s.ctxs c {}

/-- The context is live on this package: from its creation until it is killed or its key is destroyed (R346). -/
def Context.live (x : Context) : Bool := x.alive && x.key.isSome

/-- Sets a context's state. -/
def State.putCtx (s : State) (c : Nat) (x : Context) : State := { s with ctxs := Table.put s.ctxs c x }

/-- The owner of the 64 KiB page of a physical address (R393). -/
def State.owner (s : State) (pa : Nat) : Nat := Table.getD s.owners (pa / 65536) 0

/-- The identity of the key that the owner of a page uses; 0 is the supervisor's (R393). -/
def State.keyAt (s : State) (pa : Nat) : Nat :=
  match s.owner pa with
  | 0 => 0
  | c => match (s.ctx c).key with
    | some k => k
    | none => 0

/-- The byte of a cell as stored. -/
def State.cell (s : State) (pa : Nat) : Byte := Table.getD s.mem pa 0

/-- A byte of physical memory, under the key of its page's owner; a block written under another key reads as bytes that
carry no meaning (R393, log 16); memory never written reads 0 (log 4). -/
def State.byte (s : State) (pa : Nat) : Byte :=
  if isCxl pa then s.cell pa else
  match Table.find? s.keyTags (pa / 16) with
  | none => s.cell pa
  | some k => if k == s.keyAt pa then s.cell pa else Config.garble k (s.keyAt pa) pa (s.cell pa)

/-- Sets a cell, keeping memory canonical. -/
def Memory.setByte (m : Memory) (pa : Nat) (b : Byte) : Memory :=
  if b == 0 then Table.del m pa else Table.put m pa b

/-- Makes a block one of the page owner's key: its bytes keep the values they read as (R393). -/
def State.rekey (s : State) (blk : Nat) : State :=
  if isCxl (16 * blk) then s else
  match Table.find? s.keyTags blk with
  | none => { s with keyTags := Table.put s.keyTags blk (s.keyAt (16 * blk)) }
  | some k =>
    if k == s.keyAt (16 * blk) then s else
    { s with
      mem := (List.range 16).foldl (fun m i => Memory.setByte m (16 * blk + i) (s.byte (16 * blk + i))) s.mem
      keyTags := Table.put s.keyTags blk (s.keyAt (16 * blk)) }

/-- Writes one byte of physical memory under the key of its page's owner (R393). -/
def State.setByte (s : State) (pa : Nat) (b : Byte) : State :=
  let s' := s.rekey (pa / 16)
  { s' with mem := Memory.setByte s'.mem pa b }

/-- n bytes from an address, lowest first. -/
def State.bytes (s : State) (pa n : Nat) : List Byte := (List.range n).map fun i => s.byte (pa + i)

/-- Bytes as a little-endian number (R2). -/
def ofBytes : List Byte → Nat
  | [] => 0
  | b :: bs => b.toNat + 256 * ofBytes bs

/-- The n low bytes of a number, lowest first. -/
def toBytes : Nat → Nat → List Byte
  | 0, _ => []
  | n + 1, v => BitVec.ofNat 8 v :: toBytes n (v / 256)

/-- A doubleword of physical memory. -/
def State.dword (s : State) (pa : Nat) : Word := BitVec.ofNat 64 (ofBytes (s.bytes pa 8))

/-! ### Lines and descriptors (R164, R165, R443) -/

/-- The descriptor of the line of an address. -/
def State.desc (s : State) (pa : Nat) : BitVec 16 := Table.getD s.descs (pa / 64) 0

/-- Sets the descriptor of the line of an address; CXL lines carry none. -/
def State.setDesc (s : State) (pa : Nat) (d : BitVec 16) : State :=
  if isCxl pa then s else
  { s with descs := if d == 0 then Table.del s.descs (pa / 64) else Table.put s.descs (pa / 64) d }

/-- The line's data is marked uncorrectable (R443), or no decoder maps its address in CXL memory: an access completes with the
same error (R190). -/
def State.badData (s : State) (pa : Nat) : Bool :=
  (Table.getD s.bad (pa / 64) (false, false)).1 || (isCxl pa && !Config.cxlMapped (pa / 64))

/-- The line's descriptor is marked uncorrectable (R442). -/
def State.badDesc (s : State) (pa : Nat) : Bool := (Table.getD s.bad (pa / 64) (false, false)).2

/-- Byte i of a line's data. -/
def lineByte (d : BitVec 512) (i : Nat) : Byte := d.extractLsb' (8 * i) 8

/-- A line's data from its bytes. -/
def lineOf (bs : List Byte) : BitVec 512 := BitVec.ofNat 512 (ofBytes bs)

/-- The 64 bytes of a line at its home. -/
def State.lineData (s : State) (pa : Nat) : BitVec 512 := lineOf (s.bytes (64 * (pa / 64)) 64)

/-- Marks the data or the descriptor of a line as uncorrectable, or neither. -/
def State.setBad (s : State) (line : Nat) (data desc : Bool) : State :=
  { s with bad := if data || desc then Table.put s.bad line (data, desc) else Table.del s.bad line }

/-- A write performed at the home of a line: the bytes that the mask names. One that replaces all 64 bytes writes the descriptor
afresh, KIND 0 unless its form writes another, and ends an error of the data or of the descriptor. Any other write leaves the
descriptor and the marks (R165, R442, R443). -/
def State.homeWrite (s : State) (line : Nat) (mask : BitVec 64) (data : BitVec 512) (d : Option (BitVec 16)) : State :=
  let s1 := (List.range 64).foldl
    (fun (a : State) i => if mask.getLsbD i then a.setByte (64 * line + i) (lineByte data i) else a) s
  if mask == BitVec.allOnes 64 then (s1.setDesc (64 * line) (d.getD 0)).setBad line false false
  else s1

/-- The mask and data of the bytes of a run that fall into one line. -/
def runInLine (pa : Nat) (bs : List Byte) (line : Nat) : BitVec 64 × BitVec 512 :=
  let lo := 64 * line
  ((List.range 64).foldl (fun m i => if Nat.ble pa (lo + i) && Nat.blt (lo + i) (pa + bs.length)
      then m ||| (1#64 <<< i) else m) 0,
   lineOf ((List.range 64).map fun i => if Nat.ble pa (lo + i) then bs.getD (lo + i - pa) 0 else 0))

/-- A run of bytes written at its homes, line by line. -/
def State.homeWriteRun (s : State) (pa : Nat) (bs : List Byte) (d : Option (BitVec 16)) : State :=
  match bs with
  | [] => s
  | _ => (List.range ((pa + bs.length - 1) / 64 - pa / 64 + 1)).foldl (fun (a : State) i =>
      let r := runInLine pa bs (pa / 64 + i)
      a.homeWrite (pa / 64 + i) r.1 r.2 d) s

/-- Some line of a run is marked uncorrectable. -/
def State.badRun (s : State) (pa n : Nat) : Bool :=
  (List.range ((pa + n - 1) / 64 - pa / 64 + 1)).any fun i => s.badData (pa + 64 * i)

/-! ### Page tables (R381 to R383) -/

/-- What a walk finds. -/
inductive Walk where
  /-- A leaf: base and size of its page. -/
  | leaf (base size : Nat) (e : Word)
  | miss
  | bad
  deriving DecidableEq, Repr

/-- Bits of a number. -/
def bitsOf (w : Word) (lo n : Nat) : Nat := w.toNat / 2 ^ lo % 2 ^ n

/-- Size of the page that a leaf at a level maps (R381). -/
def pageSize : Nat → Nat
  | 0 => 65536
  | 1 => 0x200000
  | _ => 0x40000000

/-- A leaf is well formed at its level (R382, R383 step 2). -/
def leafOk (level : Nat) (e : Word) : Bool :=
  let cls := bitsOf e 6 3
  Nat.ble level 2 && Nat.blt cls 5 && bitsOf e 9 7 == 0 &&
  if cls == 2 || cls == 3 then level == 0 && bitsOf e 56 8 == 0
  else bitsOf e 52 12 == 0 && bitsOf e 16 36 * 65536 % pageSize level == 0 && isOpen (bitsOf e 16 36 * 65536) &&
    isOpen (bitsOf e 16 36 * 65536 + pageSize level - 1)

/-- A table entry is well formed at its level (R382, R383 step 2). -/
def tableOk (level : Nat) (e : Word) : Bool :=
  Nat.blt 0 level && bitsOf e 2 6 == 0 && bitsOf e 52 12 == 0 &&
    (level == 1 || bitsOf e 8 4 == 0) && isOpen (bitsOf e 8 44 * 256)

/-- A walk from the table of a level (R381, R383). -/
def State.walkFrom (s : State) (table va : Nat) : Nat → Walk
  | 0 =>
    let e := s.dword (table + 8 * (va / 65536 % 32))
    if !e.getLsbD 0 then .miss
    else if e.getLsbD 1 && leafOk 0 e then .leaf (va / 65536 * 65536) 65536 e else .bad
  | n + 1 =>
    let e := s.dword (table + 8 * (va / 2 ^ (21 + 9 * n) % 512))
    if !e.getLsbD 0 then .miss
    else if e.getLsbD 1 then
      if leafOk (n + 1) e then .leaf (va / pageSize (n + 1) * pageSize (n + 1)) (pageSize (n + 1)) e else .bad
    else if tableOk (n + 1) e then s.walkFrom (bitsOf e 8 44 * 256) va n else .bad

/-- A canonical 57-bit address: bits [63:57] equal bit 56 (R200). -/
def canonical (a : Word) : Bool := bitsOf a 56 8 == 0 || bitsOf a 56 8 == 255

/-- The 57 significant bits of an address. -/
def sig57 (a : Word) : Nat := a.toNat % 2 ^ 57

/-- The walk of a context's page table for an address (R381). -/
def State.walk (s : State) (c va : Nat) : Walk :=
  let root := (s.ctx c).ptroot.toNat
  if isOpen root then s.walkFrom root va 4 else .bad

/-- The page that a leaf gives an address (R382). -/
def leafPage (e : Word) (base va : Nat) : Page :=
  let cls := bitsOf e 6 3
  { rd := e.getLsbD 2, wr := e.getLsbD 3, ex := e.getLsbD 4, usr := e.getLsbD 5, cls := cls
    pa := (if cls == 2 || cls == 3 then bitsOf e 16 24 else bitsOf e 16 36) * 65536 + (va - base)
    pkg := if cls == 2 || cls == 3 then bitsOf e 40 16 else 0 }

/-- The page of a leaf belongs to the context, in each 64 KiB of it, where it maps device memory (R383 step 3, R393). -/
def State.owns (s : State) (c base size : Nat) : Bool :=
  !isDevice base ||
    (s.owners.filter fun o => Nat.ble (base / 65536) o.1 && Nat.blt o.1 ((base + size) / 65536) && o.2 == c).length
      == size / 65536

/-- What translation answers to an access. -/
inductive Translation where
  | page (p : Page)
  /-- Cause 16, 17 or 23. -/
  | cause (c : Nat)
  deriving DecidableEq, Repr

/-- What an access needs of its page: a read, a write or a fetch, at user level or not. -/
structure Need where
  rd : Bool := false
  wr : Bool := false
  ex : Bool := false
  user : Bool := true
  deriving DecidableEq, Repr

/-- The permissions of a page allow an access (R383 step 3). -/
def Page.allows (p : Page) (n : Need) : Bool :=
  (!n.rd || p.rd) && (!n.wr || p.wr) && (!n.ex || p.ex) && (!n.user || p.usr)

/-- The entry of a die's TLB that translates an address (R8, log 13). -/
def State.tlbFind (s : State) (die c va : Nat) : Option TlbEntry :=
  (Table.getD s.tlb die []).find? fun e => e.ctx == c && Nat.ble e.base va && Nat.blt va (e.base + e.size)

/-- Translates an address in a die's translation unit (R192, R383). -/
def State.translate (s : State) (die c : Nat) (a : Word) (n : Need) : Translation :=
  if !canonical a then .cause 17 else
  let va := sig57 a
  let use := fun (base size : Nat) (e : Word) =>
    let p := leafPage e base va
    let q := leafPage e base base
    if !p.allows n then Translation.cause 17
    else if p.cls != 2 && p.cls != 3 && !s.owns c q.pa size then .cause 17 else .page p
  match s.tlbFind die c va with
  | some t => use t.base t.size t.leaf
  | none => match s.walk c va with
    | .leaf base size e => use base size e
    | .miss => .cause 16
    | .bad => .cause 23

/-- The TLB after a translation of an address: a walk that finds a leaf leaves it there. DESIGN CHOICE: where all 65,536 entries
are in use, the leaf that came first leaves (log 13). -/
def State.tlbFill (s : State) (die c : Nat) (a : Word) : State :=
  if !canonical a then s else
  match s.tlbFind die c (sig57 a) with
  | some _ => s
  | none => match s.walk c (sig57 a) with
    | .leaf base size e =>
      { s with tlb := Table.put s.tlb die (({ ctx := c, base := base, size := size, leaf := e } ::
          Table.getD s.tlb die []).take 65536) }
    | _ => s

/-! ### The L1 of a core (R188, R192) -/

/-- A core's state, as at reset where nothing has used the core. -/
def State.core (s : State) (c : Nat) : Core := Table.getD s.cores c {}

/-- Sets a core's state. -/
def State.putCore (s : State) (c : Nat) (x : Core) : State := { s with cores := Table.put s.cores c x }

/-- A byte of the home as a core reads it: its own writes on their way count (R214). -/
def State.byteFrom (s : State) (core pa : Nat) : Byte :=
  match (s.flights.reverse.find? fun f => f.2.core == core && f.2.pa == pa / 64 && f.2.mask.getLsbD (pa % 64)) with
  | some f => lineByte f.2.data (pa % 64)
  | none => s.byte pa

/-- The data of a line is uncorrectable as a core reads it: a whole line that it has sent on its way ends the error (R214,
R443). -/
def State.badFrom (s : State) (core pa : Nat) : Bool :=
  s.badData pa && !(s.flights.any fun f => f.2.core == core && f.2.pa == pa / 64 && f.2.mask == BitVec.allOnes 64)

/-- The line of a core's L1 that a context's address falls in. -/
def State.lineFind (s : State) (core c va : Nat) : Option Line :=
  (s.core core).lines.find? fun l => l.ctx == c && l.va == va / 64

/-- Sends the bytes of a line that the mask names to their home (R188). -/
def State.send (s : State) (core c line : Nat) (mask : BitVec 64) (data : BitVec 512)
    (d : Option (BitVec 16)) : State :=
  if mask == 0 then s else
  { s with
    flights := Table.put s.flights s.serial { core := core, ctx := c, pa := line, mask := mask, data := data, desc := d }
    serial := s.serial + 1 }

/-- Writes back the dirty bytes of a line (R188). -/
def State.writeBack (s : State) (core : Nat) (l : Line) : State := s.send core l.ctx l.pa l.dirty l.data (if l.raw then some 0 else none)

/-- Data lines a core's L1 has room for (R130, R188). -/
def Core.l1Room (x : Core) : Nat := 4096 - 64 * x.spillres

/-- Puts a line first in the L1's order of use, evicting the least recently used line where there is no room (R188). -/
def State.lineUse (s : State) (core : Nat) (l : Line) : State :=
  let rest := (s.core core).lines.filter fun m => !(m.ctx == l.ctx && m.va == l.va)
  if Nat.blt rest.length (s.core core).l1Room then s.putCore core { s.core core with lines := l :: rest } else
  match rest.getLast? with
  | some old => (s.writeBack core old).putCore core { s.core core with lines := l :: rest.dropLast }
  | none => s.putCore core { s.core core with lines := [l] }

/-- The mask of bytes o .. o + n - 1 of a line. -/
def byteMask (o n : Nat) : BitVec 64 := BitVec.ofNat 64 ((2 ^ n - 1) * 2 ^ o)

/-- A line's data with the bytes of a mask replaced. -/
def mergeLine (old new : BitVec 512) (mask : BitVec 64) : BitVec 512 :=
  lineOf ((List.range 64).map fun i => if mask.getLsbD i then lineByte new i else lineByte old i)

/-- A line filled from its home: every byte but the dirty ones (R188); ro marks it, where it holds no dirty byte (R142,
R202). -/
def State.filled (s : State) (core : Nat) (l : Line) (ro : Bool) : Line :=
  { l with
    valid := BitVec.allOnes 64
    data := lineOf ((List.range 64).map fun i =>
      if l.dirty.getLsbD i then lineByte l.data i else s.byteFrom core (64 * l.pa + i))
    ro := l.ro || (ro && l.dirty == 0) }

/-- A new line of a page, with no byte valid. -/
def newLine (c va : Nat) (p : Page) : Line :=
  { ctx := c, va := va / 64, pa := p.pa / 64, valid := 0, dirty := 0, data := 0, rd := p.rd, wr := p.wr, usr := p.usr,
    cls := p.cls }

/-! ### Lines of the spill areas (R72, R130) -/

/-- Puts a line first in the order of use of the reserved part of the L1; the line used longest ago is written back where
there is no room (R72, R130). -/
def State.reserveLine (s : State) (core : Nat) (l : Line) : State :=
  let rest := (s.core core).reserved.filter fun m => !(m.ctx == l.ctx && m.pa == l.pa)
  if Nat.blt rest.length (64 * (s.core core).spillres) then s.putCore core { s.core core with reserved := l :: rest } else
  match rest.getLast? with
  | some old => (s.writeBack core old).putCore core { s.core core with reserved := l :: rest.dropLast }
  | none => s.putCore core { s.core core with reserved := [l] }

/-- The line of a spill area as a core holds it: in the reserved part of its L1, or in the data part where it has none (R72). -/
def State.spillLine (s : State) (core c va : Nat) (p : Page) : Line :=
  (if (s.core core).spillres == 0 then s.lineFind core c va
   else (s.core core).reserved.find? fun l => l.ctx == c && l.pa == p.pa / 64).getD (newLine c va p)

/-- Puts a line of a spill area first in its part's order of use. -/
def State.spillUse (s : State) (core : Nat) (l : Line) : State :=
  if (s.core core).spillres == 0 then s.lineUse core l else s.reserveLine core l

/-- Writes bytes of one line of a spill area, with no fetch of the line (R72). -/
def State.spillWrite (s : State) (core c va : Nat) (p : Page) (bs : List Byte) : State :=
  let l := s.spillLine core c va p
  let m := byteMask (va % 64) bs.length
  s.spillUse core { l with
    valid := l.valid ||| m, dirty := l.dirty ||| m, ro := false
    data := mergeLine l.data (BitVec.ofNat 512 (ofBytes bs * 2 ^ (8 * (va % 64)))) m }

/-- Reads n bytes of one line of a spill area, filling the line where one of them is not valid (R72). -/
def State.spillRead (s : State) (core c va : Nat) (p : Page) (n : Nat) : State × List Byte :=
  let l := s.spillLine core c va p
  let m := byteMask (va % 64) n
  let l' := if l.valid &&& m == m then l else s.filled core l false
  (s.spillUse core l', (List.range n).map fun i => lineByte l'.data (va % 64 + i))

end Sys2Proof.Machine
end

