-- ==== Sys2Proof/Machine/Ops.lean ====
section
/-! DEFINITION. The named operations over the state: registers, the program counter and its loops, events of the supervisor
queue, taking a trap and killing a context, and the frame every meaning runs in. -/

namespace Sys2Proof.Machine

/-! ### Finding things -/

def State.team? (s : State) (k : Nat) : Option Team := Table.find? s.teams k
def State.putTeam (s : State) (k : Nat) (t : Team) : State := { s with teams := Table.put s.teams k t }
def State.block? (s : State) (b : Nat) : Option Block := Table.find? s.blocks b
def State.putBlock (s : State) (n : Nat) (b : Block) : State := { s with blocks := Table.put s.blocks n b }
def State.quad (s : State) (q : Nat) : Quad := Table.getD s.quads q {}
def State.putQuad (s : State) (q : Nat) (x : Quad) : State := { s with quads := Table.put s.quads q x }
def State.part (s : State) (p : Nat) : Partition := Table.getD s.parts p {}
def State.putPart (s : State) (p : Nat) (x : Partition) : State := { s with parts := Table.put s.parts p x }

/-- Changes a team, where it exists. -/
def State.modTeam (s : State) (k : Nat) (f : Team → Team) : State := { s with teams := Table.adjust s.teams k f }

/-- The key belongs to a core's team and not to a control-core thread. -/
def isCoreKey (k : Nat) : Bool := Nat.blt k 16384

/-- The core, the team index and the die of a key (R6). -/
def coreOf (k : Nat) : Nat := k / 64
def indexOf (k : Nat) : Nat := k % 64
def dieOf (k : Nat) : Nat := if isCoreKey k then k / 4096 else (k - 16384) / 2

/-- The partition of a core (R390). -/
def State.partOf (s : State) (core : Nat) : Nat := (s.quad (core / 4)).part

/-- The cores of a partition. -/
def State.coresOf (s : State) (p : Nat) : List Nat :=
  (s.quads.filter fun q => q.2.part == p).flatMap fun q => [4 * q.1, 4 * q.1 + 1, 4 * q.1 + 2, 4 * q.1 + 3]

/-! ### Registers -/

/-- A scalar register; s0 reads zero (R103). -/
def Team.s (t : Team) (r : BitVec 5) : Word := if r == 0 then 0 else Table.getD t.sr r.toNat 0

/-- Writes a scalar register; s0 ignores it (R103). -/
def Team.setS (t : Team) (r : BitVec 5) (w : Word) : Team :=
  if r == 0 then t else { t with sr := Table.put t.sr r.toNat w }

/-- A vector register; one never written reads zero (R126). -/
def Team.vreg (t : Team) (r : Nat) : Lanes := Table.getD t.v r []

/-- A lane of a register. -/
def Team.lane (t : Team) (r l : Nat) : Word := (t.vreg r).getD l 0

/-- Mask words of the team (R17). -/
def Team.rows (t : Team) : Nat := t.width / 32

/-- The lanes of a mask word. -/
def rowBits (m : Mask) (k : Nat) : BitVec 32 := m.extractLsb' (32 * k) 32

/-- The mask words whose summary bit is 1, ascending (R18, R19). -/
def Team.passes (t : Team) : List Nat := (List.range t.rows).filter fun k => rowBits t.active k != 0

/-- The lanes set in a mask, ascending. -/
def lanesOf (m : Mask) (w : Nat) : List Nat := (List.range w).filter fun l => m.getLsbD l

/-- Writes lanes of a vector register; the others keep their values (R19, R125). -/
def Team.setLanes (t : Team) (r : Nat) (m : Mask) (f : Nat → Word) : Team :=
  { t with v := Table.put t.v r ((List.range t.width).map fun l => if m.getLsbD l then f l else t.lane r l) }

/-- A predicate in every lane of the team; p0 reads true (R103). -/
def Team.pred (t : Team) (n : Nat) : Mask := if n == 0 then BitVec.allOnes 1024 else Table.getD t.p n 0

/-- Writes lanes of a predicate; p0 ignores it (R103). -/
def Team.setPred (t : Team) (n : Nat) (m val : Mask) : Team :=
  if n == 0 then t else { t with p := Table.put t.p n ((t.pred n &&& ~~~m) ||| (val &&& m)) }

/-- The lanes whose guard is true (R45). -/
def Team.guard (t : Team) (g : BitVec 4) : Mask :=
  let p := t.pred (g.extractLsb' 0 3).toNat
  if g.getLsbD 3 then ~~~p else p

/-- The active lanes whose guard is true (R102). -/
def Team.takers (t : Team) (g : BitVec 4) : Mask := t.active &&& t.guard g

/-- A new mask from a test of each lane. -/
def maskOf (w : Nat) (f : Nat → Bool) : Mask :=
  (List.range w).foldl (fun m l => if f l then m ||| (1#1024 <<< l) else m) 0

/-- All lanes of a team of width w. -/
def fullMask (w : Nat) : Mask := BitVec.ofNat 1024 (2 ^ w - 1)

/-- Sets sticky flags (R149). -/
def Team.flag (t : Team) (f : BitVec 6) : Team := { t with nflags := t.nflags ||| f }

/-- The poison of a slice (R205). -/
def Team.poisonOf (t : Team) (r row : Nat) : Option Poison := t.poison.find? fun p => p.reg == r && p.row == row

/-- Forgets the poison of the slices of a register in the mask words that a write fills whole, and counts those that nothing
has read (R205, R427). -/
def Team.cleanse (t : Team) (r : Nat) (m : Mask) : Team :=
  let covers := fun (p : Poison) => p.reg == r && rowBits m p.row == BitVec.allOnes 32
  { t with
    poison := t.poison.filter fun p => !covers p
    unread := t.unread + (t.poison.filter fun p => covers p && !p.read).length }

/-- Writes lanes as a pass does: a slice written whole is no longer poisoned (R125, R205). -/
def Team.writeV (t : Team) (r : Nat) (m : Mask) (f : Nat → Word) : Team := (t.setLanes r m f).cleanse r m

/-- The first poisoned source slice that an executed pass reads: pass and mark (R205). -/
def Team.poisonRead (t : Team) (regs : List Nat) : Option (Nat × Poison) :=
  t.passes.findSome? fun k => regs.findSome? fun r => (t.poisonOf r k).map fun p => (k, p)

/-! ### Events of the supervisor queue (R386, R387) -/

/-- Wakes the threads that wait for an event or a doorbell (R380). -/
def State.ring (s : State) : State :=
  { s with teams := Table.mapVals s.teams fun _ t => if t.wait == .doorbell then { t with wait := .ready } else t }

/-- The queue is full (R387). -/
def EventQueue.full (q : EventQueue) : Bool := (q.tail + 1) % q.size == q.head

/-- Writes an event at the tail and advances it (R386). -/
def State.writeEvent (s : State) (e : Event) : State :=
  let dw0 := e.kind + 256 * e.cause + 2 ^ 16 * e.ctx + 2 ^ 32 * (s.evq.next % 2 ^ 32)
  let at_ := s.evq.base.toNat % 2 ^ 52 + 32 * s.evq.tail
  let s1 := s.homeWriteRun at_ (toBytes 8 dw0 ++ toBytes 8 e.addr.toNat ++ toBytes 8 e.data.toNat ++
    toBytes 8 e.source.toNat) (some 0)
  let s2 := { s1 with evq := { s1.evq with tail := (s1.evq.tail + 1) % s1.evq.size, next := (s1.evq.next + 1) % 2 ^ 32 } }
  let s3 := match e.miss with
    | some id => { s2 with misses := Table.adjust s2.misses id fun m => { m with seq := some (s.evq.next % 2 ^ 32) } }
    | none => s2
  s3.ring

/-- Posts an event: one that finds the queue full waits if it is TMISS, CTXKILLED, MCHK or SUPFAULT and is dropped and
counted otherwise (R387). -/
def State.post (s : State) (e : Event) : State :=
  if s.evq.full then
    if e.kind == 1 || e.kind == 3 || e.kind == 4 || e.kind == 8 then
      { s with evq := { s.evq with waiting := s.evq.waiting ++ [e] } }
    else { s with evq := { s.evq with lost := s.evq.lost + 1 } }
  else s.writeEvent e

/-- Writes the events that wait, as far as there is room (R387). -/
def State.drainEvents (s : State) : State :=
  s.evq.waiting.foldl (fun (a : State) _ =>
    match a.evq.waiting with
    | e :: rest => if a.evq.full then a else { a with evq := { a.evq with waiting := rest } }.writeEvent e
    | [] => a) s

/-- SOURCE of an event for a team (R386). -/
def sourceOf (k part : Nat) : Word :=
  if isCoreKey k then BitVec.ofNat 64 (k / 4096 + 4 * (k / 64 % 64) + 256 * (k % 64) + 65536 * part)
  else BitVec.ofNat 64 (dieOf k)

/-- The PTEBAD event of a malformed entry (R383). -/
def State.pteBad (s : State) (k c : Nat) (a : Word) (part : Nat) : State :=
  s.post { kind := 2, cause := 23, ctx := c, addr := a, data := 0, source := sourceOf k part }

/-! ### Leaving a run, loops and the program counter -/

/-- The team of a core's issue run: of its scheduler, or of its affine engine (R63, R266). -/
def Core.runOf (x : Core) (affine : Bool) : Option Nat := if affine then x.affineTeam else x.runTeam

/-- Issues of that run. -/
def Core.issuesOf (x : Core) (affine : Bool) : Nat := if affine then x.affineCount else x.runCount

/-- Sets that run. -/
def Core.setRun (x : Core) (affine : Bool) (k : Option Nat) (n : Nat) : Core :=
  if affine then { x with affineTeam := k, affineCount := n } else { x with runTeam := k, runCount := n }

/-- A loader-role team: it issues from the affine engine (R265, R266). -/
def State.isLoader (s : State) (k : Nat) : Bool :=
  match s.team? k with
  | some t => t.role == .loader
  | none => false

/-- Ends an issue run of a core: its team's age stamp becomes the present ACLK (R63). -/
def State.endRun (s : State) (core : Nat) (affine : Bool) : State :=
  match (s.core core).runOf affine with
  | some k => (s.modTeam k fun t => { t with stamp := s.clock }).putCore core ((s.core core).setRun affine none 0)
  | none => s

/-- The run of a team ends, where it has one: it is not ready in the next ACLK, or it leaves the core (R63, R95). -/
def State.endOwnRun (s : State) (k : Nat) : State :=
  if isCoreKey k && (s.core (coreOf k)).runOf (s.isLoader k) == some k then s.endRun (coreOf k) (s.isLoader k) else s

/-- A team's run begins with the first word that it issues; another team's run ends (R63). A loader-role team issues from the
affine engine, whose runs are its own (R265, R266). -/
def State.beginRun (s : State) (k : Nat) : State :=
  let c := coreOf k
  let a := s.isLoader k
  if !isCoreKey k || (s.core c).runOf a == some k then s
  else (s.endRun c a).putCore c (((s.endRun c a).core c).setRun a (some k) 0)

/-- Counts an issue of a team in its run (R63, R65). -/
def State.countIssue (s : State) (k : Nat) : State :=
  if !isCoreKey k then s else
  let c := coreOf k
  let s1 := s.beginRun k
  s1.putCore c ((s1.core c).setRun (s.isLoader k) (some k) ((s1.core c).issuesOf (s.isLoader k) + 1))

/-- The back-edges taken when the chain that holds the word at an address completes (R90). -/
def backEdges (at_ : Word) : List LoopLevel → Word → List LoopLevel × Word × Bool
  | [], pc => ([], pc, false)
  | l :: rest, pc =>
    if l.last == at_ then
      if Nat.blt 1 l.count then ({ l with count := l.count - 1 } :: rest, l.first, true)
      else backEdges at_ rest (l.last + 4)
    else (l :: rest, pc, false)

/-- Completes a chain whose last word stands at an address: back-edges, unless loop state is frozen in a handler (R90,
R372). A back-edge leaves the packet (R40). -/
def Team.endChain (t : Team) (at_ : Word) : Team :=
  if t.trap.inh then { t with chained := false } else
  match backEdges at_ t.loops t.pc with
  | (ls, pc, tk) => { t with
      loops := ls, pc := pc, target := t.target || tk, chained := false, inPacket := t.inPacket && !tk }

/-- The levels left open by a transfer to an address (R91). -/
def loopsAfter (pc : Word) : List LoopLevel → List LoopLevel
  | [] => []
  | l :: rest => if l.first.ule pc && pc.ule l.last then l :: rest else loopsAfter pc rest

/-- A transfer of control (R91): levels whose body does not hold the new PC end, unless loop state is frozen (R372). The word
that it goes to is a target (R37), LBRK, JOIN and the unwind step included (log 29), and its packet is entered anew (R40). -/
def Team.transfer (t : Team) (pc : Word) : Team :=
  { t with
    pc := pc, target := true, chained := false, inPacket := false, resume := 0, phase := 0, raised := none, lost := none
    loops := if t.trap.inh then t.loops else loopsAfter pc t.loops }

/-- Word 0 of a packet is at the address (R32). -/
def packetStart (a : Word) : Bool := a.toNat % 12 == 0

/-- Goes past a word, and a literal word after it (len 2): the rest of the chain follows where C is 1 (R33, R38, R52). A
packet ends where the next word is word 0 of another (R32). -/
def Team.advance (t : Team) (c : Bool) (len : Nat) : Team :=
  let pc := t.pc + BitVec.ofNat 64 (4 * len)
  let t' := { t with pc := pc, inPacket := !packetStart pc, target := false, resume := 0, phase := 0, raised := none }
  if c then { t' with chained := true } else t'.endChain (t.pc + BitVec.ofNat 64 (4 * (len - 1)))

/-! ### The slice store (R124 to R131) -/

/-- The 32 lanes of a slice (R121). -/
def Team.slice (t : Team) (r row : Nat) : Lanes := (List.range 32).map fun i => t.lane r (32 * row + i)

/-- The wait is a park, by an entry of the porch, and no stall (R22, R24). -/
def Wait.parks : Wait → Bool
  | .miss _ | .reply _ | .version _ _ | .fetch _ _ | .step | .barrier _ _ | .batch _ _ | .pipe _ | .latch _ | .slot _ _ => true
  | _ => false

/-- The key of an architectural slice of a team among the names of its core. -/
def sliceKey (k r row : Nat) : Nat := 8192 * indexOf k + 32 * r + row

/-- The name of the physical slice that an architectural slice maps to; 0 the zero slice (R126). -/
def State.nameOf (s : State) (k r row : Nat) : Nat := Table.getD (s.core (coreOf k)).names (sliceKey k r row) 0

/-- Physical slices in use on a core that are not in the spill area. -/
def Core.resident (x : Core) : Nat := (x.slices.filter fun y => y.place.isNone).length

/-- The value of a slice by its name. -/
def Core.sliceVal (x : Core) (id : Nat) : Lanes :=
  match x.slices.find? fun y => y.id == id with
  | some y => y.val
  | none => []

/-- The entry names a slice. -/
def ReuseEntry.names (e : ReuseEntry) (id : Nat) : Bool := e.sources.contains id || e.old == id || e.result.contains id

/-- A slice that no architectural slice maps to is freed, and every entry that names it is invalidated (R127). -/
def Core.freeSlice (x : Core) (id : Nat) : Core :=
  if id == 0 || x.names.any (fun e => e.2 == id) then x
  else { x with slices := x.slices.filter fun y => y.id != id, reuse := x.reuse.filter fun e => !e.names id }

/-- Maps an architectural slice to a physical one. -/
def Core.setName (x : Core) (key id : Nat) : Core :=
  { x with names := if id == 0 then Table.del x.names key else Table.put x.names key id }

/-- The same; the slice it mapped to before loses a count (R127). -/
def Core.mapSlice (x : Core) (key id : Nat) : Core := (x.setName key id).freeSlice (Table.getD x.names key 0)

/-- Drops the counts of the slices that the teams with some indexes hold (R127). -/
def Core.dropTeams (x : Core) (gone : Nat → Bool) : Core :=
  ((x.names.filter fun e => gone (e.1 / 8192)).map Prod.fst).foldl (fun (y : Core) key => y.mapSlice key 0) x

/-- What a core's cellar holds of it; nothing where it holds none (R26). -/
def State.cellarOf (s : State) (core : Nat) : CoreShadow :=
  Table.getD (Table.getD s.cellars (s.partOf core) {}).cores core {}

/-- The lowest place of a core's spill area that neither its own slices nor those of its cellar take (R130, R131). -/
def State.spillPlace (s : State) (core : Nat) : Option Nat :=
  let taken := ((s.core core).slices ++ (s.cellarOf core).slices).filterMap fun y => y.place
  (List.range (16 * (s.core core).spillres)).find? fun n => !taken.contains n

/-- The slice that moves to the spill area (R129): the one read longest ago whose holders are all parked, or else the one read
longest ago that the pass does not use. -/
def State.spillVictim (s : State) (core : Nat) (busy : List Nat) : Option Slice :=
  let x := s.core core
  let old := (x.slices.filter fun y => y.place.isNone).reverse
  let parked := fun (y : Slice) => x.names.all fun e => e.2 != y.id || match s.team? (64 * core + e.1 / 8192) with
    | some t => t.wait.parks
    | none => false
  (old.find? parked).or (old.find? fun y => !busy.contains y.id)

/-- Writes a slice to its place in the spill area, line by line through the reserved part of the L1 (R130). -/
def State.spillImage (s : State) (core place : Nat) (val : Lanes) : State :=
  let bs := val.flatMap fun w => toBytes 8 w.toNat
  (List.range 4).foldl (fun (a : State) i =>
    let pa := (s.core core).slbase.toNat % 2 ^ 52 + 256 * place + 64 * i
    a.spillWrite core 0 pa { rd := true, wr := true, ex := false, usr := false, cls := 0, pa := pa, pkg := 0 }
      ((bs.drop (64 * i)).take 64)) s

/-- Moves a slice to the spill area (R129); none where no place or no victim is left. -/
def State.spillSlice (s : State) (core : Nat) (busy : List Nat) : Option State :=
  match s.spillPlace core, s.spillVictim core busy with
  | some n, some v =>
    let s1 := s.spillImage core n v.val
    let x := s1.core core
    some (s1.putCore core { x with
      slices := x.slices.map fun y => if y.id == v.id then { y with place := some n } else y
      slspill := x.slspill + 1 })
  | _, _ => none

/-- Physical slices of a core, the zero slice excluded (R126, R128, R145). -/
def sliceRoom : Nat := 4095

/-- Slices that can still be taken on a core: free ones, and free places of the spill area, which slices of the cellar take
too (R129, R130). -/
def State.slicesFree (s : State) (core : Nat) : Nat :=
  let x := s.core core
  let spilled := (x.slices ++ (s.cellarOf core).slices).filter fun y => y.place.isSome
  (sliceRoom - x.resident) + (16 * x.spillres - spilled.length)

/-- Slices of a core that wait for their values: each may need a physical slice when they arrive (R128, log 15). -/
def State.slicesDue (s : State) (core : Nat) : Nat :=
  s.pendings.foldl (fun n p => if p.2.core == core then n + (p.2.targets.filter fun g => match g with
    | .slice _ _ _ _ _ _ => true
    | .scalar _ _ => false).length else n) 0

/-- Slices can be taken for n values that will arrive, beside those that are on their way (R128, R129). -/
def State.resultRoom (s : State) (core n : Nat) : Bool := Nat.ble (s.slicesDue core + n) (s.slicesFree core)

/-- Makes room for one slice more on a core, while more can be taken than are kept for values on their way (R128, R129). -/
def State.sliceSpace (s : State) (core kept : Nat) (busy : List Nat) : Option State :=
  if Nat.ble (s.slicesFree core) kept then none
  else if Nat.blt (s.core core).resident sliceRoom then some s else s.spillSlice core busy

/-- A pass reads slices: those that are spilled are brought back first, which may spill others (R129). -/
def State.readSlices (s : State) (core : Nat) (ids : List Nat) : State :=
  ids.foldl (fun (a : State) id =>
    let x := a.core core
    match x.slices.find? fun y => y.id == id with
    | none => a
    | some y =>
      let b := a.putCore core { x with slices := { y with place := none } :: x.slices.filter fun z => z.id != id }
      if y.place.isNone || Nat.blt x.resident sliceRoom then b else (b.spillSlice core ids).getD b) s

/-- Names a value (R124, R126): the live slice that holds it, or a new one. A poisoned value is shared with no other (R205),
nor is one whose fingerprint has its four ordinals live. None where no place is free (R129). -/
def State.nameValue (s : State) (core kept : Nat) (val : Lanes) (own : Bool) (busy : List Nat) : Option (State × Nat) :=
  if !own && val.all (fun w => w == 0) then some (s, 0) else
  match (if own then none else (s.core core).slices.find? fun y => !y.own && y.val == val) with
  | some y => some (s, y.id)
  | none =>
    match s.sliceSpace core kept busy with
    | none => none
    | some s1 =>
      let x := s1.core core
      let shared := x.slices.filter fun y => !y.own
      let full := Nat.ble 4 shared.length &&
        Nat.ble 4 (shared.filter fun y => Config.fingerprint y.val == Config.fingerprint val).length
      some (s1.putCore core { x with
        slices := { id := x.nextSlice, val := val, own := own || full } :: x.slices, nextSlice := x.nextSlice + 1 },
        x.nextSlice)

/-- Names the slice of a register that a pass has written in its team (R124, R125); none where no place is free. -/
def State.nameSlice (s : State) (k kept : Nat) (after : Team) (r row : Nat) (busy : List Nat) : Option State :=
  match s.nameValue (coreOf k) kept (after.slice r row) (after.poisonOf r row).isSome (s.nameOf k r row :: busy) with
  | none => none
  | some (s1, id) => some (s1.putCore (coreOf k) ((s1.core (coreOf k)).mapSlice (sliceKey k r row) id))

/-- The same for several slices, one pass after another. -/
def State.nameSlices (s : State) (k : Nat) (after : Team) (rs : List (Nat × Nat)) : Option State :=
  rs.foldlM (fun (a : State) x => a.nameSlice k (s.slicesDue (coreOf k)) after x.1 x.2 []) s

/-- The same for values that arrive: a place is kept for each while it is on its way (R128, R129, log 15), so the last case
stores no slice in a state that keeps `State.resultRoom`'s bound. -/
def State.nameArrived (s : State) (k : Nat) (after : Team) (rs : List (Nat × Nat)) : State :=
  if !isCoreKey k then s else
  rs.foldl (fun (a : State) x => match a.nameSlice k 0 after x.1 x.2 [] with
    | some b => b
    | none =>
      let c := a.core (coreOf k)
      a.putCore (coreOf k) ({ c with
        slices := { id := c.nextSlice, val := after.slice x.1 x.2, own := true } :: c.slices
        nextSlice := c.nextSlice + 1 }.mapSlice (sliceKey k x.1 x.2) c.nextSlice)) s

/-! ### Ends of teams, launches and contexts -/

/-- An operation's failure that no BWAIT can report any more is counted for its launch (R252, R401). -/
def State.unreported (s : State) (l : Nat) (fs : List Failure) : State :=
  match fs with
  | [] => s
  | f :: _ => { s with launches := Table.adjust s.launches l fun x =>
      { x with unrep := x.unrep + fs.length, firstFail := x.firstFail.or (some (f.cause, f.issue)) } }

/-- A team's batches of the four classes. -/
def Team.batches (t : Team) (cls : Nat) : Batches :=
  match cls with
  | 0 => t.batchC
  | 1 => t.batchM
  | 2 => t.batchF
  | _ => t.batchQ

/-- Sets a team's batches of a class. -/
def Team.setBatches (t : Team) (cls : Nat) (b : Batches) : Team :=
  match cls with
  | 0 => { t with batchC := b }
  | 1 => { t with batchM := b }
  | 2 => { t with batchF := b }
  | _ => { t with batchQ := b }

/-- Every unreported failure of a team. -/
def Team.failures (t : Team) : List Failure := t.batchC.failed ++ t.batchM.failed ++ t.batchF.failed ++ t.batchQ.failed

/-- Sets a cause that teams raise when they issue again, and makes them ready (R24, R384). -/
def State.wakeWith (s : State) (ks : List Nat) (c : Option (Nat × Word)) : State :=
  ks.foldl (fun (a : State) k => a.modTeam k fun t => { t with wait := .ready, raised := c }) s

/-- The team index of a core is a member of a latch and has not arrived: the gang has lost it (R285). -/
def State.gangLost (s : State) (core index : Nat) : State :=
  (s.core core).latches.foldl (fun (a : State) e =>
    if e.2.members.contains index && !(e.2.arrived.any fun x => x.index == index) then
      (a.wakeWith (e.2.arrived.map fun x => 64 * core + x.index) (some (51, 0))).putCore core
        { a.core core with latches := Table.del (a.core core).latches e.1 }
    else a) s

/-- Marks the pipes whose producer or consumer retires (R262), discards the slots that a consumer leaves unpopped (R263),
and wakes the other end. -/
def State.retirePipes (s : State) (k : Nat) (t : Team) : State :=
  match s.block? t.block with
  | none => s
  | some b =>
    let b' := { b with pipes := Table.mapVals b.pipes fun _ p =>
      if p.producer == k then { p with pret := true, eos := true }
      else if p.consumer == k then
        { p with cret := true, slots := Table.keep p.slots fun n x => Nat.blt n p.popped || x.isNone }
      else p }
    let s' := s.putBlock t.block b'
    s'.wakeWith ((s'.teams.filter fun e => e.2.block == t.block && (match e.2.wait with
      | .pipe _ => true
      | _ => false)).map Prod.fst) none

/-- Poisoned slices of a team that nothing has read (R205, R427): those overwritten, and, as it retires, those it still has. -/
def Team.neverRead (t : Team) (retired : Bool) : Nat :=
  t.unread + if retired then (t.poison.filter fun p => !p.read).length else 0

/-- Retires a team: its registers and marks go, and what waited on it learns so (R22, R85, R252, R262, R285). -/
def State.retireTeam (s : State) (k : Nat) : State :=
  match s.team? k with
  | none => s
  | some t =>
    let s1 := (s.endOwnRun k).unreported t.launch t.failures
    let s2 := { s1 with
      teams := Table.del s1.teams k
      pendings := Table.keep s1.pendings fun _ p => !(p.team == t.uid)
      health := { s1.health with unread := s1.health.unread + t.neverRead true }
      cores := Table.adjust s1.cores (coreOf k) fun x => x.dropTeams fun i => i == indexOf k }
    (s2.gangLost (coreOf k) (indexOf k)).retirePipes k t

/-- Retires the teams that have ended and to whose registers no value is on its way any more (R85). -/
def State.retireEnded (s : State) : State :=
  ((s.teams.filter fun e => e.2.wait == .retire && !(s.pendings.any fun p => p.2.team == e.2.uid)).map Prod.fst).foldl
    (fun (a : State) k => a.retireTeam k) s

/-- Makes ready the teams whose awaited writes have all been acknowledged (R208). -/
def State.wakeAcks (s : State) : State :=
  { s with teams := Table.mapVals s.teams fun _ t => match t.wait with
      | .acks ids => if ids.any fun i => (Table.find? s.flights i).isSome then t else { t with wait := .ready }
      | _ => t }

/-- Counts an event of a group of the health counters (R427). -/
def State.countHealth (s : State) (group index : Nat) : State :=
  let g := Table.getD s.health.groups group []
  let g' := if Nat.blt index g.length then g else g ++ List.replicate (index + 1 - g.length) 0
  { s with health := { s.health with groups := Table.put s.health.groups group (g'.set index (g'.getD index 0 + 1)) } }

/-- Firmware counts an access that meets an uncorrectable line (R235, R442), by the line's region (R427). -/
def State.countBad (s : State) (pa : Nat) : State := s.countHealth 2 (if isFar pa then 2 else 1)

/-! ### Atomic operations (R230) -/

/-- The new value of z bytes under an operation of row 0x24, by its minor (R230). -/
def atomicResult (op z : Nat) (u : Bool) (old d new : Nat) : Nat :=
  let w := 8 * z
  let less := if u then Nat.blt old d else decide (sgn w old < sgn w d)
  match op with
  | 0 => (old + d) % 2 ^ w
  | 1 => (fp32.add old d).1
  | 2 => if less then old else d
  | 3 => if less then d else old
  | 4 => (fp32.minMax true old d).1
  | 5 => Nat.land old d
  | 6 => Nat.lor old d
  | 7 => Nat.xor old d
  | 8 => d
  | _ => if old == d then new else old

/-- An atomic at the home of its location (R226, R227): the state and the old value, or nothing where the line is marked
uncorrectable (R235, R443). DESIGN CHOICE: no write of the host falls between its read and its write (log 117). -/
def State.atomicAt (s : State) (pa op z : Nat) (u : Bool) (d new : Nat) : Option (State × Nat) :=
  if s.badData pa then none else
  let old := ofBytes (s.bytes pa z)
  some (s.homeWriteRun pa (toBytes z (atomicResult op z u old (d % 2 ^ (8 * z)) (new % 2 ^ (8 * z)))) (some 0), old)

/-- A write is performed at its home (R188, R208). A contribution is with the request that carries it, and with all that the
request carries; an uncorrectable line takes none, which is counted (R233, R235). -/
def State.perform (s : State) (id : Nat) : State :=
  match Table.find? s.flights id with
  | none => s
  | some f =>
    let n := f.into.getD id
    match Table.find? s.flights n with
    | none => s
    | some g =>
      let s1 := { s with flights := Table.keep s.flights fun i h => i != n && h.into != some n }
      match g.add with
      | none => s1.homeWrite g.pa g.mask g.data g.desc
      | some (pa, x) => match s1.atomicAt pa 1 4 false x 0 with
        | some (s2, _) => s2
        | none => s1.countBad pa

/-- Writes on their way that a test names reach their homes (R389 step 3, R208). -/
def State.land (s : State) (sel : Flight → Bool) : State :=
  ((s.flights.filter fun f => sel f.2).foldl (fun (a : State) f => a.perform f.1) s).wakeAcks

/-- The contributions of a core that a test names are performed: what it reads next shows them (R214, R232). -/
def State.landAdds (s : State) (core : Nat) (sel : Flight → Bool) : State :=
  if s.flights.any fun f => f.2.core == core && f.2.add.isSome && sel f.2 then
    s.land fun f => f.core == core && f.add.isSome && sel f
  else s

/-- A quorum slot left idle; its DROPS counter stays (R342). -/
def Slot.clear (x : Slot) : Slot := { ({} : Slot) with drops := x.drops }

/-- Kills a context (R388, R389): cause is the code of the CTXKILLED event, original the cause that led to it. -/
def State.kill (s : State) (c cause original : Nat) (tpc : Word) (source : Word) : State :=
  let x := s.ctx c
  if !x.alive then s else
  let mine := s.coresOf x.part
  let isLive := (s.part x.part).live == c
  let halting := (s.part x.part).phase
  let s1 := s.land fun f => f.ctx == c
  let missed := fun (w : Wait) => match w with
    | .miss id => (Table.find? s1.misses id).any fun m => m.ctx == c
    | _ => false
  let s2 := { s1 with
    teams := Table.mapVals (Table.keep s1.teams fun k t => !(t.ctx == c && isCoreKey k)) fun _ t =>
      if t.ctx == c && t.role == Role.prologue then { Team.thread t.uid .prologue 0 .idle with pc := t.pc }
      else if (isLive && halting == 1 && t.wait == Wait.halt x.part) || missed t.wait then { t with wait := .ready } else t
    blocks := Table.keep s1.blocks fun _ b => !(b.ctx == c)
    health := { s1.health with unread :=
      (s1.teams ++ if isLive then [] else (Table.getD s1.cellars x.part {}).teams).foldl (fun (n : Nat) (t : Nat × Team) =>
        if t.2.ctx == c && isCoreKey t.1 then n + t.2.neverRead false else n) s1.health.unread }
    pendings := Table.keep s1.pendings fun _ p => !((s1.teams.any fun t => t.2.uid == p.team && t.2.ctx == c))
    ops := Table.keep s1.ops fun _ o => !(o.ctx == c)
    misses := Table.keep s1.misses fun _ m => !(m.ctx == c)
    evq := { s1.evq with waiting := s1.evq.waiting.filter fun e => !(e.kind == 1 && e.ctx == c) }
    tlb := Table.mapVals s1.tlb fun _ es => es.filter fun e => !(e.ctx == c)
    quads := Table.mapVals s1.quads fun _ q => { q with
      icache := q.icache.filter fun l => !(l.1 == c), filling := q.filling.filter fun l => !(l.1 == c) }
    cores := Table.mapVals s1.cores fun n k =>
      let gone := fun i => match s1.team? (64 * n + i) with
        | some t => t.ctx == c
        | none => false
      let k' := { k.dropTeams gone with
        lines := k.lines.filter fun l => !(l.ctx == c), reserved := k.reserved.filter fun l => !(l.ctx == c)
        reuse := (k.dropTeams gone).reuse.filter fun e => !(e.ctx == c) }
      if isLive && mine.contains n then
        { k' with bars := [], latches := [], tasks := [], chunk := none, matrixQueue := [], matrixRun := none, runTeam := none,
                  runCount := 0, affineTeam := none, affineCount := 0 } else k'
    cellars := if isLive then s1.cellars else Table.del s1.cellars x.part
    slots := Table.mapVals s1.slots fun _ q => if q.ctx == c then q.clear else q
    owners := Table.keep s1.owners fun _ o => !(o == c)
    launches := Table.mapVals s1.launches fun _ l =>
      if l.ctx == c && (match l.state with
        | .taken => true | .prologue => true | .dealing => true | .draining => true | _ => false)
      then { l with state := .failed, cause := 120, blocks := [], die := none, again := none } else l
    parts := if x.part == 0 then s1.parts else Table.put s1.parts x.part
      (if isLive then { s1.part x.part with
          live := 0, stopped := true, wasRunning := false, phase := if halting == 1 then 0 else halting }
       else if (s1.part x.part).cellar == c then { s1.part x.part with cellar := 0, cellarRunning := false }
       else s1.part x.part) }
  let s3 := s2.putCtx c { x with
    alive := false, killed := true, key := none, skey := [0, 0, 0, 0], gid := 0, part := 0
    dir := [], versions := [], peers := [], pgSize := 0
    raised := []
    spill := Table.mapVals x.spill fun _ r => { r with count := 0 }
    queues := Table.mapVals x.queues fun _ q => { q with enable := false } }
  s3.post { kind := 3, cause := cause, ctx := c, addr := tpc, data := BitVec.ofNat 64 original, source := source }

/-! ### Taking a trap (R369, R371) -/

/-- What a trap records beside its cause (R373). -/
structure TrapInfo where
  pass : Nat := 0
  addr : Word := 0
  eng : Bool := false
  cls : Nat := 0
  code : Nat := 0
  issue : Word := 0
  batch : Word := 0
  /-- The poisoned slice that was read, where that is the cause (R205). -/
  slice : Option (Nat × Nat) := none
  deriving DecidableEq, Repr

/-- What the reader of a poisoned slice records at a pass (R205). -/
def Poison.info (p : Poison) (pass : Nat) : TrapInfo := { pass := pass, addr := p.addr, slice := some (p.reg, p.row) }

/-- The trap registers at the entry of a team into its handler (R371, R373). -/
def Team.enterTrap (t : Team) (c : Nat) (i : TrapInfo) : Team :=
  { t with
    trap := { t.trap with
      cause := c, inh := true, tpc := t.pc, addr := i.addr, pass := i.pass, eng := i.eng, cls := i.cls, code := i.code
      issue := i.issue, batch := i.batch, depth := t.stack.length }
    poison := t.poison.map fun p => if i.slice == some (p.reg, p.row) then { p with read := true } else p
    pc := t.trap.entry, chained := false, inPacket := false, target := false, resume := 0, phase := 0, raised := none
    lost := none, wait := .ready }

/-- An image slot: 0 A, 1 B (R412). -/
def State.slot (s : State) (n : Nat) : ImageSlot := if n == 0 then s.imageA else s.imageB

/-- The slot of the image that runs: the inactive one during HANDOVER (R417). -/
def State.runningSlot (s : State) : Nat := if s.update.state == 3 then 1 - s.update.active else s.update.active

/-- The first word of the supervisor image that the running firmware image loaded (R369, log 20). -/
def State.supEntry (s : State) : Nat := (s.slot s.runningSlot).sup

/-- The launch has ended (R401). -/
def Launch.ended (x : Launch) : Bool := x.state == .failed || x.state == .done || x.state == .cancelled

/-- Fails a launch for a cause (R401): it deals no further records, those that a core or a cellar holds undealt go, and LAUNCH_END
follows once its blocks have retired (R404). -/
def State.failLaunch (s : State) (l c : Nat) : State :=
  let none_ := fun (x : Option (Nat × Nat × Nat)) => match x with
    | some (n, a, b) => if n == l then none else some (n, a, b)
    | none => none
  { s with
    launches := Table.adjust s.launches l fun x =>
      if x.ended || x.cause != 0 then x
      else { x with state := .draining, cause := c, die := none, again := none, reading := false, waiting := [] }
    cores := Table.mapVals s.cores fun _ x => { x with chunk := none_ x.chunk }
    cellars := Table.mapVals s.cellars fun _ y => { y with
      cores := Table.mapVals y.cores fun _ z => { z with chunk := none_ z.chunk } } }

/-- Takes a cause delivered as P (R369, R371, R395): a system thread restarts the supervisor image after a SUPFAULT event,
a prologue's launch fails, and a team enters its handler, or its context is killed where it has none, is in it already,
or is a loader. -/
def State.takeTrap (s : State) (k c : Nat) (i : TrapInfo) : State :=
  match s.team? k with
  | none => s
  | some t =>
    match t.role with
    | .system =>
      let s1 := s.post { kind := 8, cause := c, ctx := 0, addr := 0, data := 0, source := sourceOf k 0 }
      s1.putTeam k { t with
        sr := [(2, 3)], pc := BitVec.ofNat 64 s.supEntry, loops := [], stack := [], level := 1, chained := false
        inPacket := false, target := false, resume := 0, phase := 0, raised := none, wait := .ready }
    | .prologue =>
      (s.failLaunch t.launch c).putTeam k (Team.thread t.uid .prologue 0 .idle)
    | _ =>
      if t.trap.entry == 0 || t.trap.inh || t.role == .loader then
        s.kill t.ctx 120 c t.pc (sourceOf k t.part)
      else s.putTeam k (t.enterTrap c i)

/-! ### The frame of a meaning -/

/-- What the effect of an instruction comes to. -/
inductive Did where
  /-- Completed: the team goes past the word. -/
  | done (s : State)
  /-- Completed with a transfer of control. -/
  | jump (pc : Word) (s : State)
  /-- A cause at the word. -/
  | trap (c : Nat) (i : TrapInfo) (s : State)
  /-- The team parks or stalls; the instruction is issued again when it is ready. -/
  | park (w : Wait) (s : State)
  /-- Nothing is left to do for the issuer. -/
  | quit (s : State)

/-- Words of an instruction: two with a literal (R52). -/
def wordsOf : Instr → Nat
  | .slit _ _ => 2
  | .slith _ _ => 2
  | _ => 1

end Sys2Proof.Machine
end

