-- ==== Sys2Proof/Machine/Operands.lean ====
section
/-! DEFINITION. What each form's fields name: chain bit, row and minor, guard, registers, and the checks made before the
effect (R35, R42 to R54, R103, R267, R369, R395, R407). -/

namespace Sys2Proof.Machine

/-- C, the chain bit of the word (R33); false for a step without an encoding. -/
def chainBit : Instr → Bool
  | .bra f => f.c
  | .bany f => f.c
  | .ball f => f.c
  | .call f => f.c
  | .mark f => f.c
  | .ipf f => f.c
  | .bri f => f.c
  | .calli f => f.c
  | .ret f => f.c
  | .join => false
  | .exit => false
  | .yield f => f.c
  | .nop f => f.c
  | .loop f => f.c
  | .loopi f => f.c
  | .lbrk f => f.c
  | .iadd f => f.c
  | .isub f => f.c
  | .imul f => f.c
  | .imulh f => f.c
  | .imac f => f.c
  | .imin f => f.c
  | .imax f => f.c
  | .umin f => f.c
  | .umax f => f.c
  | .and f => f.c
  | .or f => f.c
  | .xor f => f.c
  | .andn f => f.c
  | .shl f => f.c
  | .shr f => f.c
  | .sar f => f.c
  | .iaddi f => f.c
  | .imuli f => f.c
  | .andi f => f.c
  | .ori f => f.c
  | .xori f => f.c
  | .shli f => f.c
  | .shri f => f.c
  | .sari f => f.c
  | .popc f => f.c
  | .clz f => f.c
  | .brev f => f.c
  | .bfx f => f.c
  | .bfi f => f.c
  | .iadds f => f.c
  | .isubs f => f.c
  | .uadds f => f.c
  | .usubs f => f.c
  | .sel f => f.c
  | .sadd f => f.c
  | .ssub f => f.c
  | .smul f => f.c
  | .smulh f => f.c
  | .sand f => f.c
  | .sor f => f.c
  | .sxor f => f.c
  | .sshl f => f.c
  | .sshr f => f.c
  | .ssar f => f.c
  | .smin f => f.c
  | .smax f => f.c
  | .smov f => f.c
  | .saddi f => f.c
  | .sandi f => f.c
  | .sori f => f.c
  | .sxori f => f.c
  | .sshli f => f.c
  | .sshri f => f.c
  | .sldi f => f.c
  | .slit f _ => f.c
  | .slith f _ => f.c
  | .adds f => f.c
  | .subs f => f.c
  | .muls f => f.c
  | .shls f => f.c
  | .ands f => f.c
  | .bcast f => f.c
  | .lea f => f.c
  | .icmp f => f.c
  | .fcmp f => f.c
  | .icmps f => f.c
  | .pand f => f.c
  | .por f => f.c
  | .pxor f => f.c
  | .pandn f => f.c
  | .pnot f => f.c
  | .pmov f => f.c
  | .pseta f => f.c
  | .pclr f => f.c
  | .scmp f => f.c
  | .mov f => f.c
  | .xrd f => f.c
  | .xwr f => f.c
  | .xset f => f.c
  | .xadd f => f.c
  | .xget f => f.c
  | .ruse f => f.c
  | .rclr f => f.c
  | .fadd f => f.c
  | .fsub f => f.c
  | .fmul f => f.c
  | .fmac f => f.c
  | .fnmac f => f.c
  | .fmin f => f.c
  | .fmax f => f.c
  | .fabs f => f.c
  | .fneg f => f.c
  | .fcpys f => f.c
  | .frcp f => f.c
  | .frsq f => f.c
  | .fsqrt f => f.c
  | .fexp2 f => f.c
  | .flog2 f => f.c
  | .fsin f => f.c
  | .fcos f => f.c
  | .ftanh f => f.c
  | .cvtff f => f.c
  | .cvtfi f => f.c
  | .cvtif f => f.c
  | .cvtii f => f.c
  | .idot4 f => f.c
  | .idot8 f => f.c
  | .idot16 f => f.c
  | .fdotb f => f.c
  | .ldq f => f.c
  | .stq f => f.c
  | .shfl f => f.c
  | .shflx f => f.c
  | .bcl f => f.c
  | .ballot f => f.c
  | .vany f => f.c
  | .vall f => f.c
  | .pcnt f => f.c
  | .pfirst f => f.c
  | .scan f => f.c
  | .scanx f => f.c
  | .red f => f.c
  | .compact f => f.c
  | .lext f => f.c
  | .lextId f => f.c
  | .lextHome f => f.c
  | .lins f => f.c
  | .ldl f => f.c
  | .ldg f => f.c
  | .ldp f => f.c
  | .ldpg f => f.c
  | .ldu f => f.c
  | .ldlRo f => f.c
  | .ldgRo f => f.c
  | .lduRo f => f.c
  | .ldlNt f => f.c
  | .ldgNt f => f.c
  | .stl f => f.c
  | .stg f => f.c
  | .stp f => f.c
  | .stpg f => f.c
  | .stu f => f.c
  | .stlNt f => f.c
  | .stgNt f => f.c
  | .fence f => f.c
  | .ldacq f => f.c
  | .strel f => f.c
  | .l1inv f => f.c
  | .l1wb f => f.c
  | .pfd f => f.c
  | .aadd f => f.c
  | .afadd f => f.c
  | .amin f => f.c
  | .amax f => f.c
  | .afmax f => f.c
  | .aand f => f.c
  | .aor f => f.c
  | .axor f => f.c
  | .axch f => f.c
  | .acas f => f.c
  | .barv f => f.c
  | .barw f => f.c
  | .bars f => f.c
  | .bari f => f.c
  | .cpy f => f.c
  | .cpyp f => f.c
  | .gath f => f.c
  | .scat f => f.c
  | .bclose f => f.c
  | .bwait f => f.c
  | .bstat f => f.c
  | .push f => f.c
  | .pop f => f.c
  | .peos f => f.c
  | .pstat f => f.c
  | .mma f => f.c
  | .mmaz f => f.c
  | .accz f => f.c
  | .accrd f => f.c
  | .accwr f => f.c
  | .gang f => f.c
  | .mapset f => f.c
  | .winset f => f.c
  | .clook f => f.c
  | .cnode f => f.c
  | .cread f => f.c
  | .cwalk f => f.c
  | .cref f => f.c
  | .crel f => f.c
  | .croot f => f.c
  | .cswap f => f.c
  | .cout f => f.c
  | .cnew f => f.c
  | .ldv f => f.c
  | .publ f => f.c
  | .vstep f => f.c
  | .vpin f => f.c
  | .vunpin f => f.c
  | .stepa f => f.c
  | .stepr f => f.c
  | .pexc f => f.c
  | .plead f => f.c
  | .qopen f => f.c
  | .qcont f => f.c
  | .qwait f => f.c
  | .qread f => f.c
  | .qstat f => f.c
  | .rld f => f.c
  | .rst f => f.c
  | .putsig f => f.c
  | .ratom f => f.c
  | .rfence f => f.c
  | .trap f => f.c
  | .rett f => f.c
  | .srd f => f.c
  | .swr f => f.c
  | .tlbinv f => f.c
  | .keykill f => f.c
  | .haltIdle => false
  | .haltStop f => f.c
  | .haltSwap f => f.c
  | .haltGo f => f.c
  | .bkpt f => f.c
  | .launch f => f.c
  | .launchPro f => f.c
  | .lcancel f => f.c
  | .lcancelAgain f => f.c
  | .qpost f => f.c
  | .qtake f => f.c
  | .tspawn f => f.c
  | .tsteal f => f.c
  | _ => false

/-- Major and minor opcode of the word (R53); row 0 for a step without an encoding. -/
def rowOf : Instr → Nat × Nat
  | .bra _ => (0x01, 0)
  | .bany _ => (0x01, 1)
  | .ball _ => (0x01, 2)
  | .call _ => (0x01, 3)
  | .mark _ => (0x01, 4)
  | .ipf _ => (0x01, 5)
  | .bri _ => (0x02, 0)
  | .calli _ => (0x02, 1)
  | .ret _ => (0x02, 2)
  | .join => (0x02, 3)
  | .exit => (0x02, 4)
  | .yield _ => (0x02, 5)
  | .nop _ => (0x02, 6)
  | .loop _ => (0x03, 0)
  | .loopi _ => (0x03, 1)
  | .lbrk _ => (0x03, 2)
  | .iadd _ => (0x04, 0)
  | .isub _ => (0x04, 1)
  | .imul _ => (0x04, 2)
  | .imulh _ => (0x04, 3)
  | .imac _ => (0x04, 4)
  | .imin _ => (0x04, 5)
  | .imax _ => (0x04, 6)
  | .umin _ => (0x04, 7)
  | .umax _ => (0x04, 8)
  | .and _ => (0x04, 9)
  | .or _ => (0x04, 10)
  | .xor _ => (0x04, 11)
  | .andn _ => (0x04, 12)
  | .shl _ => (0x04, 13)
  | .shr _ => (0x04, 14)
  | .sar _ => (0x04, 15)
  | .iaddi _ => (0x05, 0)
  | .imuli _ => (0x05, 1)
  | .andi _ => (0x05, 2)
  | .ori _ => (0x05, 3)
  | .xori _ => (0x05, 4)
  | .shli _ => (0x05, 5)
  | .shri _ => (0x05, 6)
  | .sari _ => (0x05, 7)
  | .popc _ => (0x06, 0)
  | .clz _ => (0x06, 1)
  | .brev _ => (0x06, 2)
  | .bfx _ => (0x06, 3)
  | .bfi _ => (0x06, 4)
  | .iadds _ => (0x06, 5)
  | .isubs _ => (0x06, 6)
  | .uadds _ => (0x06, 7)
  | .usubs _ => (0x06, 8)
  | .sel _ => (0x06, 9)
  | .sadd _ => (0x07, 0)
  | .ssub _ => (0x07, 1)
  | .smul _ => (0x07, 2)
  | .smulh _ => (0x07, 3)
  | .sand _ => (0x07, 4)
  | .sor _ => (0x07, 5)
  | .sxor _ => (0x07, 6)
  | .sshl _ => (0x07, 7)
  | .sshr _ => (0x07, 8)
  | .ssar _ => (0x07, 9)
  | .smin _ => (0x07, 10)
  | .smax _ => (0x07, 11)
  | .smov _ => (0x07, 12)
  | .saddi _ => (0x08, 0)
  | .sandi _ => (0x08, 1)
  | .sori _ => (0x08, 2)
  | .sxori _ => (0x08, 3)
  | .sshli _ => (0x08, 4)
  | .sshri _ => (0x08, 5)
  | .sldi _ => (0x08, 6)
  | .slit _ _ => (0x08, 7)
  | .slith _ _ => (0x08, 8)
  | .adds _ => (0x09, 0)
  | .subs _ => (0x09, 1)
  | .muls _ => (0x09, 2)
  | .shls _ => (0x09, 3)
  | .ands _ => (0x09, 4)
  | .bcast _ => (0x09, 5)
  | .lea _ => (0x09, 6)
  | .icmp _ => (0x0A, 0)
  | .fcmp _ => (0x0B, 0)
  | .icmps _ => (0x0C, 0)
  | .pand _ => (0x0D, 0)
  | .por _ => (0x0D, 1)
  | .pxor _ => (0x0D, 2)
  | .pandn _ => (0x0D, 3)
  | .pnot _ => (0x0D, 4)
  | .pmov _ => (0x0D, 5)
  | .pseta _ => (0x0D, 6)
  | .pclr _ => (0x0D, 7)
  | .scmp _ => (0x0E, 0)
  | .mov _ => (0x10, 0)
  | .xrd _ => (0x10, 1)
  | .xwr _ => (0x10, 2)
  | .xset _ => (0x10, 3)
  | .xadd _ => (0x10, 4)
  | .xget _ => (0x10, 5)
  | .ruse _ => (0x10, 6)
  | .rclr _ => (0x10, 7)
  | .fadd _ => (0x11, 0)
  | .fsub _ => (0x11, 1)
  | .fmul _ => (0x11, 2)
  | .fmac _ => (0x11, 3)
  | .fnmac _ => (0x11, 4)
  | .fmin _ => (0x11, 5)
  | .fmax _ => (0x11, 6)
  | .fabs _ => (0x11, 7)
  | .fneg _ => (0x11, 8)
  | .fcpys _ => (0x11, 9)
  | .frcp _ => (0x12, 0)
  | .frsq _ => (0x12, 1)
  | .fsqrt _ => (0x12, 2)
  | .fexp2 _ => (0x12, 3)
  | .flog2 _ => (0x12, 4)
  | .fsin _ => (0x12, 5)
  | .fcos _ => (0x12, 6)
  | .ftanh _ => (0x12, 7)
  | .cvtff _ => (0x13, 0)
  | .cvtfi _ => (0x13, 1)
  | .cvtif _ => (0x13, 2)
  | .cvtii _ => (0x13, 3)
  | .idot4 _ => (0x14, 0)
  | .idot8 _ => (0x14, 1)
  | .idot16 _ => (0x14, 2)
  | .fdotb _ => (0x14, 3)
  | .ldq _ => (0x15, 0)
  | .stq _ => (0x15, 1)
  | .shfl _ => (0x18, 0)
  | .shflx _ => (0x18, 1)
  | .bcl _ => (0x18, 2)
  | .ballot _ => (0x18, 3)
  | .vany _ => (0x18, 4)
  | .vall _ => (0x18, 5)
  | .pcnt _ => (0x18, 6)
  | .pfirst _ => (0x18, 7)
  | .scan _ => (0x18, 8)
  | .scanx _ => (0x18, 9)
  | .red _ => (0x18, 10)
  | .compact _ => (0x18, 11)
  | .lext _ => (0x18, 12)
  | .lextId _ => (0x18, 12)
  | .lextHome _ => (0x18, 12)
  | .lins _ => (0x18, 13)
  | .ldl _ => (0x20, 0)
  | .ldg _ => (0x20, 1)
  | .ldp _ => (0x20, 2)
  | .ldpg _ => (0x20, 3)
  | .ldu _ => (0x20, 4)
  | .ldlRo _ => (0x20, 5)
  | .ldgRo _ => (0x20, 6)
  | .lduRo _ => (0x20, 7)
  | .ldlNt _ => (0x20, 8)
  | .ldgNt _ => (0x20, 9)
  | .stl _ => (0x21, 0)
  | .stg _ => (0x21, 1)
  | .stp _ => (0x21, 2)
  | .stpg _ => (0x21, 3)
  | .stu _ => (0x21, 4)
  | .stlNt _ => (0x21, 5)
  | .stgNt _ => (0x21, 6)
  | .fence _ => (0x22, 0)
  | .ldacq _ => (0x22, 1)
  | .strel _ => (0x22, 2)
  | .l1inv _ => (0x22, 3)
  | .l1wb _ => (0x22, 4)
  | .pfd _ => (0x22, 5)
  | .aadd _ => (0x24, 0)
  | .afadd _ => (0x24, 1)
  | .amin _ => (0x24, 2)
  | .amax _ => (0x24, 3)
  | .afmax _ => (0x24, 4)
  | .aand _ => (0x24, 5)
  | .aor _ => (0x24, 6)
  | .axor _ => (0x24, 7)
  | .axch _ => (0x24, 8)
  | .acas _ => (0x24, 9)
  | .barv _ => (0x25, 0)
  | .barw _ => (0x25, 1)
  | .bars _ => (0x25, 2)
  | .bari _ => (0x25, 3)
  | .cpy _ => (0x28, 0)
  | .cpyp _ => (0x28, 1)
  | .gath _ => (0x28, 2)
  | .scat _ => (0x28, 3)
  | .bclose _ => (0x28, 4)
  | .bwait _ => (0x28, 5)
  | .bstat _ => (0x28, 6)
  | .push _ => (0x29, 0)
  | .pop _ => (0x29, 1)
  | .peos _ => (0x29, 2)
  | .pstat _ => (0x29, 3)
  | .mma _ => (0x2C, 0)
  | .mmaz _ => (0x2C, 1)
  | .accz _ => (0x2C, 2)
  | .accrd _ => (0x2C, 3)
  | .accwr _ => (0x2C, 4)
  | .gang _ => (0x2C, 5)
  | .mapset _ => (0x2C, 6)
  | .winset _ => (0x2C, 7)
  | .clook _ => (0x30, 0)
  | .cnode _ => (0x30, 1)
  | .cread _ => (0x30, 2)
  | .cwalk _ => (0x30, 3)
  | .cref _ => (0x30, 4)
  | .crel _ => (0x30, 5)
  | .croot _ => (0x30, 6)
  | .cswap _ => (0x30, 7)
  | .cout _ => (0x30, 8)
  | .cnew _ => (0x30, 9)
  | .ldv _ => (0x34, 0)
  | .publ _ => (0x34, 1)
  | .vstep _ => (0x34, 2)
  | .vpin _ => (0x34, 3)
  | .vunpin _ => (0x34, 4)
  | .stepa _ => (0x35, 0)
  | .stepr _ => (0x35, 1)
  | .pexc _ => (0x35, 2)
  | .plead _ => (0x35, 3)
  | .qopen _ => (0x36, 0)
  | .qcont _ => (0x36, 1)
  | .qwait _ => (0x36, 2)
  | .qread _ => (0x36, 3)
  | .qstat _ => (0x36, 4)
  | .rld _ => (0x38, 0)
  | .rst _ => (0x38, 1)
  | .putsig _ => (0x38, 2)
  | .ratom _ => (0x38, 3)
  | .rfence _ => (0x38, 4)
  | .trap _ => (0x3C, 0)
  | .rett _ => (0x3C, 1)
  | .srd _ => (0x3C, 2)
  | .swr _ => (0x3C, 3)
  | .tlbinv _ => (0x3C, 4)
  | .keykill _ => (0x3C, 5)
  | .haltIdle => (0x3C, 6)
  | .haltStop _ => (0x3C, 6)
  | .haltSwap _ => (0x3C, 6)
  | .haltGo _ => (0x3C, 6)
  | .bkpt _ => (0x3C, 7)
  | .launch _ => (0x3E, 0)
  | .launchPro _ => (0x3E, 0)
  | .lcancel _ => (0x3E, 1)
  | .lcancelAgain _ => (0x3E, 1)
  | .qpost _ => (0x3E, 2)
  | .qtake _ => (0x3E, 3)
  | .tspawn _ => (0x3E, 4)
  | .tsteal _ => (0x3E, 5)
  | _ => (0, 0)

/-- The guard field of a form that has one (R45). -/
def guardOf : Instr → BitVec 4
  | .bra f => f.g
  | .bany f => f.g
  | .ball f => f.g
  | .call f => f.g
  | .mark f => f.g
  | .ipf f => f.g
  | .iadd f => f.g
  | .isub f => f.g
  | .imul f => f.g
  | .imulh f => f.g
  | .imac f => f.g
  | .imin f => f.g
  | .imax f => f.g
  | .umin f => f.g
  | .umax f => f.g
  | .and f => f.g
  | .or f => f.g
  | .xor f => f.g
  | .andn f => f.g
  | .shl f => f.g
  | .shr f => f.g
  | .sar f => f.g
  | .iaddi f => f.g
  | .imuli f => f.g
  | .andi f => f.g
  | .ori f => f.g
  | .xori f => f.g
  | .shli f => f.g
  | .shri f => f.g
  | .sari f => f.g
  | .popc f => f.g
  | .clz f => f.g
  | .brev f => f.g
  | .bfx f => f.g
  | .bfi f => f.g
  | .iadds f => f.g
  | .isubs f => f.g
  | .uadds f => f.g
  | .usubs f => f.g
  | .sel f => f.g
  | .adds f => f.g
  | .subs f => f.g
  | .muls f => f.g
  | .shls f => f.g
  | .ands f => f.g
  | .bcast f => f.g
  | .lea f => f.g
  | .mov f => f.g
  | .xrd f => f.g
  | .xwr f => f.g
  | .xset f => f.g
  | .xadd f => f.g
  | .xget f => f.g
  | .ruse f => f.g
  | .rclr f => f.g
  | .fadd f => f.g
  | .fsub f => f.g
  | .fmul f => f.g
  | .fmac f => f.g
  | .fnmac f => f.g
  | .fmin f => f.g
  | .fmax f => f.g
  | .fabs f => f.g
  | .fneg f => f.g
  | .fcpys f => f.g
  | .frcp f => f.g
  | .frsq f => f.g
  | .fsqrt f => f.g
  | .fexp2 f => f.g
  | .flog2 f => f.g
  | .fsin f => f.g
  | .fcos f => f.g
  | .ftanh f => f.g
  | .cvtff f => f.g
  | .cvtfi f => f.g
  | .cvtif f => f.g
  | .cvtii f => f.g
  | .idot4 f => f.g
  | .idot8 f => f.g
  | .idot16 f => f.g
  | .fdotb f => f.g
  | .ldq f => f.g
  | .stq f => f.g
  | .shfl f => f.g
  | .shflx f => f.g
  | .bcl f => f.g
  | .ballot f => f.g
  | .vany f => f.g
  | .vall f => f.g
  | .pcnt f => f.g
  | .pfirst f => f.g
  | .scan f => f.g
  | .scanx f => f.g
  | .red f => f.g
  | .compact f => f.g
  | .lext f => f.g
  | .lextId f => f.g
  | .lextHome f => f.g
  | .lins f => f.g
  | .ldl f => f.g
  | .ldg f => f.g
  | .ldp f => f.g
  | .ldpg f => f.g
  | .ldu f => f.g
  | .ldlRo f => f.g
  | .ldgRo f => f.g
  | .lduRo f => f.g
  | .ldlNt f => f.g
  | .ldgNt f => f.g
  | .stl f => f.g
  | .stg f => f.g
  | .stp f => f.g
  | .stpg f => f.g
  | .stu f => f.g
  | .stlNt f => f.g
  | .stgNt f => f.g
  | .aadd f => f.g
  | .afadd f => f.g
  | .amin f => f.g
  | .amax f => f.g
  | .afmax f => f.g
  | .aand f => f.g
  | .aor f => f.g
  | .axor f => f.g
  | .axch f => f.g
  | .acas f => f.g
  | _ => 0

/-- The predicate numbers named beside the guard (R103, R175). -/
def predsOf : Instr → List Nat
  | .icmp f => [f.pd.toNat]
  | .fcmp f => [f.pd.toNat]
  | .icmps f => [f.pd.toNat]
  | .pand f => [f.pd.toNat, f.pa.toNat, f.pb.toNat]
  | .por f => [f.pd.toNat, f.pa.toNat, f.pb.toNat]
  | .pxor f => [f.pd.toNat, f.pa.toNat, f.pb.toNat]
  | .pandn f => [f.pd.toNat, f.pa.toNat, f.pb.toNat]
  | .pnot f => [f.pd.toNat, f.pa.toNat]
  | .pmov f => [f.pd.toNat, f.pa.toNat]
  | .pseta f => [f.pd.toNat]
  | .pclr f => [f.pd.toNat]
  | .scmp f => [f.pd.toNat]
  | .ballot f => [f.a.toNat]
  | .vany f => [f.d.toNat, f.a.toNat]
  | .vall f => [f.d.toNat, f.a.toNat]
  | .pcnt f => [f.a.toNat]
  | .pfirst f => [f.a.toNat]
  | .scan f => [f.b.toNat]
  | .scanx f => [f.b.toNat]
  | .red f => [f.b.toNat]
  | _ => []

/-- Scalar registers among the registers that a word touches: 256 plus their numbers. -/
def regsS (rs : List (BitVec 5)) : List Nat := rs.map fun r => 256 + r.toNat

/-- The scalars of a group of n from a register on (R253). -/
def groupS (r : BitVec 5) (n : Nat) : List Nat := regsS ((List.range n).map fun i => r + BitVec.ofNat 5 i)

/-- Registers that a line of width b spans (R168). -/
def spanOf (b : Nat) : Nat := if Nat.ble 8 b then 1 else 8 / b

/-- BASE of an index register (R122). -/
def indexBase (t : Team) (n : BitVec 5) : Nat := ((t.x.getD n.toNat 0).extractLsb' 0 8).toNat

/-- The registers that a word reads or writes, whose pending values it waits for (R23, R38): vector registers as their
numbers, scalars as 256 plus theirs. A COMPACT waits for every register of its team (R184). -/
def touchOf (t : Team) : Instr → List Nat
  | .call _ => [287]
  | .bri f => regsS [f.sd, f.sa]
  | .calli f => regsS [f.sd, f.sa]
  | .ret f => regsS [f.sd, f.sa]
  | .yield f => regsS [f.sd, f.sa]
  | .nop f => regsS [f.sd, f.sa]
  | .loop f => regsS [f.s]
  | .loopi f => regsS [f.s]
  | .lbrk f => regsS [f.s]
  | .iadd f => [f.d.toNat, f.a.toNat, f.b.toNat]
  | .isub f => [f.d.toNat, f.a.toNat, f.b.toNat]
  | .imul f => [f.d.toNat, f.a.toNat, f.b.toNat]
  | .imulh f => [f.d.toNat, f.a.toNat, f.b.toNat]
  | .imac f => [f.d.toNat, f.a.toNat, f.b.toNat]
  | .imin f => [f.d.toNat, f.a.toNat, f.b.toNat]
  | .imax f => [f.d.toNat, f.a.toNat, f.b.toNat]
  | .umin f => [f.d.toNat, f.a.toNat, f.b.toNat]
  | .umax f => [f.d.toNat, f.a.toNat, f.b.toNat]
  | .and f => [f.d.toNat, f.a.toNat, f.b.toNat]
  | .or f => [f.d.toNat, f.a.toNat, f.b.toNat]
  | .xor f => [f.d.toNat, f.a.toNat, f.b.toNat]
  | .andn f => [f.d.toNat, f.a.toNat, f.b.toNat]
  | .shl f => [f.d.toNat, f.a.toNat, f.b.toNat]
  | .shr f => [f.d.toNat, f.a.toNat, f.b.toNat]
  | .sar f => [f.d.toNat, f.a.toNat, f.b.toNat]
  | .iaddi f => [f.d.toNat, f.a.toNat]
  | .imuli f => [f.d.toNat, f.a.toNat]
  | .andi f => [f.d.toNat, f.a.toNat]
  | .ori f => [f.d.toNat, f.a.toNat]
  | .xori f => [f.d.toNat, f.a.toNat]
  | .shli f => [f.d.toNat, f.a.toNat]
  | .shri f => [f.d.toNat, f.a.toNat]
  | .sari f => [f.d.toNat, f.a.toNat]
  | .popc f => [f.d.toNat, f.a.toNat]
  | .clz f => [f.d.toNat, f.a.toNat]
  | .brev f => [f.d.toNat, f.a.toNat]
  | .bfx f => [f.d.toNat, f.a.toNat, f.b.toNat]
  | .bfi f => [f.d.toNat, f.a.toNat, f.b.toNat]
  | .iadds f => [f.d.toNat, f.a.toNat, f.b.toNat]
  | .isubs f => [f.d.toNat, f.a.toNat, f.b.toNat]
  | .uadds f => [f.d.toNat, f.a.toNat, f.b.toNat]
  | .usubs f => [f.d.toNat, f.a.toNat, f.b.toNat]
  | .sel f => [f.d.toNat, f.a.toNat, f.b.toNat]
  | .sadd f => regsS [f.sd, f.sa, f.sb]
  | .ssub f => regsS [f.sd, f.sa, f.sb]
  | .smul f => regsS [f.sd, f.sa, f.sb]
  | .smulh f => regsS [f.sd, f.sa, f.sb]
  | .sand f => regsS [f.sd, f.sa, f.sb]
  | .sor f => regsS [f.sd, f.sa, f.sb]
  | .sxor f => regsS [f.sd, f.sa, f.sb]
  | .sshl f => regsS [f.sd, f.sa, f.sb]
  | .sshr f => regsS [f.sd, f.sa, f.sb]
  | .ssar f => regsS [f.sd, f.sa, f.sb]
  | .smin f => regsS [f.sd, f.sa, f.sb]
  | .smax f => regsS [f.sd, f.sa, f.sb]
  | .smov f => regsS [f.sd, f.sa]
  | .saddi f => regsS [f.sd, f.sa]
  | .sandi f => regsS [f.sd, f.sa]
  | .sori f => regsS [f.sd, f.sa]
  | .sxori f => regsS [f.sd, f.sa]
  | .sshli f => regsS [f.sd, f.sa]
  | .sshri f => regsS [f.sd, f.sa]
  | .sldi f => regsS [f.sd]
  | .slit f _ => regsS [f.sd]
  | .slith f _ => regsS [f.sd]
  | .adds f => [f.d.toNat, f.a.toNat] ++ regsS [f.s]
  | .subs f => [f.d.toNat, f.a.toNat] ++ regsS [f.s]
  | .muls f => [f.d.toNat, f.a.toNat] ++ regsS [f.s]
  | .shls f => [f.d.toNat, f.a.toNat] ++ regsS [f.s]
  | .ands f => [f.d.toNat, f.a.toNat] ++ regsS [f.s]
  | .bcast f => [f.d.toNat] ++ regsS [f.s]
  | .lea f => [f.d.toNat, f.a.toNat] ++ regsS [f.s]
  | .icmp f => [f.a.toNat, f.b.toNat]
  | .fcmp f => [f.a.toNat, f.b.toNat]
  | .icmps f => [f.a.toNat] ++ regsS [f.b]
  | .scmp f => regsS [f.sa, f.sb]
  | .mov f => [f.d.toNat, f.a.toNat]
  | .xrd f => [f.d.toNat, indexBase t f.a + f.b.toNat]
  | .xwr f => [indexBase t f.d + f.b.toNat, f.a.toNat]
  | .xset f => regsS [f.a]
  | .xadd f => regsS [f.a]
  | .xget f => regsS [f.d]
  | .fadd f => [f.d.toNat, f.a.toNat, f.b.toNat]
  | .fsub f => [f.d.toNat, f.a.toNat, f.b.toNat]
  | .fmul f => [f.d.toNat, f.a.toNat, f.b.toNat]
  | .fmac f => [f.d.toNat, f.a.toNat, f.b.toNat]
  | .fnmac f => [f.d.toNat, f.a.toNat, f.b.toNat]
  | .fmin f => [f.d.toNat, f.a.toNat, f.b.toNat]
  | .fmax f => [f.d.toNat, f.a.toNat, f.b.toNat]
  | .fabs f => [f.d.toNat, f.a.toNat]
  | .fneg f => [f.d.toNat, f.a.toNat]
  | .fcpys f => [f.d.toNat, f.a.toNat, f.b.toNat]
  | .frcp f => [f.d.toNat, f.a.toNat]
  | .frsq f => [f.d.toNat, f.a.toNat]
  | .fsqrt f => [f.d.toNat, f.a.toNat]
  | .fexp2 f => [f.d.toNat, f.a.toNat]
  | .flog2 f => [f.d.toNat, f.a.toNat]
  | .fsin f => [f.d.toNat, f.a.toNat]
  | .fcos f => [f.d.toNat, f.a.toNat]
  | .ftanh f => [f.d.toNat, f.a.toNat]
  | .cvtff f => [f.d.toNat, f.a.toNat]
  | .cvtfi f => [f.d.toNat, f.a.toNat]
  | .cvtif f => [f.d.toNat, f.a.toNat]
  | .cvtii f => [f.d.toNat, f.a.toNat]
  | .idot4 f => [f.d.toNat, f.a.toNat, f.b.toNat]
  | .idot8 f => [f.d.toNat, f.a.toNat, f.b.toNat]
  | .idot16 f => [f.d.toNat, f.a.toNat, f.b.toNat]
  | .fdotb f => [f.d.toNat, f.a.toNat, f.b.toNat]
  | .ldq f => (List.range 8).map (f.d.toNat + ·) ++ regsS [f.s]
  | .stq f => (List.range (spanOf (if f.fmt == 8 then 1 else 2 ^ f.fmt.toNat))).map (f.d.toNat + ·) ++ regsS [f.s]
  | .shfl f => [f.d.toNat, f.a.toNat, f.b.toNat]
  | .shflx f => [f.d.toNat, f.a.toNat, f.b.toNat]
  | .bcl f => [f.d.toNat, f.a.toNat] ++ regsS [f.b]
  | .ballot f => [f.d.toNat] ++ regsS [f.b]
  | .pcnt f => [f.d.toNat]
  | .pfirst f => [f.d.toNat]
  | .scan f => [f.d.toNat, f.a.toNat]
  | .scanx f => [f.d.toNat, f.a.toNat]
  | .red f => [f.d.toNat, f.a.toNat]
  | .compact _ => List.range 288
  | .lext f => [f.a.toNat] ++ regsS [f.d, f.b]
  | .lextId f => [f.d.toNat]
  | .lextHome f => [f.d.toNat]
  | .lins f => [f.d.toNat] ++ regsS [f.a, f.b]
  | .ldl f => [f.d.toNat] ++ regsS [f.s]
  | .ldg f => [f.d.toNat, f.x.toNat] ++ regsS [f.s]
  | .ldp f => [f.d.toNat] ++ regsS [f.s]
  | .ldpg f => [f.d.toNat, f.x.toNat] ++ regsS [f.s]
  | .ldu f => [f.d.toNat] ++ regsS [f.s]
  | .ldlRo f => [f.d.toNat] ++ regsS [f.s]
  | .ldgRo f => [f.d.toNat, f.x.toNat] ++ regsS [f.s]
  | .lduRo f => [f.d.toNat] ++ regsS [f.s]
  | .ldlNt f => [f.d.toNat] ++ regsS [f.s]
  | .ldgNt f => [f.d.toNat, f.x.toNat] ++ regsS [f.s]
  | .stl f => [f.d.toNat] ++ regsS [f.s]
  | .stg f => [f.d.toNat, f.x.toNat] ++ regsS [f.s]
  | .stp f => [f.d.toNat] ++ regsS [f.s]
  | .stpg f => [f.d.toNat, f.x.toNat] ++ regsS [f.s]
  | .stu f => [f.d.toNat] ++ regsS [f.s]
  | .stlNt f => [f.d.toNat] ++ regsS [f.s]
  | .stgNt f => [f.d.toNat, f.x.toNat] ++ regsS [f.s]
  | .ldacq f => regsS [f.sd, f.sa]
  | .strel f => regsS [f.sa, f.sb]
  | .l1inv f => regsS [f.sa, f.sb]
  | .l1wb f => regsS [f.sa, f.sb]
  | .pfd f => regsS [f.sa]
  | .aadd f => [f.d.toNat, f.d.toNat + 1] ++ regsS [f.s]
  | .afadd f => [f.d.toNat, f.d.toNat + 1] ++ regsS [f.s]
  | .amin f => [f.d.toNat, f.d.toNat + 1] ++ regsS [f.s]
  | .amax f => [f.d.toNat, f.d.toNat + 1] ++ regsS [f.s]
  | .afmax f => [f.d.toNat, f.d.toNat + 1] ++ regsS [f.s]
  | .aand f => [f.d.toNat, f.d.toNat + 1] ++ regsS [f.s]
  | .aor f => [f.d.toNat, f.d.toNat + 1] ++ regsS [f.s]
  | .axor f => [f.d.toNat, f.d.toNat + 1] ++ regsS [f.s]
  | .axch f => [f.d.toNat, f.d.toNat + 1] ++ regsS [f.s]
  | .acas f => [f.d.toNat, f.d.toNat + 1, f.d.toNat + 2] ++ regsS [f.s]
  | .bari f => regsS [f.q]
  | .cpy f => groupS f.p (if f.f.extractLsb' 2 2 == 0 then 3 else if f.f.extractLsb' 2 2 == 1 then 4 else 5)
  | .cpyp f => groupS f.p 3
  | .gath f => groupS f.p 5
  | .scat f => groupS f.p 5
  | .bclose f => regsS [f.p]
  | .bwait f => regsS [f.q]
  | .bstat f => regsS [f.p]
  | .push f => if f.f.extractLsb' 0 2 == 2 then [f.p.toNat] else regsS [f.p]
  | .pop f => (if f.f.extractLsb' 0 2 == 2 then [f.p.toNat] else regsS [f.p]) ++ regsS [f.q]
  | .pstat f => regsS [f.p]
  | .mma f => regsS [f.w]
  | .mmaz f => regsS [f.w]
  | .accrd f => [f.p.toNat] ++ regsS [f.q]
  | .accwr f => [f.p.toNat] ++ regsS [f.q]
  | .gang f => regsS [f.p]
  | .mapset f => regsS [f.p]
  | .winset f => regsS [f.p]
  | .clook f => [f.q.toNat] ++ regsS [f.p, f.w]
  | .cnode f => groupS f.q 8 ++ regsS [f.p]
  | .cread f => [f.p.toNat] ++ regsS [f.q, f.w]
  | .cwalk f => regsS [f.p, f.q, f.w]
  | .cref f => regsS [f.p]
  | .crel f => regsS [f.p]
  | .croot f => regsS [f.p, f.q]
  | .cswap f => regsS [f.p, f.q, f.w]
  | .cout f => groupS f.p 4
  | .cnew f => regsS [f.q, f.w]
  | .ldv f => [f.p.toNat] ++ regsS [f.q, f.w]
  | .publ f => regsS [f.p, f.q, f.w]
  | .vstep f => regsS [f.p, f.q]
  | .vpin f => regsS [f.q, f.w]
  | .vunpin f => regsS [f.q, f.w]
  | .stepa f => regsS [f.q]
  | .stepr f => regsS [f.p, f.q]
  | .pexc f => regsS [f.q]
  | .plead f => regsS [f.q]
  | .qopen f => groupS f.p 3
  | .qcont f => groupS f.p 2
  | .qwait f => regsS [f.p, f.q]
  | .qread f => groupS f.p 2
  | .qstat f => regsS [f.p, f.q]
  | .rld f => f.p.toNat :: (if f.f.getLsbD 2 then [f.w.toNat] else []) ++ regsS [f.q]
  | .rst f => f.p.toNat :: (if f.f.getLsbD 2 then [f.w.toNat] else []) ++ regsS [f.q]
  | .putsig f => groupS f.p 5
  | .ratom f => [f.p.toNat, f.p.toNat + 1] ++ (if f.f.extractLsb' 0 4 == 9 then [f.p.toNat + 2] else []) ++ regsS [f.q]
  | .srd f => regsS [f.p]
  | .swr f => regsS [f.q]
  | .tlbinv f => regsS [f.p, f.q]
  | .keykill f => regsS [f.p]
  | .haltStop f => regsS [f.q]
  | .haltSwap f => regsS [f.q]
  | .haltGo f => regsS [f.q]
  | .launch f => regsS [f.p, f.q]
  | .launchPro f => regsS [f.p, f.q]
  | .lcancel f => regsS [f.p, f.q]
  | .lcancelAgain f => regsS [f.p, f.q]
  | .qpost f => regsS [f.p, f.q, f.w]
  | .qtake f => groupS f.p 2
  | .tspawn f => groupS f.p 4 ++ regsS [f.q]
  | .tsteal f => groupS f.p 4 ++ regsS [f.q]
  | _ => []

/-- A row and minor of vector words: they go to VA or VB (R34). -/
def isVectorRow (r : Nat × Nat) : Bool :=
  match r with
  | (0x04, _) | (0x05, _) | (0x06, _) | (0x09, _) | (0x0A, _) | (0x0B, _) | (0x0C, _) | (0x0D, _) => true
  | (0x11, _) | (0x12, _) | (0x13, _) | (0x14, _) | (0x18, _) => true
  | (0x10, m) => Nat.blt m 3
  | _ => false

/-- The pipe of a row and minor (R34): 0 S, 1 vector, 2 M, 3 E; 4 for a row that the table of pipes does not hold. -/
def pipeOfRow (r : Nat × Nat) : Nat :=
  if isVectorRow r then 1 else
  match r with
  | (0x01, _) | (0x02, _) | (0x03, _) | (0x07, _) | (0x08, _) | (0x0E, _) => 0
  | (0x10, m) => if Nat.ble m 7 then 0 else 4
  | (0x15, _) | (0x20, _) | (0x21, _) | (0x22, _) | (0x24, _) => 2
  | (0x25, _) | (0x28, _) | (0x29, _) | (0x2C, _) | (0x30, _) | (0x34, _) | (0x35, _) | (0x36, _) | (0x38, _) | (0x3C, _)
  | (0x3E, _) => 3
  | _ => 4

/-- A word of the row can transfer control and must be the last of its chain (R35). -/
def isTransferRow (r : Nat × Nat) : Bool :=
  match r with
  | (0x01, m) => Nat.blt m 4
  | (0x02, m) => Nat.blt m 5
  | (0x03, _) => true
  | (0x3C, m) => m == 0 || m == 1 || m == 6 || m == 7
  | _ => false

/-- Row and minor of a word as its bits give them (R43); the minor of formats PC and PCS is their COND. -/
def rowOfWord (w : Code) : Nat × Nat := ((w.extractLsb' 25 6).toNat, (w.extractLsb' 21 4).toNat)

/-- The word is a SLIT or SLITH (R52). -/
def isLiteralWord (w : Code) : Bool := rowOfWord w == (0x08, 7) || rowOfWord w == (0x08, 8)

/-! ### Special registers (R99, R145, R245, R291, R317, R345, R368, R373, R394, R411, R428, R434, R440) -/

/-- IMM of a word of row 0x3C (R374). -/
def immOfE (f : FmtE) : Nat := f.w.toNat * 64 + f.f.toNat

/-- Registers that are read at user level and not written: the loop and stack registers, the reuse and matrix counters,
the store's counts, the link registers, the trap registers, PRIVLVL and TQCOUNT. -/
def userRead : List Nat :=
  [0x001, 0x002, 0x003, 0x010, 0x011, 0x012, 0x013, 0x014, 0x016, 0x020, 0x021, 0x022, 0x023, 0x024, 0x025, 0x050, 0x051, 0x052,
   0x053, 0x054, 0x062, 0x063, 0x064, 0x080, 0x082, 0x083, 0x084, 0x085, 0x091, 0x092, 0x093, 0x094, 0x095, 0x096, 0x0A1,
   0x0BC]

/-- Registers that are written at user level too: NFLAGS, LDVLIM, TRAPENT, TSCR. -/
def userWrite : List Nat := [0x030, 0x070, 0x090, 0x097]

/-- Registers that a supervisor reads and writes, those that it only writes included. -/
def supWrite : List Nat :=
  [0x015, 0x017, 0x026, 0x027, 0x040, 0x060, 0x061, 0x071, 0x072, 0x073, 0x074, 0x075, 0x076, 0x077, 0x078, 0x081, 0x086,
   0x098, 0x0A0, 0x0A2, 0x0A3, 0x0A4, 0x0A5, 0x0A6, 0x0A7, 0x0A8, 0x0A9, 0x0AA, 0x0AD, 0x0AE, 0x0B0, 0x0B1, 0x0B2, 0x0B4,
   0x0B6, 0x0BA, 0x0BB]

/-- Registers that a supervisor only reads. -/
def supRead : List Nat := [0x0AB, 0x0AC, 0x0AF, 0x0B3, 0x0B5, 0x0C0, 0x0C4]

/-- Registers that firmware reads and writes, or only writes. -/
def firmWrite : List Nat := [0x0B8, 0x0B9, 0x0C1, 0x0C2, 0x0C3, 0x0C5, 0x0C6]

/-- Registers that firmware only reads. -/
def firmRead : List Nat := [0x0C7, 0x0C8]

/-- The level that an access to a register needs (R369, R377); none where no register has the index. -/
def regLevel (n : Nat) : Option Nat :=
  if userRead.contains n || userWrite.contains n then some 0
  else if supRead.contains n || supWrite.contains n then some 1
  else if firmRead.contains n || firmWrite.contains n then some 2 else none

/-- The register may be written at its level (R377). -/
def regWritable (n : Nat) : Bool := userWrite.contains n || supWrite.contains n || firmWrite.contains n

/-- The rows and minors of the forms a loader-role team may issue (R267). -/
def loaderRow (r : Nat × Nat) : Bool :=
  match r with
  | (0x01, _) | (0x02, _) | (0x03, _) | (0x07, _) | (0x08, _) | (0x22, _) | (0x25, _) | (0x28, _) | (0x29, _) => true
  | (0x10, m) => Nat.ble 3 m
  | (0x3C, m) => m == 0 || m == 2 || m == 7
  | _ => false

/-- The forms a loader-role team may issue: none guarded, no `.v` form of PUSH and POP, and SRD of registers readable at user
level (R267). -/
def loaderMay (i : Instr) : Bool :=
  guardOf i == 0 && loaderRow (rowOf i) &&
  match i with
  | .push f => f.f != 2
  | .pop f => f.f != 2
  | .srd f => regLevel (immOfE f) == some 0
  | _ => true

/-- The forms a control core accepts (R395): on its system thread, or on its prologue thread. -/
def controlMay (sys : Bool) (i : Instr) : Bool :=
  guardOf i == 0 &&
  match rowOf i with
  | (0x01, m) => m == 0 || m == 3 || m == 5
  | (0x02, m) => m == 0 || m == 1 || m == 2 || m == 5 || m == 6
  | (0x03, _) | (0x07, _) | (0x08, _) => true
  | (0x22, m) => Nat.blt m 3
  | (0x35, m) => sys && Nat.ble 1 m
  | (0x3C, m) => sys || m == 0 || m == 7 || (match i with
      | .srd f => regLevel (immOfE f) == some 0
      | _ => false)
  | (0x3E, m) => Nat.blt m 4
  | _ => false

/-- The issuer's level or thread may not use the form (R369, R407), and RETT outside a handler (R374, R376). -/
def privileged (t : Team) (i : Instr) : Bool :=
  match i with
  | .tlbinv _ | .keykill _ | .haltIdle | .haltStop _ | .haltSwap _ | .haltGo _ | .plead _ => t.role != .system
  | .rett _ => t.role != .loader && !t.trap.inh
  | .launch _ | .qtake _ => t.role != .system
  | .launchPro _ | .lcancel _ | .lcancelAgain _ => t.role != .prologue
  | .qpost _ => t.role == .prologue
  | .srd f | .swr f => match regLevel (immOfE f) with
    | some l => Nat.blt t.level l
    | none => false
  | _ => false

/-- The checks made before an instruction's own effect: what the issuer accepts at all, cause 1 of a control core's thread
(R395) or cause 10 of a loader-role team (R267, R407), then causes 2 and 4 in the order of R54, then the predicate numbers
(R103, R175) (log 10). -/
def formCause (t : Team) (i : Instr) : Option Nat :=
  if (t.role == .system && !controlMay true i) || (t.role == .prologue && !controlMay false i) then some 1
  else if t.role == .loader && !loaderMay i then some 10
  else if privileged t i then some 2
  else if !i.wf then some 4
  else if (predsOf i).any fun n => Nat.ble t.pdecl n then some 41
  else none

/-- The instruction is an unchained NOP, which takes no issue cycle (R41). -/
def freeNop (t : Team) (i : Instr) : Bool := !t.chained && !chainBit i && (rowOf i == (0x02, 6))

/-- A run begins with the first word of a chain, and its issue counts when the chain has issued whole; a YIELD in the chain
ends the run (R63, R65). -/
def State.issued (s : State) (k : Nat) (before : Team) (i : Instr) : State :=
  if freeNop before i then s else
  if chainBit i then s.beginRun k else
  let s' := s.countIssue k
  if before.yielded || rowOf i == (0x02, 5) then
    (s'.modTeam k fun t => { t with yielded := false }).endRun (coreOf k) (before.role == .loader)
  else s'

/-- Completes an instruction: the team goes past it (R33, R90). -/
def State.finish (s : State) (k : Nat) (i : Instr) : State :=
  match s.team? k with
  | none => s
  | some t => (s.putTeam k (t.advance (chainBit i) (wordsOf i))).issued k t i

/-- Stalls a team that has not issued: its run ends, where it has one (R22, R63). -/
def State.stallTeam (s : State) (k : Nat) (w : Wait) : State := (s.endOwnRun k).modTeam k fun t => { t with wait := w }

/-- Parks or stalls a team on what the instruction that it issues awaits: its packet has begun, and its run, begun by this
issue if need be, ends (R24, R40, R63, R64). -/
def State.parkTeam (s : State) (k : Nat) (w : Wait) : State :=
  ((s.countIssue k).modTeam k fun t => { t with inPacket := true }).stallTeam k w

/-- The instruction keeps its team from issuing in the next ACLK (R95): LOOP, LOOPI and LBRK, and a push or pop that moved an
entry of the divergence stack. -/
def delays (i : Instr) (before : Team) (after : Option Team) : Bool :=
  (rowOf i).1 == 3 || (match after with
    | some t => t.spilled != before.spilled
    | none => false)

/-- Completes an instruction of a team, as it stood before it, whose effect has left the state (R33, R95). -/
def State.complete (s : State) (k : Nat) (before : Team) (i : Instr) : State :=
  if delays i before (s.team? k) then (s.finish k i).endOwnRun k else s.finish k i

/-- Runs the effect of an encoded instruction for the acting team: the checks before it, then what the effect comes to
(R24, R33, R63, R371). A transfer keeps its team from issuing in the next ACLK, so its run ends (R95). -/
def run (i : Instr) (s : State) (effect : Nat → Team → Did) : Host.Outcome State Fault Refusal :=
  match s.team? s.actor with
  | none => .fault .noIssuer
  | some t =>
    match formCause t i with
    | some c => .next (s.takeTrap s.actor c {})
    | none =>
      match effect s.actor t with
      | .done s' => .next (s'.complete s.actor t i)
      | .jump pc s' => .next (((s'.modTeam s.actor fun u => u.transfer pc).issued s.actor t i).endOwnRun s.actor)
      | .trap c info s' => .next (s'.takeTrap s.actor c info)
      | .park w s' => .next (s'.parkTeam s.actor w)
      | .quit s' => .next s'

end Sys2Proof.Machine
end

