-- ==== Sys2Proof/Machine/Fetch.lean ====
section
/-! DEFINITION. Instruction supply: the quad caches, a fetch and its failures, and the checks of targets and chains
(R32 to R37, R67, R68). -/

namespace Sys2Proof.Machine

/-! ### Translation misses (R384) -/

/-- Adds a waiter to the pending miss of a context's page, or starts one with its TMISS event (R384, R386): the kinds are
bit 0 read, 1 write, 2 fetch, 3 engine. Answers the miss's number. -/
def State.noteMiss (s : State) (c : Nat) (a : Word) (w : Waiter) (kinds : Nat) (source : Word) : State × Nat :=
  let page := sig57 a / 65536
  match Table.first? s.misses fun _ m => m.ctx == c && m.page == page with
  | some (id, m) => ({ s with misses := Table.put s.misses id { m with waiters := m.waiters ++ [w] } }, id)
  | none =>
    let s1 := { s with
      misses := Table.put s.misses s.serial
        { ctx := c, page := page, addr := a, kinds := kinds, source := source, seq := none, waiters := [w] }
      serial := s.serial + 1 }
    (s1.post { kind := 1, cause := 16, ctx := c, addr := a, data := BitVec.ofNat 64 kinds, source := source
               miss := some s.serial }, s.serial)

/-- Parks a team on the translation miss of a fetch: it has not issued (R24, R33, R384). -/
def State.parkOnFetch (s : State) (k : Nat) (t : Team) (a : Word) : State :=
  let r := s.noteMiss t.ctx a (.team k t.uid true a) 4 (sourceOf k t.part)
  r.1.stallTeam k (.miss r.2)

/-- An indirect target is a multiple of 4 and canonical (R33). -/
def targetAddrOk (a : Word) : Bool := a.extractLsb' 0 2 == 0 && canonical a

/-! ### Reading instruction words -/

/-- The page of a fetch: executable, user-level, of class ORD or CXL (R33); or cause 16, or cause 11, with a PTEBAD event
to write (R383). -/
def State.fetchPage (s : State) (die c : Nat) (a : Word) : Except (Nat × Bool) Page :=
  if (s.ctx c).key.isNone then .error (11, false) else
  match s.translate die c a { ex := true } with
  | .page p => if p.cls == 0 || p.cls == 4 then .ok p else .error (11, false)
  | .cause 16 => .error (16, false)
  | .cause 23 => .error (11, true)
  | .cause _ => .error (11, false)

/-- A word of physical memory. -/
def State.codeAt (s : State) (pa : Nat) : Code := BitVec.ofNat 32 (ofBytes (s.bytes pa 4))

/-- The number of the cache line that an address falls in: lines are aligned to 192 bytes (R67). -/
def codeLine (a : Word) : Nat := a.toNat / 192

/-- The cached word of a quad at an address. -/
def Quad.held (q : Quad) (c : Nat) (a : Word) : Option Code :=
  match q.icache.find? fun e => e.1 == c && e.2.1 == codeLine a with
  | some e => e.2.2.getD (a.toNat % 192 / 4) none
  | none => none

/-- A system thread may fetch from an address: it is populated, and firmware's own parts are firmware's (R190, R395). -/
def mayFetch (t : Team) (a : Word) : Bool :=
  isPopulated a.toNat && (!isReserved a.toNat || t.level == 2)

/-- A word as it can be seen without waiting: in the quad cache, or at its home where its page can be fetched. -/
def State.peek (s : State) (k : Nat) (t : Team) (a : Word) : Option Code :=
  let home := match s.fetchPage (dieOf k) t.ctx a with
    | .ok p => some (s.codeAt p.pa)
    | .error _ => none
  match t.role with
  | .system => if mayFetch t a then some (s.codeAt a.toNat) else none
  | .prologue => home
  | _ => ((s.quad (coreOf k / 4)).held t.ctx a).or home

/-- What a fetch comes to. -/
inductive Fetched where
  | word (w : Code)
  /-- The team waits: for a line of the quad cache or for a translation. -/
  | wait (s : State)
  /-- A cause at the word: 11, or 17 of a system thread. -/
  | fault (c : Nat) (s : State)

/-- Asks for a line of a quad's cache, where it is not on its way already (R68, R82). -/
def State.askLine (s : State) (q c line : Nat) : State :=
  if (s.quad q).filling.contains (c, line) then s
  else s.putQuad q { s.quad q with filling := (s.quad q).filling ++ [(c, line)] }

/-- Fetches the word at an address for a team or thread (R33, R67, R68, R395); cause 11 where the supervisor could not serve
its miss (R384). -/
def State.fetch (s : State) (k : Nat) (t : Team) (a : Word) : Fetched :=
  let failed := fun (e : Nat × Bool) =>
    let s1 := if e.2 then s.pteBad k t.ctx a t.part else s
    if e.1 == 16 then Fetched.wait (s1.parkOnFetch k t a) else .fault 11 s1
  if t.lost == some a then .fault 11 s else
  match t.role with
  | .system => if mayFetch t a then .word (s.codeAt a.toNat) else .fault 17 s
  | .prologue =>
    match s.fetchPage (dieOf k) t.ctx a with
    | .ok p => .word (s.codeAt p.pa)
    | .error e => failed e
  | _ =>
    let q := coreOf k / 4
    match (s.quad q).held t.ctx a with
    | some w => .word w
    | none =>
      match s.fetchPage (dieOf k) t.ctx a with
      | .ok _ =>
        let s1 := s.tlbFill (dieOf k) t.ctx a
        let s2 := s1.askLine q t.ctx (codeLine a)
        let c := coreOf k
        .wait ((s2.putCore c { s2.core c with slips := (s2.core c).slips + 1 }).stallTeam k (.line (codeLine a)))
      | .error e => failed e

/-- Lines a quad's instruction cache has room for: 256 KiB of 192 bytes (R67). -/
def icacheRoom : Nat := 1365

/-- A line arrives in a quad's cache (R67): every word of it whose page can be fetched. DESIGN CHOICE: the cache is fully
associative and keeps the lines that were filled last (log 99). -/
def State.fillLine (s : State) (q c line : Nat) : State :=
  let word := fun i =>
    match s.fetchPage (q / 16) c (BitVec.ofNat 64 (192 * line + 4 * i)) with
    | .ok p => some (s.codeAt p.pa)
    | .error _ => none
  let x := s.quad q
  let rest := x.icache.filter fun e => !(e.1 == c && e.2.1 == line)
  s.putQuad q { x with
    icache := ((c, line, (List.range 48).map word) :: rest).take icacheRoom
    filling := x.filling.filter fun f => !(f == (c, line)) }

/-! ### Targets and chains -/

/-- Whether the word at an address is the literal of a SLIT or SLITH: an odd number of words that read as SLIT or SLITH
stand directly before it (R52, log 9). -/
def State.literalAt (s : State) (k : Nat) (t : Team) : Nat → Word → Bool
  | 0, _ => false
  | n + 1, a =>
    match s.peek k t (a - 4) with
    | some w => if isLiteralWord w then !(s.literalAt k t n (a - 4)) else false
    | none => false

/-- A transfer's target is legal (R37): its predecessor is no SLIT or SLITH, and its bit 31 is 0. DESIGN CHOICE: so it is
where the predecessor lies on a page that cannot be fetched (log 101). -/
def State.targetOk (s : State) (k : Nat) (t : Team) : Bool :=
  match s.peek k t (t.pc - 4) with
  | none => true
  | some w => !(w.getLsbD 31) && (!isLiteralWord w || s.literalAt k t (2 ^ 62) (t.pc - 4))

/-- The words of the chain that starts at an address, as far as they can be seen (R33, R35): at most those of its packet. -/
def State.chainWords (s : State) (k : Nat) (t : Team) : Nat → Word → List (Word × Code)
  | 0, _ => []
  | n + 1, a =>
    match s.peek k t a with
    | none => []
    | some w => (a, w) :: (if w.getLsbD 31 then s.chainWords k t n (a + 4) else [])

/-- The words of a list that are bound for a pipe: the row fixes it, whether or not the minor is defined (R34). -/
def inPipe (ws : List (Word × Code)) (p : Nat) : Nat := (ws.filter fun w => pipeOfRow (rowOfWord w.2) == p).length

/-- Words of a packet from an address on (R32). -/
def packetRoom (a : Word) : Nat := 3 - a.toNat % 12 / 4

/-- Fetches the words that follow in the chain of an address, before any of them executes (R36): a state in which the team
waits for one of them, if it must. One that cannot be fetched leaves the chain to be judged by the words before it, and
raises its cause when it is reached (R33, R39; log 100). -/
def State.fetchChain (s : State) (k : Nat) (t : Team) : Nat → Word → Code → Option State
  | 0, _, _ => none
  | n + 1, a, w =>
    if !w.getLsbD 31 then none else
    match s.fetch k t (a + 4) with
    | .word w' => s.fetchChain k t n (a + 4) w'
    | .wait s' => some s'
    | .fault _ _ => none

/-- The chain that starts at the team's next word is legal (R35, R90, R185). -/
def State.chainOk (s : State) (k : Nat) (t : Team) : Bool :=
  let room := packetRoom t.pc
  let ws := s.chainWords k t room t.pc
  let linked := ws.filter fun w => w.2.getLsbD 31
  Nat.blt linked.length room &&
  Nat.ble (inPipe ws 0) 1 && Nat.ble (inPipe ws 2) 1 && Nat.ble (inPipe ws 3) 1 && Nat.ble (inPipe ws 1) 2 &&
  !(linked.any fun w => isTransferRow (rowOfWord w.2) || isLiteralWord w.2) &&
  !(Nat.blt 1 (inPipe ws 1) && ws.any fun w => rowOfWord w.2 == (0x18, 11)) &&
  (t.trap.inh || !(linked.any fun w => t.loops.any fun l => l.last == w.1))

/-- The cause of a word that does not decode (R54): a control core does not accept JOIN and EXIT at all, whatever their fields
(R395; logs 10, 98). -/
def undecoded (t : Team) (e : DecodeError) : Nat :=
  match e with
  | .undef => 1
  | .badField => if t.role == .system || t.role == .prologue then 1 else 4

/-- The cause that a fetched word raises before its instruction is looked at: an illegal target or chain, or a word that does
not decode (R35 to R37, R54). -/
def State.wordCause (s : State) (k : Nat) (t : Team) (w : Code) : Option Nat :=
  if t.target && !s.targetOk k t then some 3
  else if !t.chained && !s.chainOk k t then some 3
  else match rawDecode w 0 with
  | .error e => some (undecoded t e)
  | .ok _ => none

/-- A pending value of the team goes to a register that the word touches (R23). -/
def State.scoreboard (s : State) (t : Team) (i : Instr) : Bool :=
  s.pendings.any fun p => p.2.team == t.uid &&
    p.2.targets.any fun g => match g with
      | .slice r _ _ _ _ _ => (touchOf t i).contains r
      | .scalar r _ => (touchOf t i).contains (256 + r.toNat)

/-- The slices that the word's registers map to are brought back from the spill area before it is executed, and are the ones
read last (R129): those of its passes, or of every mask word for a word of row 0x18, which reads across the team. COMPACT
brings them back register by register (R185). -/
def State.bringBack (s : State) (k : Nat) (t : Team) (i : Instr) : State :=
  if !isCoreKey k || rowOf i == (0x18, 11) then s else
  let rows := if (rowOf i).1 == 0x18 then List.range t.rows else t.passes.filter fun row => Nat.ble t.resume row
  s.readSlices (coreOf k) (((touchOf t i).filter fun r => Nat.blt r 256).flatMap fun r => rows.map fun row => s.nameOf k r row)

/-- The team's next word, as far as it can be seen, waits for a value on its way to a register (R22, R23). -/
def State.stalled (s : State) (k : Nat) (t : Team) : Bool :=
  (s.pendings.any fun p => p.2.team == t.uid) && t.raised.isNone &&
  match s.peek k t t.pc with
  | none => false
  | some w => (s.wordCause k t w).isNone && match rawDecode w 0 with
    | .ok i => s.scoreboard t i
    | .error _ => false

end Sys2Proof.Machine
end

