-- ==== Sys2Proof/Machine/Lanes.lean ====
section
/-! DEFINITION. The passes of a vector instruction: poison, reuse, the slice store's counters, and writing lanes (R19, R102,
R124 to R135, R205). -/

namespace Sys2Proof.Machine

/-- The lanes of mask words from lo on and below hi. -/
def rowsMask (lo hi : Nat) : Mask :=
  if Nat.ble hi lo then 0 else BitVec.ofNat 1024 ((2 ^ (32 * (hi - lo)) - 1) * 2 ^ (32 * lo))

/-- Slices declared by the teams of a core (R128); a loader takes none (R265). -/
def State.slicesDeclared (s : State) (core : Nat) : Nat :=
  (s.teams.filter fun e => isCoreKey e.1 && coreOf e.1 == core && e.2.role != .loader).foldl
    (fun n e => n + e.2.vdecl * e.2.rows) 0

/-! ### Reuse (R132 to R135) -/

/-- What a form gives to its key: the word, whether it is load-like, its sources, its destination and its scalars. -/
structure ReuseForm where
  word : Code
  load : Bool := false
  sources : List Nat
  dest : Nat
  guard : BitVec 4
  scalars : List Word := []
  deriving DecidableEq, Repr

/-- The key of one pass (R132): the word, the names of its sources and, where it does not write all 32 lanes, of the
destination's previous slice, its masks and scalars. -/
def State.reuseKey (s : State) (k : Nat) (t : Team) (r : ReuseForm) (row : Nat) (wrote : BitVec 32) : ReuseEntry :=
  { word := r.word, sources := r.sources.map fun x => s.nameOf k x row
    old := if wrote == BitVec.allOnes 32 then 0 else s.nameOf k r.dest row
    act := rowBits t.active row
    grd := if r.guard == 0 then 0 else rowBits (t.guard r.guard) row
    scalars := r.scalars, row := if r.load then row else 0, ctx := t.ctx, team := t.uid, load := r.load
    footprint := [], name := 0, result := [], flags := 0, step := 0 }

/-- Two keys are equal in every part (R132). -/
def ReuseEntry.matches (a b : ReuseEntry) : Bool :=
  a.word == b.word && a.sources == b.sources && a.old == b.old && a.act == b.act && a.grd == b.grd &&
    a.scalars == b.scalars && a.row == b.row && a.ctx == b.ctx && a.load == b.load

/-- The entry that a key hits: one whose pass has completed (R134). -/
def State.reuseFind (s : State) (core : Nat) (key : ReuseEntry) : Option ReuseEntry :=
  (s.core core).reuse.find? fun e => e.flight == 0 && e.matches key

/-- A lookup, which counts, and a hit, which counts and makes the entry the one used last (R134, R145). -/
def State.reuseLook (s : State) (core : Nat) (key : ReuseEntry) : State :=
  let x := s.core core
  match s.reuseFind core key with
  | some e => s.putCore core { x with
      rulook := x.rulook + 1, ruhits := x.ruhits + 1, reuse := e :: x.reuse.filter fun o => !(o.matches key) }
  | none => s.putCore core { x with rulook := x.rulook + 1 }

/-- Installs an entry whose slices are all still in use, replacing the least recently used one where the table is full (R127,
R134, log 12). -/
def State.reuseInstall (s : State) (core : Nat) (e : ReuseEntry) : State :=
  let x := s.core core
  if (e.old :: (e.sources ++ e.result)).all fun id => id == 0 || x.slices.any fun y => y.id == id then
    s.putCore core { x with reuse := (e :: x.reuse.filter fun o => !(o.matches e)).take 1024 }
  else s

/-- Writes a value that arrived into its register: a slice written whole loses its poison, and one that comes with a cause
is marked (R197, R205, R206). -/
def Team.deliver (t : Team) : Target → Team
  | .scalar r v => t.setS r v
  | .slice r row lanes vals cause a =>
    let m : Mask := lanes.setWidth 1024 <<< (32 * row)
    let t1 := t.writeV r m fun l => vals.getD (l - 32 * row) 0
    if cause == 0 then t1
    else { t1 with poison := { reg := r, row := row, cause := cause, addr := a } ::
      t1.poison.filter fun p => !(p.reg == r && p.row == row) }

/-- The slice that a target writes: register and mask word. -/
def Target.slice? : Target → Option (Nat × Nat)
  | .slice r row _ _ _ _ => some (r, row)
  | .scalar _ _ => none

/-- Values arrive in the registers of a team: the slices they write are named (R124, R197). -/
def State.deliverTo (s : State) (k : Nat) (gs : List Target) : State :=
  match s.team? k with
  | none => s
  | some t =>
    let u := gs.foldl (fun v g => v.deliver g) t
    (s.putTeam k u).nameArrived k u (gs.filterMap fun g => g.slice?)

/-- One pass writes slices of its team now; cause 42 where the slice store has no place for one (R124, R129). -/
def State.writePass (s : State) (k row : Nat) (after : Team) (rs : List (Nat × Nat)) : Except Did State :=
  match s.nameSlices k after rs with
  | none => .error (.trap 42 { pass := row } s)
  | some s1 => .ok (s1.putTeam k after)

/-- The entries that values on their way complete hold their results once those have arrived (R134). -/
def State.completeEntries (s : State) (k id : Nat) (t : Team) (gs : List Target) : State :=
  let x := s.core (coreOf k)
  if x.reuse.isEmpty then s else
  let rs := gs.filterMap fun g => g.slice?
  let spoiled := fun (e : ReuseEntry) => rs.any fun r => r.2 == e.row && (t.poisonOf r.1 r.2).isSome
  s.putCore (coreOf k) { x with
    reuse := (x.reuse.filter fun e => e.flight != id || !spoiled e).map fun e =>
      if e.flight == id then
        { e with flight := 0, result := (rs.filter fun r => r.2 == e.row).map fun r => s.nameOf k r.1 r.2 }
      else e }

/-- Writes the recorded result of a hit into the lanes of a pass, whose destination maps to it (R134). -/
def State.reuseTake (s : State) (k : Nat) (d row : Nat) (m : Mask) (e : ReuseEntry) : State :=
  let core := coreOf k
  let put := fun (b : State) (i id : Nat) =>
    let val := (b.core core).sliceVal id
    (b.modTeam k fun u => u.writeV (d + i) (m &&& rowsMask row (row + 1)) fun l => val.getD (l - 32 * row) 0).putCore core
      ((b.core core).mapSlice (sliceKey k (d + i) row) id)
  (((List.range e.result.length).zip e.result).foldl (fun (b : State) x => put b x.1 x.2) s).modTeam k fun u => u.flag e.flags

/-- Whether a form is looked up under the team's policy (R133, R141). -/
def Team.reuses (t : Team) (load : Bool) : Bool := t.policy == 0 || (t.policy == 1 && !load)

/-- Bits of the destination field of a word in its key (R132): bits [16:12], or P of format E at [20:16]. -/
def destBits (w : Code) : Code :=
  match pipeOfRow (rowOfWord w) with
  | 3 => 0x001F0000
  | _ => 0x0001F000

/-- The word of a form with C and the destination field zero, as a key holds it (R132). -/
def keyWord (i : Instr) : Code :=
  let w := (encode i).headD 0
  w &&& 0x7FFFFFFF#32 &&& ~~~(destBits w)

/-! ### The passes -/

/-- The executed passes from the one at which the instruction resumes (R19, R376). -/
def Team.passesLeft (t : Team) : List Nat := t.passes.filter fun k => Nat.ble t.resume k

/-- The first pass left that reads a poisoned slice (R205). -/
def Team.poisonStop (t : Team) (srcs : List Nat) : Option (Nat × Poison) :=
  t.passesLeft.findSome? fun k => srcs.findSome? fun r => (t.poisonOf r k).map fun p => (k, p)

/-- The flags that the lanes of a mask set (R149). -/
def flagsOf (m : Mask) (w : Nat) (f : Nat → BitVec 6) : BitVec 6 :=
  (lanesOf m w).foldl (fun a l => a ||| f l) 0

/-- The team after the passes of a form on the lanes of a mask: each lane's value and flags are a function of the team as
it stood before (R102, R105, R149). -/
def Team.compute (t : Team) (d : Nat) (m : Mask) (f : Nat → Word × BitVec 6) : Team :=
  ((t.writeV d m fun l => (f l).1).flag (flagsOf m t.width fun l => (f l).2))

/-- What one executed pass does to the slice store and the reuse table (R124 to R134): the lookup is made where the form is
eligible, and its result is named, unless the table answers; a copy of whole slices maps its destination to its source's
slice (R139). None where no place is free (R129). -/
def State.storePass (s : State) (k : Nat) (t after : Team) (r : ReuseForm) (eligible : Bool) (m : Mask) (fl : BitVec 6)
    (row : Nat) : Option State :=
  let core := coreOf k
  let wrote := rowBits m row
  let ids := r.sources.map fun x => s.nameOf k x row
  let key := s.reuseKey k t r row wrote
  let looks := eligible && t.reuses r.load
  let s2 := if looks then s.reuseLook core key else s
  let map := fun (b : State) (id : Nat) => b.putCore core ((b.core core).mapSlice (sliceKey k r.dest row) id)
  match (if looks then s.reuseFind core key else none) with
  | some e => some (map s2 (e.result.headD 0))
  | none =>
    if !eligible && wrote == BitVec.allOnes 32 && ids.length == 1 then some (map s2 (ids.headD 0)) else
    let spoiled := (after.poisonOf r.dest row).isSome
    match s2.nameValue core (s2.slicesDue core) (after.slice r.dest row) spoiled (s.nameOf k r.dest row :: ids) with
    | none => none
    | some (s3, id) => some (map (if looks && !spoiled then s3.reuseInstall core { key with result := [id], flags := fl } else s3) id)

/-- The same for pass after pass; and the first for which no place is free. -/
def State.storePasses (s : State) (k : Nat) (t after : Team) (r : ReuseForm) (eligible : Bool) (m : Mask)
    (fl : Nat → BitVec 6) : List Nat → State × Option Nat
  | [] => (s, none)
  | row :: rest =>
    match s.storePass k t after r eligible m (fl row) row with
    | none => (s, some row)
    | some s' => s'.storePasses k t after r eligible m fl rest

/-- Runs one pass after another, each on the team as it then stands (R19, R204). -/
def passLoop (k : Nat) (one : State → Team → Nat → Except Did State) : List Nat → State → Did
  | [], s => .done s
  | row :: rest, s =>
    match s.team? k with
    | none => .quit s
    | some t => match one s t row with
      | .error d => d
      | .ok s' => passLoop k one rest s'

/-- Runs the passes of a vector form that writes one register: those before a poisoned source, and before one for which the
slice store has no place, have completed (R19, R39, R129, R205). -/
def vectorPasses (s : State) (k : Nat) (t : Team) (r : ReuseForm) (eligible : Bool) (m : Mask)
    (f : Nat → Word × BitVec 6) : Did :=
  let stop := t.poisonStop r.sources
  let hi := match stop with
    | some (row, _) => row
    | none => 32
  let after := fun hi => t.compute r.dest (m &&& rowsMask t.resume hi) f
  let st := s.storePasses k t (after hi) r eligible m
    (fun row => flagsOf (m &&& rowsMask row (row + 1)) t.width fun l => (f l).2) (t.passesLeft.filter fun row => Nat.blt row hi)
  match st.2, stop with
  | some row, _ => .trap 42 { pass := row } (st.1.putTeam k (after row))
  | none, some (row, p) => .trap p.cause (p.info row) (st.1.putTeam k (after row))
  | none, none => .done (st.1.putTeam k (after 32))

/-- A form of V over two sources, sub-element by sub-element, that may read its destination (R100, R105). -/
def vectorForm (i : Instr) (f : FmtV) (srcs : List Nat) (s : State) (op : Word → Word → Word → Word × BitVec 6) :
    Host.Outcome State Fault Refusal :=
  run i s fun k t =>
    vectorPasses s k t { word := keyWord i, sources := srcs, dest := f.d.toNat, guard := f.g } true (t.takers f.g)
      fun l => op (t.lane f.d.toNat l) (t.lane f.a.toNat l) (t.lane f.b.toNat l)

/-- Applies a function of w-bit numbers to each sub-element of two lanes, no flag (R100, R105). -/
def each2 (w : Nat) (op : Nat → Nat → Nat) (a b : Word) : Word × BitVec 6 :=
  (pack w fun e => op (elem w a e) (elem w b e), 0)

/-- The same of a destination and two sources. -/
def each3 (w : Nat) (op : Nat → Nat → Nat → Nat) (d a b : Word) : Word × BitVec 6 :=
  (pack w fun e => op (elem w d e) (elem w a e) (elem w b e), 0)

/-- The same with saturation (R101, R107). -/
def eachSat (w : Nat) (op : Nat → Nat → Nat × Bool) (a b : Word) : Word × BitVec 6 :=
  (pack w fun e => (op (elem w a e) (elem w b e)).1,
   satFlag ((List.range (64 / w)).any fun e => (op (elem w a e) (elem w b e)).2))

end Sys2Proof.Machine
end

