-- ==== Sys2Proof/Machine/Access.lean ====
section
/-! DEFINITION. The path of a team's memory access: checks, L1, home, scratchpad, release and acquire (R188 to R208). -/

namespace Sys2Proof.Machine

/-- What a memory form is (R195, R204): read or write, the region classes that permit it, non-temporal, read-only. -/
structure AccessForm where
  store : Bool := false
  classes : List Nat
  nt : Bool := false
  ro : Bool := false
  deriving DecidableEq, Repr

/-- The line of the core's L1 that serves an access without a translation: every byte valid and read permitted, or stores
permitted (R188, R192). -/
def State.hit (s : State) (core c : Nat) (a : Word) (z : Nat) (f : AccessForm) : Option Line :=
  if !canonical a then none else
  match s.lineFind core c (sig57 a) with
  | none => none
  | some l =>
    let m := byteMask (sig57 a % 64) z
    if !l.usr || !f.classes.contains l.cls then none
    else if f.store then (if l.wr && (l.cls == 0 || l.cls == 4) then some l else none)
    else if l.rd && l.valid &&& m == m then some l else none

/-- Step 4 of R204 for one address of a team: cause 22, 16, 17 or 23, if any. -/
def State.accessCause (s : State) (k : Nat) (t : Team) (a : Word) (z : Nat) (f : AccessForm) : Option Nat :=
  if (s.ctx t.ctx).key.isNone then some 22
  else if (s.hit (coreOf k) t.ctx a z f).isSome then none
  else match s.translate (dieOf k) t.ctx a { rd := !f.store, wr := f.store } with
    | .page _ => none
    | .cause c => some c

/-- Step 5 of R204 for one address that passed step 4. -/
def State.classCause (s : State) (k : Nat) (t : Team) (a : Word) (z : Nat) (f : AccessForm) : Option Nat :=
  if (s.hit (coreOf k) t.ctx a z f).isSome then none
  else match s.translate (dieOf k) t.ctx a { rd := !f.store, wr := f.store } with
    | .page p => if f.classes.contains p.cls then none else some 19
    | .cause c => some c

/-- The first failing check of a pass over addresses in ascending lane order: alignment of every lane, then step 4 of
every lane, then step 5 (R200, R204): the cause and the address. -/
def State.passCause (s : State) (k : Nat) (t : Team) (as : List Word) (z : Nat) (f : AccessForm) : Option (Nat × Word) :=
  match as.find? fun a => a.toNat % z != 0 with
  | some a => some (18, a)
  | none =>
    match as.findSome? fun a => (s.accessCause k t a z f).map fun c => (c, a) with
    | some r => some r
    | none => as.findSome? fun a => (s.classCause k t a z f).map fun c => (c, a)

/-- The outcome of a failed check at a pass: a miss parks the team until the supervisor serves it, a malformed entry writes
its event, any other cause is a trap (R204, R383, R384). -/
def State.memFault (s : State) (k : Nat) (t : Team) (row c : Nat) (a : Word) (kinds : Nat) : Did :=
  if c == 16 then
    let r := s.noteMiss t.ctx a (.team k t.uid false a) kinds (sourceOf k t.part)
    .park (.miss r.2) (r.1.modTeam k fun u => { u with resume := row })
  else if c == 23 then .trap 23 { pass := row, addr := a } (s.pteBad k t.ctx a t.part)
  else .trap c { pass := row, addr := a } s

/-- The translation of an address that has passed its checks. -/
def State.pageOf (s : State) (k : Nat) (t : Team) (a : Word) (f : AccessForm) : Option Page :=
  match s.translate (dieOf k) t.ctx a { rd := !f.store, wr := f.store } with
  | .page p => some p
  | .cause _ => none

/-- What a load of one lane returns. -/
structure Loaded where
  state : State
  value : Nat
  missed : Bool
  bad : Bool

/-- Bytes o .. o + z - 1 of a line as a number. -/
def lineNumber (d : BitVec 512) (o z : Nat) : Nat := (d.toNat / 2 ^ (8 * o)) % 2 ^ (8 * z)

/-- Loads z bytes that have passed their checks (R188, R197, R202, R203, R205). -/
def State.load (s : State) (k : Nat) (t : Team) (a : Word) (z : Nat) (f : AccessForm) : Loaded :=
  let core := coreOf k
  let o := sig57 a % 64
  match s.hit core t.ctx a z f with
  | some l => { state := s.lineUse core l, value := lineNumber l.data o z, missed := false, bad := false }
  | none =>
    match s.pageOf k t a f with
    | none => { state := s, value := 0, missed := true, bad := false }
    | some p =>
      let s1 := (s.tlbFill (dieOf k) t.ctx a).landAdds core fun f => f.pa == p.pa / 64
      let held := s1.lineFind core t.ctx (sig57 a)
      let l := held.getD (newLine t.ctx (sig57 a) p)
      let full := s1.filled core l f.ro
      let bad := s1.badFrom core (64 * l.pa)
      let v := lineNumber full.data o z
      if bad || (f.nt && held.isNone) then { state := s1, value := v, missed := true, bad := bad }
      else { state := s1.lineUse core { full with rd := true }, value := v, missed := true, bad := false }

/-- The stores of one pass gathered by line: mask and data of each virtual line, later lanes over earlier ones (R201). -/
def gather (ws : List (Word × List Byte)) : Table (BitVec 64 × BitVec 512) :=
  ws.foldl (fun g w =>
    let line := sig57 w.1 / 64
    let o := sig57 w.1 % 64
    let m := byteMask o w.2.length
    let old := Table.getD g line (0, 0)
    let d := BitVec.ofNat 512 (ofBytes w.2 * 2 ^ (8 * o))
    Table.put g line (old.1 ||| m, mergeLine old.2 d m)) []

/-- Load-like reuse entries of a context whose footprint holds a line leave the core (R136). -/
def State.reuseTouched (s : State) (core c line : Nat) : State :=
  if (s.core core).reuse.isEmpty then s else
  s.putCore core { s.core core with
    reuse := (s.core core).reuse.filter fun e => !(e.load && e.ctx == c && e.footprint.contains line) }

/-- The descriptor that an ordinary store writes: KIND 0 where it stores a whole line (R165). -/
def rawDesc (m : BitVec 64) : Option (BitVec 16) := if m == BitVec.allOnes 64 then some 0 else none

/-- Writes bytes into a line that the core's L1 holds or allocates; non-temporal, they go home too and are no longer dirty. A
line that some store wrote whole is written back first, whole as it was stored (R165, R188, R203; log 30). -/
def State.storeInto (s : State) (core : Nat) (l : Line) (m : BitVec 64) (d : BitVec 512) (nt : Bool) : State :=
  let l1 := { l with valid := l.valid ||| m, data := mergeLine l.data d m, ro := false }
  if nt then
    let first := (l.raw && l.dirty != 0 || l.dirty == BitVec.allOnes 64) && m != BitVec.allOnes 64
    let s1 := if first then s.writeBack core l else s
    (s1.lineUse core { l1 with dirty := if first then 0 else l.dirty &&& ~~~m, raw := false }).send core l.ctx l.pa m d (rawDesc m)
  else s.lineUse core { l1 with dirty := l.dirty ||| m, raw := l.raw || m == BitVec.allOnes 64 }

/-- Writes bytes of one line for a team (R188, R203): into the L1, allocating without a fetch; or, non-temporal, to the home
and into a copy that is present. -/
def State.storeLine (s : State) (k : Nat) (t : Team) (line : Nat) (a : Word) (m : BitVec 64) (d : BitVec 512)
    (f : AccessForm) : State :=
  let core := coreOf k
  let s0 := s.reuseTouched core t.ctx line
  match s0.hit core t.ctx a 1 f with
  | some l => s0.storeInto core l m d f.nt
  | none =>
    match s0.pageOf k t a f with
    | none => s0
    | some p =>
      let s1 := s0.tlbFill (dieOf k) t.ctx a
      let held := s1.lineFind core t.ctx (sig57 a)
      if f.nt && held.isNone then s1.send core t.ctx (p.pa / 64) m d (rawDesc m)
      else s1.storeInto core { held.getD (newLine t.ctx (sig57 a) p) with wr := true } m d f.nt

/-- Performs the stores of one pass (R201). -/
def State.store (s : State) (k : Nat) (t : Team) (ws : List (Word × List Byte)) (f : AccessForm) : State :=
  (gather ws).foldl (fun (a : State) g =>
    match ws.find? fun w => sig57 w.1 / 64 == g.1 with
    | some w => a.storeLine k t g.1 w.1 g.2.1 g.2.2 f
    | none => a) s

/-! ### The scratchpad (R199) -/

/-- The part of its block's scratch that a role uses (R404). -/
def Role.part : Role → Nat
  | .loader => 1
  | .storer => 2
  | _ => 0

/-- Two teams are of one block: each role of a pipeline group is a block of one team (R404). -/
def Team.mates (t u : Team) : Bool := t.block == u.block && t.role.part == u.role.part

/-- Accumulator rows of a team's block (R277): of a group only the computer's block has any (R404). -/
def State.accRows (s : State) (t : Team) : Nat :=
  match s.block? t.block with
  | some b => if t.role.part == 0 then b.accRows else 0
  | none => 0

/-- Size of the scratchpad allocation of a team's block. -/
def State.scratchSize (s : State) (t : Team) : Nat :=
  match s.block? t.block with
  | some b => b.scratchSize
  | none => 0

/-- A byte of the scratchpad; one never written reads 0 (log 17). -/
def State.scratchByte (s : State) (t : Team) (o : Nat) : Byte :=
  match s.block? t.block with
  | some b => Table.getD (Table.getD b.scratch t.role.part []) o 0
  | none => 0

/-- Writes bytes of the scratchpad. -/
def State.scratchWrite (s : State) (t : Team) (o : Nat) (bs : List Byte) : State :=
  match s.block? t.block with
  | none => s
  | some b =>
    let old := Table.getD b.scratch t.role.part []
    let new := (List.range bs.length).foldl (fun m i => Memory.setByte m (o + i) (bs.getD i 0)) old
    s.putBlock t.block { b with scratch := Table.put b.scratch t.role.part new }

/-- n bytes of the scratchpad. -/
def State.scratchRead (s : State) (t : Team) (o n : Nat) : List Byte := (List.range n).map fun i => s.scratchByte t (o + i)

/-! ### Release and acquire (R208) -/

/-- Writes on their way from a core for a context. -/
def State.flightsOf (s : State) (core c : Nat) : List Nat :=
  (s.flights.filter fun f => f.2.core == core && f.2.ctx == c).map Prod.fst

/-- Writes back the dirty bytes of the lines of a context that a test names, keeping the lines (R208, R211). -/
def State.clean (s : State) (core c : Nat) (sel : Line → Bool) : State :=
  let dirty := (s.core core).lines.filter fun l => l.ctx == c && l.dirty != 0 && sel l
  let s1 := dirty.foldl (fun (a : State) l => a.writeBack core l) s
  s1.putCore core { s1.core core with
    lines := (s1.core core).lines.map fun l => if l.ctx == c && sel l then { l with dirty := 0, raw := false } else l }

/-- Drops the lines of a context that a test names. -/
def State.drop (s : State) (core c : Nat) (sel : Line → Bool) : State :=
  s.putCore core { s.core core with lines := (s.core core).lines.filter fun l => !(l.ctx == c && sel l) }

/-- An acquire at a scope (R202, R208): 2 QUAD or wider writes back and invalidates the lines of the context but those
marked read-only; 5 POD and 6 SYS invalidate marked lines of REM and CXL pages as well. -/
def State.acquire (s : State) (k : Nat) (t : Team) (scope : Nat) : State :=
  if Nat.blt scope 2 || !isCoreKey k then s else
  (s.clean (coreOf k) t.ctx fun _ => true).drop (coreOf k) t.ctx fun l =>
    !l.ro || (Nat.ble 5 scope && (l.cls == 3 || l.cls == 4))

/-- The team has fabric operations that are not acknowledged (R208, R355). -/
def State.fabricBusy (s : State) (t : Team) : Bool := s.ops.any fun o => o.2.uid == t.uid && o.2.cls == 2

/-- A value that an earlier content-store instruction of a team returns and that has not arrived (R303, R432). -/
def State.valueDue (s : State) (uid : Nat) : Option Nat :=
  (Table.first? s.pendings fun _ p => p.team == uid && p.kind == 3).map Prod.fst

/-- A release at a scope (R208): the state once the write-backs are sent, and what the team still waits for: a value that the
content store returns (R432), acknowledgements, or the fabric (R355). -/
def State.release (s : State) (k : Nat) (t : Team) (scope : Nat) : State × Option Wait :=
  match s.valueDue t.uid with
  | some id => (s, some (.value id))
  | none =>
  if Nat.blt scope 2 || !isCoreKey k then (s, none) else
  let s1 := s.clean (coreOf k) t.ctx fun _ => true
  match s1.flightsOf (coreOf k) t.ctx with
  | [] => if Nat.ble 5 scope && s1.fabricBusy t then (s1, some .fabric) else (s1, none)
  | ids => (s1, some (.acks ids))

/-- Runs what follows a release once it holds: the team waits for its acknowledgements and issues the word again. -/
def afterRelease (s : State) (k : Nat) (t : Team) (scope : Nat) (next : State → Did) : Did :=
  match s.release k t scope with
  | (s1, none) => next s1
  | (s1, some w) => .park w s1

end Sys2Proof.Machine
end

