-- ==== Sys2Proof/Machine/Engines.lean ====
section
/-! DEFINITION. Operations handed to engines and the batches they join (R246 to R252), and the bytes that an engine reads
and writes (R249 to R251, R255). An operation acts when its completion is named (log 24). -/

namespace Sys2Proof.Machine

/-! ### Teams by their identity: resident or in the cellar -/

/-- The resident team of an identity. -/
def State.teamByUid (s : State) (uid : Nat) : Option (Nat × Team) := Table.first? s.teams fun _ t => t.uid == uid

/-- Changes a team, resident or in a cellar (R27, R391). -/
def State.modUid (s : State) (uid : Nat) (f : Team → Team) : State :=
  let one := fun (ts : Table Team) => Table.mapVals ts fun _ t => if t.uid == uid then f t else t
  if (s.teamByUid uid).isSome then { s with teams := one s.teams }
  else { s with cellars := Table.mapVals s.cellars fun _ c => { c with teams := one c.teams } }

/-- A team of the identity exists, resident or in a cellar. -/
def State.uidLives (s : State) (uid : Nat) : Bool :=
  (s.teamByUid uid).isSome || s.cellars.any fun c => c.2.teams.any fun t => t.2.uid == uid

/-- The context does not run: it is in the cellar of its partition, or its partition is stopped or being exchanged. Its
engine operations are kept in replay records (R252, R288, R380). -/
def State.away (s : State) (c : Nat) : Bool :=
  let p := s.part (s.ctx c).part
  (p.cellar == c && p.live != c) || p.swapping || (p.live == c && p.stopped)

/-- Makes ready the teams whose wait a test accepts. -/
def State.wake (s : State) (f : Nat → Team → Bool) : State :=
  { s with teams := Table.mapVals s.teams fun k t => if f k t then { t with wait := .ready } else t }

/-! ### Batches (R247, R251) -/

/-- Starts an operation of a class in the team's open batch (R246): its number. -/
def State.begin (s : State) (k : Nat) (t : Team) (cls : Nat) (w : Work) : State :=
  { s with
    ops := Table.put s.ops s.serial
      { core := coreOf k, key := k, uid := t.uid, ctx := t.ctx, block := t.block, part := t.role.part, launch := t.launch
        cls := cls, batch := if Nat.blt cls 4 then (t.batches cls).opened else 0, issue := t.pc, work := w
        since := s.clock }
    serial := s.serial + 1 }

/-- The done number once every closed and complete batch from it on has counted (R247). -/
def State.doneNumber (s : State) (uid cls : Nat) (b : Batches) : Nat :=
  (List.range b.opened).foldl (fun d _ =>
    if Nat.blt (d + 1) b.opened && !(s.ops.any fun o => o.2.uid == uid && o.2.cls == cls && o.2.batch == d + 1)
    then d + 1 else d) b.done

/-- Writes back and invalidates in a core's L1 the lines of a context that a list names by virtual line (R249). -/
def State.invalidate (s : State) (core c : Nat) (lines : List Nat) : State :=
  (s.clean core c fun l => lines.contains l.va).drop core c fun l => lines.contains l.va

/-- Brings a team's batches of a class up to date after an operation ended or a batch was closed: batches complete in
order, the lines that a completed C batch wrote leave the issuing core's L1, and the teams that wait learn of it (R247,
R248, R249). -/
def State.settle (s : State) (uid cls : Nat) : State :=
  let s1 := match s.teamByUid uid with
    | none => s
    | some (k, t) =>
      let b := t.batches cls
      let d := s.doneNumber uid cls b
      s.invalidate (coreOf k) t.ctx ((b.wrote.filter fun (w : Nat × Nat) => Nat.ble w.1 d).map Prod.snd)
  let s2 := s1.modUid uid fun t =>
    let b := t.batches cls
    let d := s1.doneNumber uid cls b
    t.setBatches cls { b with done := d, wrote := b.wrote.filter fun (w : Nat × Nat) => Nat.blt d w.1 }
  s2.wake fun _ t => t.uid == uid && match t.wait with
    | .batch c n | .close c n => c == cls && Nat.ble n (t.batches cls).done
    | .fabric => true
    | _ => false

/-- Ends an operation, with the fault that stopped it if any: its batch records the fault, or the launch does where the
team is gone (R247, R251, R252). -/
def State.endOp (s : State) (id : Nat) (fail : Option (Nat × Word)) : State :=
  match Table.find? s.ops id with
  | none => s
  | some o =>
    let s1 := { s with ops := Table.del s.ops id }
    let s2 := match fail with
      | none => s1
      | some (c, a) =>
        let f : Failure := { batch := o.batch, cause := c, issue := o.issue, addr := a }
        if s1.uidLives o.uid && Nat.blt o.cls 4 then
          s1.modUid o.uid fun t =>
            t.setBatches o.cls { t.batches o.cls with failed := (t.batches o.cls).failed ++ [f] }
        else if Nat.blt o.cls 4 then s1.unreported o.launch [f] else s1
    let s3 := if Nat.blt o.cls 4 then s2.settle o.uid o.cls else s2
    s3.wake fun k t => coreOf k == o.core && match t.wait with
      | .engine => true
      | .ops ids => !(ids.any fun i => (Table.find? s3.ops i).isSome)
      | _ => false

/-- The lowest failed batch numbered at most n, as its first failure (R251). -/
def Batches.failedUpTo (b : Batches) (n : Nat) : Option Failure :=
  (b.failed.filter fun f => Nat.ble f.batch n).foldl
    (fun (best : Option Failure) f => match best with
      | none => some f
      | some g => if Nat.blt f.batch g.batch then some f else some g) none

/-- The cause and the record that a BWAIT or an RFENCE raises for a failure (R251, R373). -/
def Failure.info (f : Failure) (cls : Nat) : TrapInfo :=
  { addr := f.addr, eng := true, cls := cls, issue := f.issue, batch := BitVec.ofNat 64 f.batch }

/-- Reports a failed batch: its failures are no longer unreported (R251). -/
def Team.reported (t : Team) (cls batch : Nat) : Team :=
  t.setBatches cls { t.batches cls with failed := (t.batches cls).failed.filter fun f => f.batch != batch }

/-! ### What an engine reads and writes -/

/-- Where and why an engine stops (R251): a cause, the address, and whether it was to be written (R386). -/
structure Stop where
  cause : Nat
  addr : Word
  write : Bool := false
  deriving DecidableEq, Repr

/-- What stops an engine at an address of memory, if anything (R251, R255): a page whose miss the supervisor could not serve
stays one that cannot be reached (R384). -/
def State.engineCause (s : State) (o : Op) (a : Word) (write : Bool) (classes : List Nat) : Option Stop :=
  let stop := fun c => some { cause := c, addr := a, write := write }
  if (s.ctx o.ctx).key.isNone then stop 22
  else if o.unserved == some (a.toNat / 65536) then stop 16
  else match s.translate (dieOf o.key) o.ctx a { rd := !write, wr := write } with
    | .cause c => stop c
    | .page p => if classes.contains p.cls then none else stop 19

/-- The physical address of an address that an engine may access. -/
def State.engineAddr (s : State) (o : Op) (a : Word) (write : Bool) : Nat :=
  match s.translate (dieOf o.key) o.ctx a { rd := !write, wr := write } with
  | .page p => p.pa
  | .cause _ => 0

/-- The byte an engine reads at an address: dirty in the issuing core's L1, or at the home (R249). -/
def State.engineByte (s : State) (o : Op) (a : Word) : Byte :=
  let pa := s.engineAddr o a false
  match s.lineFind o.core o.ctx (sig57 a) with
  | some l => if l.dirty.getLsbD (sig57 a % 64) then lineByte l.data (sig57 a % 64) else s.byteFrom o.core pa
  | none => s.byteFrom o.core pa

/-- The byte is dirty in the issuing core's L1, so its home is not read. -/
def State.engineDirty (s : State) (o : Op) (a : Word) : Bool :=
  match s.lineFind o.core o.ctx (sig57 a) with
  | some l => l.dirty.getLsbD (sig57 a % 64)
  | none => false

/-- The descriptor that an engine reads with the bytes of a line, as one unit (R166, R249): KIND 0 of whole-line data that
the issuing core holds or has sent, or the home's; none where that is uncorrectable (R442). -/
def State.engineDesc (s : State) (o : Op) (a : Word) : Option (BitVec 16) :=
  let pa := s.engineAddr o a false
  let mine := (s.flights.reverse.find? fun f => f.2.core == o.core && f.2.pa == pa / 64 &&
    f.2.mask == BitVec.allOnes 64).map fun f => f.2.desc.getD 0
  match s.lineFind o.core o.ctx (sig57 a) with
  | some l => if (l.raw && l.dirty != 0) || l.dirty == BitVec.allOnes 64 then some 0 else mine.or (if s.badDesc pa then none else some (s.desc pa))
  | none => mine.or (if s.badDesc pa then none else some (s.desc pa))

/-- A byte of the scratchpad of an operation's block. -/
def State.engineScratch (s : State) (o : Op) (i : Nat) : Byte :=
  match s.block? o.block with
  | some b => Table.getD (Table.getD b.scratch o.part []) i 0
  | none => 0

/-- Writes bytes of the scratchpad of an operation's block, in order. -/
def State.engineScratchPut (s : State) (o : Op) (ws : List (Nat × Byte)) : State :=
  match s.block? o.block with
  | none => s
  | some b =>
    s.putBlock o.block { b with
      scratch := Table.put b.scratch o.part
        (ws.foldl (fun m w => Memory.setByte m w.1 w.2) (Table.getD b.scratch o.part [])) }

/-- A byte on its way: where to, its value, and where it was read in memory. -/
structure Moved where
  dst : Word
  val : Byte
  src : Option Word
  deriving DecidableEq, Repr

/-- Reads the sources of a transfer in order, up to the first fault of a source or of a destination (R251). -/
def State.pull (s : State) (o : Op) (srcMem dstMem : Bool) :
    List (Word × Word) → List Moved → List Moved × Option Stop
  | [], acc => (acc.reverse, none)
  | (a, d) :: rest, acc =>
    let stop := if srcMem then
        match s.engineCause o a false [0, 1, 4] with
        | some x => some x
        | none =>
          if s.badFrom o.core (s.engineAddr o a false) && !s.engineDirty o a then some { cause := 21, addr := a } else none
      else none
    let stop' := match stop with
      | some x => some x
      | none => if dstMem then s.engineCause o d true [0, 4] else none
    match stop' with
    | some x => (acc.reverse, some x)
    | none =>
      s.pull o srcMem dstMem rest ({ dst := d, val := if srcMem then s.engineByte o a else s.engineScratch o a.toNat
                                     src := if srcMem then some a else none } :: acc)

/-- The last byte that a transfer leaves at offset i of a virtual line. -/
def lastAt (ms : List Moved) (line i : Nat) : Option Moved :=
  ms.reverse.find? fun m => sig57 m.dst == 64 * line + i

/-- The source line whose whole contents a line receives at the same offsets (R255). -/
def wholeSource (ms : List Moved) (line : Nat) : Option Word :=
  match lastAt ms line 0 with
  | some m => match m.src with
    | some a =>
      if a.toNat % 64 == 0 && (List.range 64).all (fun i => (lastAt ms line i).any fun x =>
          x.src == some (a + BitVec.ofNat 64 i)) then some a else none
    | none => none
  | none => none

/-- Writes bytes of one line for an operation (R249): the issuing core's copy is written back and invalidated first, and
load-like reuse entries of the line leave the core (R136). -/
def State.engineLine (s : State) (o : Op) (line pa : Nat) (mask : BitVec 64) (data : BitVec 512)
    (d : Option (BitVec 16)) : State :=
  let s1 := (s.invalidate o.core o.ctx [line]).reuseTouched o.core o.ctx line
  let s2 := s1.land fun f => f.core == o.core && f.pa == pa / 64
  let s3 := s2.homeWrite (pa / 64) mask data d
  s3.modUid o.uid fun t =>
    let b := t.batches o.cls
    t.setBatches o.cls { b with wrote := if b.wrote.contains (o.batch, line) then b.wrote else b.wrote ++ [(o.batch, line)] }

/-- Writes the bytes of a transfer to memory, line by line in the order in which they are first written; a descriptor to
be taken from a source that is uncorrectable stops it at that line (R255, R442). -/
def State.engineWrite (s : State) (o : Op) (ms : List Moved) : List Nat → State × Option Stop
  | [] => (s, none)
  | line :: rest =>
    match ms.find? fun m => sig57 m.dst / 64 == line with
    | none => s.engineWrite o ms rest
    | some first =>
      let pa := s.engineAddr o first.dst true
      let mask := (List.range 64).foldl
        (fun (b : BitVec 64) i => if (lastAt ms line i).isSome then b ||| (1#64 <<< i) else b) 0
      let data := lineOf ((List.range 64).map fun i => match lastAt ms line i with
        | some m => m.val
        | none => 0)
      match wholeSource ms line with
      | some a =>
        match s.engineDesc o a with
        | none => (s, some { cause := 21, addr := a })
        | some x =>
          (s.engineLine o line pa mask data (some (if isCxl (s.engineAddr o a false) then 0 else x))).engineWrite o ms rest
      | none => (s.engineLine o line pa mask data (some 0)).engineWrite o ms rest

/-- Moves bytes from sources to destinations, in order, as far as no fault stops it. -/
def State.move (s : State) (o : Op) (srcMem dstMem : Bool) (pairs : List (Word × Word)) : State × Option Stop :=
  match s.pull o srcMem dstMem pairs [] with
  | (ms, stop) =>
    if dstMem then
      match s.engineWrite o ms ((ms.map fun m => sig57 m.dst / 64).eraseDups) with
      | (s1, some x) => (s1, some x)
      | (s1, none) => (s1, stop)
    else (s.engineScratchPut o (ms.map fun m => (m.dst.toNat, m.val)), stop)

/-- The stop is a miss that the supervisor may still serve: it only delays the operation (R251, R384). -/
def Stop.waits (x : Stop) (o : Op) : Bool := x.cause == 16 && o.unserved != some (x.addr.toNat / 65536)

/-- The event of a malformed entry that an operation meets (R383). -/
def State.opPteBad (s : State) (o : Op) (x : Stop) : State :=
  if x.cause == 23 then s.pteBad o.key o.ctx x.addr (s.ctx o.ctx).part else s

/-- An operation waits for the miss that stopped it (R251, R384, R386). -/
def State.opMiss (s : State) (id : Nat) (o : Op) (x : Stop) : State :=
  let r := s.noteMiss o.ctx x.addr (.op id x.addr) (if x.write then 10 else 9) (sourceOf o.key (s.ctx o.ctx).part)
  { r.1 with ops := Table.put r.1.ops id { o with miss := some r.2 } }

/-- A stop that an operation meets: a miss is waited for, any other fails it (R251). -/
def State.opStop (s : State) (id : Nat) (o : Op) (x : Stop) : State :=
  if x.waits o then s.opMiss id o x else (s.opPteBad o x).endOp id (some (x.cause, x.addr))

/-- Runs an operation to its end (R251): a miss that the supervisor may still serve only delays it; another fault fails its
batch. -/
def State.runOp (s : State) (id : Nat) (act : State → Op → State × Option Stop) : State :=
  match Table.find? s.ops id with
  | none => s
  | some o =>
    if o.miss.isSome || s.away o.ctx then s else
    match act (s.landAdds o.core fun f => f.ctx == o.ctx) o with
    | (s1, none) => s1.endOp id none
    | (s1, some x) => if x.waits o then s.opMiss id o x else (s1.opPteBad o x).endOp id (some (x.cause, x.addr))

end Sys2Proof.Machine
end

