-- ==== Sys2Proof/Machine/Remote.lean ====
section
/-! DEFINITION. Row 0x38 and the fabric: requests sent, replies, forwarding, replay, timeouts and links (R346 to R368). What other packages do enters as the operands of a step (log 1, 18). -/

namespace Sys2Proof.Machine

/-! ### Values that arrive -/

/-- The old values of z bytes that a returning atomic brings put into its targets, one for each lane in order and
zero-extended (R230, R352). -/
def fillTargets (z : Nat) : List Target → List Word → List Target
  | [], _ => []
  | .scalar r _ :: rest, vs => .scalar r (vs.headD 0) :: fillTargets z rest (vs.drop 1)
  | .slice r row lanes _ _ a :: rest, vs =>
    let ls := (List.range 32).filter fun i => lanes.getLsbD i
    let at_ := fun i => (ls.findIdx fun x => x == i)
    .slice r row lanes
      ((List.range 32).map fun i => if lanes.getLsbD i then BitVec.ofNat 64 ((vs.getD (at_ i) 0).toNat % 2 ^ (8 * z)) else 0) 0 a ::
      fillTargets z rest (vs.drop ls.length)

/-- A target with the bytes of its lanes from the lines that a remote read brings, zero-extended; the slice is poisoned where
one of the lines of its own lanes was (R351). -/
def Target.fromLines (p : Pending) (ls : List (BitVec 512 × Bool)) : Target → Target
  | .scalar r v => .scalar r v
  | .slice r row lanes _ _ a =>
    let mine := p.reads.filter fun x => x.1 / 32 == row
    let bad := mine.find? fun x => (ls.getD x.2.1 (0, false)).2
    .slice r row lanes ((List.range 32).map fun i => match mine.find? fun x => x.1 == 32 * row + i with
      | some x => BitVec.ofNat 64 (lineNumber (ls.getD x.2.1 (0, false)).1 (x.2.2.toNat % 64) p.size)
      | none => 0) (if bad.isSome then 84 else 0) (match bad with
      | some x => x.2.2
      | none => a)

/-- Lanes that a pending operation waits for. -/
def targetLanes (ts : List Target) : Nat :=
  ts.foldl (fun n g => n + match g with
    | .scalar _ _ => 1
    | .slice _ _ lanes _ _ _ => ((List.range 32).filter fun i => lanes.getLsbD i).length) 0

/-! ### Sending -/

/-- Whether a link of the package is up (R368). -/
def State.anyLink (s : State) : Bool := s.links.any fun l => l.2.up

/-- No route to a package remains, as far as this package can tell: it is another of this pod, and every link is down (R363,
log 18). -/
def State.noRoute (s : State) (pkg : Nat) : Bool := pkg != s.pkgnum && pkg / 256 == s.pkgnum / 256 && !s.anyLink

/-- A team's line of another package as one number. -/
def lineKey (uid pkg pa : Nat) : Nat := (uid * 65536 + pkg) * 2 ^ 34 + pa / 64

/-- The next request of a team to a line, with its sequence number (R356). -/
def State.request (s : State) (uid c pkg pa : Nat) (va : Word) (kind : RemoteKind) (signal : Option (Nat × Nat)) :
    State × Sent :=
  let n := Table.getD s.sentSeq (lineKey uid pkg pa) 0 + 1
  ({ s with sentSeq := Table.put s.sentSeq (lineKey uid pkg pa) n },
   { pkg := pkg, va := va, req := { source := s.pkgnum, gctx := (s.ctx c).gid, team := uid, seq := n, addr := pa, kind := kind
                                    signal := signal } })

/-- Requests made one after another: package, physical and virtual address, and what each does. -/
def State.requests (s : State) (uid c : Nat) (xs : List (Nat × Nat × Word × RemoteKind)) (signal : Option (Nat × Nat)) :
    State × List Sent :=
  xs.foldl (fun (a : State × List Sent) x =>
    let r := a.1.request uid c x.1 x.2.1 x.2.2.1 x.2.2.2 signal
    (r.1, a.2 ++ [r.2])) (s, [])

/-- Sends the requests of an operation that began: it is in flight until it is acknowledged. -/
def State.sendOp (s : State) (k : Nat) (t : Team) (cls : Nat) (xs : List (Nat × Nat × Word × RemoteKind)) : State :=
  let r := s.requests t.uid t.ctx xs none
  r.1.begin k t cls (.remote r.2)

/-- An earlier PUTSIG of the team has requests without numbers yet: what the team sends next waits for them (R356). -/
def State.unsent (s : State) (t : Team) : Bool :=
  s.ops.any fun o => o.2.uid == t.uid && match o.2.work with
    | .putsig _ _ _ _ _ _ _ _ none => true
    | _ => false

/-- Lanes of a remote access with what was found of their pages. -/
structure RemoteLane where
  lane : Nat
  addr : Word
  page : Page
  deriving DecidableEq, Repr

/-- The first failing check of R350 over the lanes of an instruction in order: cause, address and mask word. -/
def State.remoteCause (s : State) (k : Nat) (t : Team) (ls : List (Nat × Word)) (z : Nat) (write : Bool) :
    Option (Nat × Word × Nat) :=
  let first := fun (f : Word → Option Nat) => ls.findSome? fun x => (f x.2).map fun c => (c, x.2, x.1 / 32)
  let need : Need := { rd := !write, wr := write }
  match first fun a => if a.toNat % z != 0 then some 18 else none with
  | some r => some r
  | none =>
    match first fun a => if (s.ctx t.ctx).key.isNone then some 22 else if canonical a then none else some 17 with
    | some r => some r
    | none =>
      match first fun a => match s.translate (dieOf k) t.ctx a need with
          | .cause c => some c
          | .page _ => none with
      | some r => some r
      | none => first fun a => match s.translate (dieOf k) t.ctx a need with
          | .page p => if p.cls == 3 then none else some 19
          | .cause c => some c

/-- Where the lanes go: package and physical address of each (R346). -/
def State.remoteLanes (s : State) (k : Nat) (t : Team) (ls : List (Nat × Word)) (write : Bool) : List RemoteLane :=
  ls.filterMap fun x => match s.translate (dieOf k) t.ctx x.2 { rd := !write, wr := write } with
    | .page p => some { lane := x.1, addr := x.2, page := p }
    | .cause _ => none

/-- A fault found before anything leaves the core, at the mask word of the lane that decides it: a miss parks the team, and the
instruction is replayed whole (R350, R371). -/
def State.remoteFault (s : State) (k : Nat) (t : Team) (r : Nat × Word × Nat) (kinds : Nat) : Did :=
  s.memFault k t r.2.2 r.1 r.2.1 kinds

/-- The distinct lines of lanes, in order: package and line address. -/
def linesOf (ls : List RemoteLane) : List (Nat × Nat) := (ls.map fun x => (x.page.pkg, x.page.pa / 64 * 64)).eraseDups

/-- The virtual address of the first lane that lies in a line. -/
def lineVa (ls : List RemoteLane) (y : Nat × Nat) : Word :=
  match ls.find? fun x => (x.page.pkg, x.page.pa / 64 * 64) == y with
  | some x => x.addr
  | none => 0

/-- Sends the reads of lanes, z bytes each, and parks the team until every reply has arrived (R351, R202): the values go to a
register. The word is issued again once they have been written. -/
def State.remoteRead (s : State) (k : Nat) (t : Team) (d z : Nat) (ls : List RemoteLane) : Did :=
  if s.unsent t then .park .fabric s else
  match ls.find? fun x => s.noRoute x.page.pkg with
  | some x => .trap 83 { pass := x.lane / 32, addr := x.addr } s
  | none =>
    let rows := (ls.map fun x => x.lane / 32).eraseDups
    if !s.resultRoom (coreOf k) rows.length then .trap 42 { pass := rows.headD 0 } s else
    let s1 := s.sendOp k t 4 ((linesOf ls).map fun x => (x.1, x.2, lineVa ls x, .read 64))
    let id := s1.serial - 1
    let targets := rows.map fun row =>
      let mine := ls.filter fun x => x.lane / 32 == row
      Target.slice d row (mine.foldl (fun b x => b ||| (1#32 <<< (x.lane % 32))) 0) [] 0
        (match mine with
          | x :: _ => x.addr
          | [] => 0)
    .park (.reply id) { s1 with
      pendings := Table.put s1.pendings id
        { core := coreOf k, team := t.uid, kind := 2, targets := targets, size := z
          reads := ls.map fun x => (x.lane, (linesOf ls).idxOf (x.page.pkg, x.page.pa / 64 * 64), x.addr) } }

/-- The lanes of an access with their addresses: linear, or base plus offsets of a register (R197, R350). -/
def laneAddrs (t : Team) (m : Mask) (base : Word) (z : Nat) (offsets : Option Nat) : List (Nat × Word) :=
  (lanesOf m t.width).map fun l => (l, match offsets with
    | none => base + BitVec.ofNat 64 (z * l)
    | some r => base + t.lane r l)

/-- Bytes of a lane that a size field names (R47): 8, 4, 2, 1. -/
def sizeOfZ (z : BitVec 2) : Nat := 8 / 2 ^ z.toNat

/-- The first poisoned source slice of the executed passes, as a trap (R205). -/
def poisonTrap (t : Team) (srcs : List Nat) (s : State) (next : Unit → Did) : Did :=
  match t.poisonRead srcs with
  | some (row, p) => .trap p.cause (p.info row) s
  | none => next ()

/-! ### Row 0x38 -/

/-- RLD (R351). -/
def execRld (f : FmtE) (s : State) : Host.Outcome State Fault Refusal :=
  run (.rld f) s fun k t =>
    if t.phase == 1 || t.active == 0 then .done s else
    let off := if f.f.getLsbD 2 then some f.w.toNat else none
    poisonTrap t off.toList s fun _ =>
      let z := sizeOfZ (f.f.extractLsb' 0 2)
      let ls := laneAddrs t t.active (t.s f.q) z off
      match s.remoteCause k t ls z false with
      | some r => s.remoteFault k t r 1
      | none => s.remoteRead k t f.p.toNat z (s.remoteLanes k t ls false)

/-- Posts an operation; where one of its requests has no route it fails at that one (R363). -/
def State.postOp (s : State) (k : Nat) (t : Team) (xs : List (Nat × Nat × Word × RemoteKind)) : State :=
  let s1 := s.sendOp k t 2 xs
  match xs.find? fun x => s.noRoute x.1 with
  | some x => s1.endOp (s1.serial - 1) (some (83, x.2.2.1))
  | none => s1

/-- The lines of lanes leave the reuse table of the core (R136, R202). -/
def State.remoteTouched (s : State) (k : Nat) (t : Team) (ls : List RemoteLane) : State :=
  (ls.map fun x => sig57 x.addr / 64).eraseDups.foldl (fun (a : State) line =>
    (a.reuseTouched (coreOf k) t.ctx line).drop (coreOf k) t.ctx fun l => l.va == line && l.cls == 3) s

/-- RST (R352). -/
def execRst (f : FmtE) (s : State) : Host.Outcome State Fault Refusal :=
  run (.rst f) s fun k t =>
    let off := if f.f.getLsbD 2 then some f.w.toNat else none
    poisonTrap t (f.p.toNat :: off.toList) s fun _ =>
      let z := sizeOfZ (f.f.extractLsb' 0 2)
      let ls := laneAddrs t t.active (t.s f.q) z off
      match s.remoteCause k t ls z true with
      | some r => s.remoteFault k t r 2
      | none =>
        let rs := s.remoteLanes k t ls true
        if rs.isEmpty then .done s
        else if s.unsent t then .park .fabric s
        else .done ((s.remoteTouched k t rs).postOp k t
          (rs.map fun r => (r.page.pkg, r.page.pa, r.addr, .write (toBytes z (t.lane f.p.toNat r.lane).toNat))))

/-- RATOM (R352): a posted operation whose values, where it returns any, the scoreboard waits for. -/
def execRatom (f : FmtE) (s : State) : Host.Outcome State Fault Refusal :=
  run (.ratom f) s fun k t =>
    let op := (f.f.extractLsb' 0 4).toNat
    let z := if f.f.getLsbD 4 then 4 else 8
    let p := f.p.toNat
    poisonTrap t (if op == 9 then [p, p + 1, p + 2] else [p, p + 1]) s fun _ =>
      let ls := laneAddrs t t.active (t.s f.q) z (some (p + 1))
      match s.remoteCause k t ls z true with
      | some r => s.remoteFault k t r 3
      | none =>
        let rs := s.remoteLanes k t ls true
        if rs.isEmpty then .done s
        else if s.unsent t then .park .fabric s
        else if !f.f.getLsbD 5 && !s.resultRoom (coreOf k) ((rs.map fun r => r.lane / 32).eraseDups).length then .trap 42 {} s
        else
          let s1 := (s.remoteTouched k t rs).postOp k t (rs.map fun r => (r.page.pkg, r.page.pa, r.addr,
            .atomic op z (f.w.getLsbD 0) (t.lane p r.lane) (if op == 9 then t.lane (p + 2) r.lane else 0) (!f.f.getLsbD 5)))
          let id := s1.serial - 1
          if f.f.getLsbD 5 || (Table.find? s1.ops id).isNone then .done s1
          else
            let rows := (rs.map fun r => r.lane / 32).eraseDups
            let w : Pending := { core := coreOf k, team := t.uid, kind := 2, size := z
                                 targets := rows.map fun row => .slice p row (rowBits t.active row) [] 0 0 }
            .done { s1 with pendings := Table.put s1.pendings id w }

/-! ### PUTSIG (R354) -/

/-- What stops PUTSIG at a remote destination, if anything. -/
def State.putsigCause (s : State) (o : Op) (a : Word) : Option Stop :=
  match s.engineCause o a true [3] with
  | some x => some x
  | none =>
    let pkg := match s.translate (dieOf o.key) o.ctx a { wr := true } with
      | .page p => p.pkg
      | .cause _ => 0
    if s.noRoute pkg then some { cause := 83, addr := a, write := true } else none

/-- The payload's bytes in order, up to the first fault of a source or of a destination (R251, R354). -/
def State.putsigPull (s : State) (o : Op) : List (Word × Word) → List Byte → List Byte × Option Stop
  | [], acc => (acc.reverse, none)
  | (a, d) :: rest, acc =>
    match s.engineCause o a false [0, 4] with
    | some x => (acc.reverse, some x)
    | none =>
      if s.badFrom o.core (s.engineAddr o a false) && !s.engineDirty o a then (acc.reverse, some { cause := 21, addr := a }) else
      match s.putsigCause o d with
      | some x => (acc.reverse, some x)
      | none => s.putsigPull o rest (s.engineByte o a :: acc)

/-- The home of a remote address: package and physical address. -/
def State.remoteHome (s : State) (o : Op) (a : Word) : Nat × Nat :=
  match s.translate (dieOf o.key) o.ctx a { wr := true } with
  | .page p => (p.pkg, p.pa)
  | .cause _ => (0, 0)

/-- The payload's writes, one for each stretch that lies in one destination line. -/
def putsigRuns (dst : Word) (bs : List Byte) : List (Word × List Byte) :=
  let first := dst.toNat % 64
  (List.range ((first + bs.length + 63) / 64)).map fun i =>
    let lo := if i == 0 then 0 else 64 * i - first
    let hi := 64 * (i + 1) - first
    (dst + BitVec.ofNat 64 lo, (bs.take hi).drop lo)

/-- What the flag's request does. -/
def flagKind (val : Word) (add : Bool) : RemoteKind :=
  if add then .atomic 0 8 false val 0 false else .write (toBytes 8 val.toNat)

/-- A PUTSIG stops: a miss is waited for; any other fault fails it once what it has sent is acknowledged, and it sends no flag
(R251, R354). -/
def State.putsigStop (s : State) (id : Nat) (o : Op) (rs : List Sent) (x : Stop) : State :=
  if x.waits o || rs.isEmpty then s.opStop id o x
  else
    let s1 := s.opPteBad o x
    { s1 with ops := Table.put s1.ops id { o with work := .remote rs, fault := some (x.cause, x.addr) } }

/-- Reads and sends the payload as far as it can be reached, then the flag (R354, R356). Where payload and flag lie on one
package and are sent together, that package orders them; else the flag is held until every payload write is acknowledged. -/
def State.putsigGo (s0 : State) (id : Nat) : State :=
  match Table.find? s0.ops id with
  | none => s0
  | some o0 =>
    match o0.work with
    | .putsig src dst len flag val add off rs none =>
      if o0.miss.isSome then s0 else
      let s := s0.landAdds o0.core fun f => f.ctx == o0.ctx
      let got := s.putsigPull o0 ((List.range (len.toNat - off)).map fun i =>
        (src + BitVec.ofNat 64 (off + i), dst + BitVec.ofNat 64 (off + i))) []
      let ws := (putsigRuns (dst + BitVec.ofNat 64 off) got.1).filter fun w => !w.2.isEmpty
      let xs := ws.map fun w => ((s.remoteHome o0 w.1).1, (s.remoteHome o0 w.1).2, w.1, RemoteKind.write w.2)
      let stop := got.2.or (s.putsigCause o0 flag)
      let fl := s.remoteHome o0 flag
      let together := stop.isNone && off == 0 && rs.isEmpty && xs.all fun x => x.1 == fl.1
      let r := s.requests o0.uid o0.ctx xs (if together then some (id, 0) else none)
      let rs' := rs ++ r.2
      let o := if rs.isEmpty && off == 0 then { o0 with since := s.clock } else o0
      let work := Work.putsig src dst len flag val add (off + got.1.length) rs'
      match stop with
      | some x => { r.1 with ops := Table.put r.1.ops id { o with work := work none } }.putsigStop id { o with work := work none } rs' x
      | none =>
        let l := r.1.request o.uid o.ctx fl.1 fl.2 flag (flagKind val add)
          (if together && !xs.isEmpty then some (id, xs.length) else none)
        let w := if together || rs'.isEmpty then .remote (rs' ++ [l.2]) else work (some l.2)
        { l.1 with ops := Table.put l.1.ops id { o with work := w } }.wake fun _ t => t.uid == o.uid && t.wait == Wait.fabric
    | _ => s0

/-- PUTSIG (R354). -/
def execPutsig (f : FmtE) (s : State) : Host.Outcome State Fault Refusal :=
  run (.putsig f) s fun k t =>
    let r := fun i => t.s (f.p + BitVec.ofNat 5 i)
    let len := r 2 &&& 0xFFFFFFFF
    if r 2 >>> 32 != 0 || Nat.blt 1048576 len.toNat then .trap 4 {} s
    else if (r 3).toNat % 8 != 0 then .trap 18 { addr := r 3 } s
    else if s.unsent t then .park .fabric s
    else
      let s1 := s.begin k t 2 (.putsig (r 0) (r 1) len (r 3) (r 4) (f.f.getLsbD 0) 0 [] none)
      .done (s1.putsigGo (s1.serial - 1))

/-- RFENCE (R355, R358). -/
def execRfence (f : FmtE) (s : State) : Host.Outcome State Fault Refusal :=
  run (.rfence f) s fun k t =>
    if s.fabricBusy t then .park .fabric s else
    match t.batchF.failedUpTo t.batchF.opened with
    | some x => .trap x.cause (x.info 2) (s.putTeam k (t.reported 2 x.batch))
    | none => afterRelease s k t (f.f.extractLsb' 0 3).toNat fun s1 => .done s1

/-! ### What arrives -/

/-- Requests of an operation of the fabric. -/
def Work.requests : Work → List Sent
  | .remote rs => rs
  | .putsig _ _ _ _ _ _ _ rs _ => rs
  | _ => []

/-- The mask word of the first lane that request n of a remote read is for (R371). -/
def Pending.rowOf (p : Pending) (n : Nat) : Nat :=
  match p.reads.find? fun x => x.2.1 == n with
  | some x => x.1 / 32
  | none => 0

/-- A reply or an acknowledgement that fails an operation at its request n: the cause is precise at a read that parked its team,
and the batch's otherwise, with the address of that request (R351, R353, R373). -/
def State.failRemote (s : State) (id n c : Nat) : State :=
  match Table.find? s.ops id with
  | none => s
  | some o =>
    let va := match o.work.requests[n]? with
      | some x => x.va
      | none => 0
    let row := match Table.find? s.pendings id with
      | some p => p.rowOf n
      | none => 0
    let s1 := { s with pendings := Table.del s.pendings id }
    if o.cls == 4 then
      (s1.modUid o.uid fun t => { t with resume := row, raised := some (c, va), wait := .ready }).endOp id none
    else s1.endOp id (some (c, va))

/-- The lines of an answer, with those of the requests that have been performed in a CXL pool (R361). -/
def answerLines (rs : List Sent) (ls : List (BitVec 512 × Bool)) : List (BitVec 512 × Bool) :=
  List.zipWith (fun (x : Sent) l => match x.req.kind with
    | .performed d bad _ => (d, bad)
    | _ => l) rs ls

/-- The old values of an answer, with those of the requests that have been performed in a CXL pool (R361). -/
def answerValues (rs : List Sent) (vs : List Word) : List Word :=
  List.zipWith (fun (x : Sent) v => match x.req.kind with
    | .performed _ _ old => old
    | _ => v) rs vs

/-- Values of a remote operation arrive in their team: a read's wakes it to issue its word again (R351, R352). -/
def State.remoteArrived (s : State) (id : Nat) (o : Op) (gs : List Target) : State :=
  let s1 := { s with pendings := Table.del s.pendings id }
  let s2 := match s1.teamByUid o.uid with
    | none => s1
    | some (k, _) =>
      let s2 := s1.deliverTo k gs
      if o.cls == 4 then s2.modTeam k fun t => { t with phase := 1, wait := .ready } else s2.retireEnded
  s2.endOp id none

/-- REMOTE_REPLY (R351, R352): the lines of an RLD or of an .RO load of a REM page, or the old values of a returning RATOM. -/
def execRemoteReply (s : State) : Host.Outcome State Fault Refusal :=
  match s.detail with
  | .answer id r =>
    match Table.find? s.pendings id, Table.find? s.ops id with
    | some p, some o =>
      match r with
      | .lines ls =>
        .next (if o.cls == 4 && ls.length == o.work.requests.length then
          s.remoteArrived id o (p.targets.map fun g => g.fromLines p (answerLines o.work.requests ls)) else s)
      | .done vs =>
        .next (if o.cls != 4 && vs.length == o.work.requests.length then
          s.remoteArrived id o (fillTargets p.size p.targets (answerValues o.work.requests vs)) else s)
      | .poisoned _ => .next (if o.cls == 4 then s else s.failRemote id 0 84)
      | .moved _ _ _ _ => .next s
      | .failed c => .next (s.failRemote id 0 c)
      | .failedAt n c => .next (s.failRemote id n c)
    | _, _ => .next s
  | _ => .next s

/-- A request that a pointer sends to a CXL pool is performed there (R361); cause 21 where no decoder maps the address (R190). -/
def State.atPool (s : State) (r : RemoteRequest) (pa : Nat) : Except Nat (State × RemoteKind) :=
  if !isCxl pa || !Config.cxlMapped (pa / 64) then .error 21 else
  match r.kind with
  | .read _ => .ok (s, .performed (s.lineData pa) (s.badData pa) 0)
  | .write bs => .ok (s.homeWriteRun pa bs (some 0), .performed 0 false 0)
  | .atomic op z u d new _ => match s.atomicAt pa op z u d.toNat new.toNat with
    | some (s1, old) => .ok (s1, .performed 0 false (BitVec.ofNat 64 old))
    | none => .error 84
  | x => .ok (s, x)

/-- Every payload write that a PUTSIG has sent is acknowledged (R354): its flag is sent, where it has its number; a flag whose page
has gone to a CXL pool is performed there (R361). -/
def State.putsigAcked (s : State) (id : Nat) (o : Op) : State :=
  match o.work with
  | .putsig src dst len flag val add off _ none =>
    { s with ops := Table.put s.ops id { o with work := .putsig src dst len flag val add off [] none } }
  | .putsig _ _ _ _ _ _ _ _ (some l) =>
    let s1 := { s with ops := Table.put s.ops id { o with work := .remote [l] } }
    if l.forwards == 0 || !isCxl l.req.addr then s1 else
    match s1.atPool l.req l.req.addr with
    | .ok (s2, _) => s2.endOp id o.fault
    | .error e => s1.failRemote id 0 e
  | _ => s

/-- The operation once a pointer has sent one of its requests on. Where that request belongs to a PUTSIG whose flag was sent with
its payload, they lie on one package no longer: the flag is held until every payload write is acknowledged (R354, R361). -/
def Work.redirect (w : Work) (n : Nat) (x : Sent) : Work :=
  match w with
  | .remote rs =>
    match x.req.signal, (rs.set n x).reverse with
    | some _, l :: ps =>
      .putsig 0 0 0 0 0 false 0 (ps.reverse.map fun y => { y with req := { y.req with signal := none } })
        (some { l with req := { l.req with signal := none } })
    | _, _ => .remote (rs.set n x)
  | .putsig a b c d e g off rs l => .putsig a b c d e g off (rs.set n x) l
  | y => y

/-- Request n of an operation is the flag of a PUTSIG whose payload is not acknowledged yet. -/
def Work.flagHeld (w : Work) (n : Nat) : Bool :=
  match w.requests[n]? with
  | some x => x.req.signal.any fun y => y.2 == n && n != 0
  | none => false

/-- A request as a pointer sends it on, with its number and the line that it was sent to first (R361). -/
def Sent.forward (x : Sent) (pkg pa base : Nat) : Sent :=
  { x with
    pkg := pkg, forwards := x.forwards + 1
    req := { x.req with addr := pa, origin := some (x.req.origin.getD (x.pkg, x.req.addr / 64)), base := base } }

/-- FORWARDING_POINTER (R361): request n of an operation meets a pointer to where its page has gone. -/
def execForwardingPointer (s : State) : Host.Outcome State Fault Refusal :=
  match s.detail with
  | .forwarded id n cxl pkg ptr base =>
    match Table.find? s.ops id with
    | some o =>
      match o.work.requests[n]? with
      | some x =>
        let c := s.ctx o.ctx
        let s1 := (s.putCtx o.ctx { c with fwdcnt := c.fwdcnt + 1 }).post
          { kind := 6, cause := 0, ctx := o.ctx, addr := x.va, data := ptr, source := sourceOf o.key c.part }
        let pa := ptr.toNat / 65536 * 65536 + x.req.addr % 65536
        let put := fun (a : State) (y : Sent) => { a with ops := Table.put a.ops id { o with work := o.work.redirect n y } }
        if Nat.ble 4 x.forwards then .next (s1.failRemote id n 82)
        else if !cxl then .next (put s1 (x.forward pkg pa base))
        else if o.work.flagHeld n then .next (put s1 (x.forward x.pkg pa base))
        else match s1.atPool x.req pa with
          | .ok (s2, kind) =>
            let y := x.forward x.pkg pa base
            .next (put s2 { y with req := { y.req with kind := kind } })
          | .error e => .next (s1.failRemote id n e)
      | none => .next s
    | none => .next s
  | _ => .next s

/-- The operation has sent something that is not acknowledged (R364): requests, or a contribution to another package. -/
def State.inFlight (s : State) (o : Op) : Bool :=
  match o.work with
  | .contribute _ dst refused sent => bitsOf dst 40 16 != s.pkgnum && sent && refused.isNone && o.miss.isNone
  | w => !w.requests.isEmpty

/-- An operation was not acknowledged within FABTO of its first sending; 0 is read as 1 (R339, R364, R368). -/
def State.timedOut (s : State) (o : Op) : Bool :=
  (match o.work with
    | .contribute _ _ _ sent => sent && o.miss.isNone
    | w => !w.requests.isEmpty) && Nat.ble (Nat.max 1 s.fabto.toNat) (2 * (s.clock - o.since))

/-- FABRIC_REPLAY (R364): every operation not acknowledged is resent, and counted. -/
def execFabricReplay (s : State) : Host.Outcome State Fault Refusal :=
  .next { s with fabreplay := s.fabreplay + BitVec.ofNat 64 (s.ops.filter fun o => s.inFlight o.2).length }

/-- The live context that a group context identifier names (R347). -/
def State.ctxOfGid (s : State) (g : Nat) : Option Nat :=
  if g == 0 then none else
  (Table.first? s.ctxs fun _ x => x.alive && x.key.isSome && x.gid == g).map Prod.fst

/-! ### Links (R363) -/

/-- RETRAINING_START (R363): a link loses training. -/
def execRetrainingStart (s : State) : Host.Outcome State Fault Refusal :=
  match s.detail with
  | .place k _ =>
    let l := Table.getD s.links k {}
    if Nat.ble 30 k || l.retraining then .next s else
    .next { s with links := Table.put s.links k { l with retraining := true }, linkrt := s.linkrt + 1 }
  | _ => .next s

/-- LINK_RETRAIN (R363): the summaries agree and the link comes up, or they differ and it retrains, three times at most. -/
def execLinkRetrain (s : State) : Host.Outcome State Fault Refusal :=
  match s.detail with
  | .summary k mine theirs =>
    let l := Table.getD s.links k {}
    if !l.retraining then .next s
    else if mine == theirs then
      .next { s with links := Table.put s.links k { up := true, width := mine.width } }
    else if Nat.ble 2 l.mismatches then .next { s with links := Table.put s.links k {} }
    else .next { s with
      links := Table.put s.links k { l with mismatches := l.mismatches + 1 }, linkrt := s.linkrt + 1 }
  | _ => .next s

end Sys2Proof.Machine
end

