-- ==== Sys2Proof/Machine/Loads.lean ====
section
/-! DEFINITION. Rows 0x20 and 0x21: loads and stores (R196 to R206), and the replies of memory. -/

namespace Sys2Proof.Machine

/-- Where a form's lanes go (R197): linear with its displacement, or base plus the offsets of a register. -/
inductive Place where
  | linear (base : Word)
  | gather (base : Word) (offsets : Nat)
  deriving DecidableEq, Repr

/-- The register of offsets, if the form reads one. -/
def Place.reg : Place → List Nat
  | .linear _ => []
  | .gather _ r => [r]

/-- The address of a lane (R197). -/
def Place.addr (p : Place) (t : Team) (z l : Nat) : Word :=
  match p with
  | .linear b => b + BitVec.ofNat 64 (z * l)
  | .gather b r => b + t.lane r l

/-- The place of a linear form: X counts 64 bytes (R197). -/
def linearPlace (t : Team) (f : FmtM) : Place := .linear (t.s f.s + BitVec.ofNat 64 (64 * f.x.toNat))

/-- The place of a gather form (R197). -/
def gatherPlace (t : Team) (f : FmtM) : Place := .gather (t.s f.s) f.x.toNat

/-- The one address of a uniform form: X counts 8 bytes (R197). -/
def uniformAddr (t : Team) (f : FmtM) : Word := t.s f.s + BitVec.ofNat 64 (8 * f.x.toNat)

/-- The participating lanes of a mask word with their addresses, in ascending order (R197). -/
def laneList (t : Team) (m : Mask) (p : Place) (z row : Nat) : List (Nat × Word) :=
  ((List.range 32).map fun i => 32 * row + i).filterMap fun l => if m.getLsbD l then some (l, p.addr t z l) else none

/-- Classes that loads, .RO loads and stores permit (R195). -/
def loadClasses : List Nat := [0, 1, 4]
def roClasses : List Nat := [0, 1, 3, 4]
def storeClasses : List Nat := [0, 4]

/-! ### Loading a pass -/

/-- What the lanes of a pass loaded. -/
structure PassLoad where
  state : State
  /-- Values by lane of the pass. -/
  vals : List (Nat × Word)
  missed : Bool
  /-- Address of the first lane whose data was uncorrectable. -/
  bad : Option Word

/-- Loads the lanes of a pass in ascending order (R197, R201, R205). -/
def State.loadLanes (s : State) (k : Nat) (t : Team) (ls : List (Nat × Word)) (z : Nat) (g : AccessForm) : PassLoad :=
  ls.foldl (fun a x =>
    let r := a.state.load k t x.2 z g
    { state := r.state, vals := a.vals ++ [(x.1, BitVec.ofNat 64 r.value)], missed := a.missed || r.missed
      bad := a.bad.or (if r.bad then some x.2 else none) })
    { state := s, vals := [], missed := false, bad := none }

/-- Lanes of a mask word as its 32 bits. -/
def laneBits (ls : List Nat) : BitVec 32 := ls.foldl (fun b l => b ||| (1#32 <<< (l % 32))) 0

/-- A slice target with the values of the lanes listed. -/
def sliceTarget (d row : Nat) (vals : List (Nat × Word)) (bad : Option Word) : Target :=
  .slice d row (laneBits (vals.map Prod.fst))
    ((List.range 32).map fun i => match vals.find? fun v => v.1 == 32 * row + i with
      | some v => v.2
      | none => 0)
    (if bad.isSome then 21 else 0) (bad.getD 0)

/-- Values are on their way to a team (R197, R235). -/
def State.expect (s : State) (k : Nat) (t : Team) (kind : Nat) (g : Target) : State :=
  { s with
    pendings := Table.put s.pendings s.serial { core := coreOf k, team := t.uid, kind := kind, targets := [g] }
    serial := s.serial + 1 }

/-- Writes the values of a pass now, where every byte was in the L1, or when the reply arrives (R197, R205); a pass for whose
result no slice can be taken raises cause 42 (R129). -/
def State.loaded (s : State) (k row : Nat) (t : Team) (now : Bool) (g : Target) : Except Did State :=
  if now then
    match s.team? k with
    | none => .ok s
    | some u => s.writePass k row (u.deliver g) g.slice?.toList
  else if !s.resultRoom (coreOf k) 1 then .error (.trap 42 { pass := row } s)
  else .ok (s.expect k t 0 g)

/-- The virtual lines of addresses (R136). -/
def footprintOf (as : List Word) : List Nat := (as.map fun a => sig57 a / 64).eraseDups

/-- Records a load-like pass in the reuse table (R134, R136), unless its data was uncorrectable (R205): with its result where
it has completed, or with the number of the values that complete it. -/
def State.installLoad (s : State) (k : Nat) (t : Team) (key : ReuseEntry) (g : Target) (lines : List Nat) (flight : Nat) :
    State :=
  match g with
  | .slice d row _ _ cause _ =>
    if cause != 0 || ((t.deliver g).poisonOf d row).isSome then s
    else s.reuseInstall (coreOf k) { key with
      footprint := lines, flight := flight, result := if flight == 0 then [s.nameOf k d row] else [] }
  | .scalar _ _ => s

/-- The lanes of a pass that lie in REM pages (R202). -/
def State.remLanes (s : State) (k : Nat) (t : Team) (ls : List (Nat × Word)) : List RemoteLane :=
  (s.remoteLanes k t ls false).filter fun x => x.page.cls == 3

/-- One pass of a load that has passed its checks: lanes in REM pages are read from their package first, and the team
waits for them (R202); the others through the L1 (R197). -/
def State.loadPass (s : State) (k : Nat) (t : Team) (d row z : Nat) (m : Mask) (ls : List (Nat × Word)) (g : AccessForm)
    (key : Option ReuseEntry) : Except Did State :=
  let rem := if g.ro then s.remLanes k t ls else []
  if !rem.isEmpty && t.phase == 0 then
    .error (match s.remoteRead k t d z rem with
      | .park w s' => .park w (s'.modTeam k fun u => { u with resume := row })
      | x => x)
  else
    let here := ls.filter fun x => !(rem.any fun r => r.lane == x.1)
    let r := s.loadLanes k t here z g
    let tgt := sliceTarget d row r.vals r.bad
    match (if here.isEmpty then .ok r.state else r.state.loaded k row t (!r.missed) tgt) with
    | .error x => .error x
    | .ok s1 =>
      let s2 := match key with
        | some e => s1.installLoad k t e tgt (footprintOf (ls.map Prod.snd))
            (if here.isEmpty || !r.missed then 0 else r.state.serial)
        | none => s1
      .ok (if m == 0 then s2 else s2.modTeam k fun u => { u with phase := 0 })

/-- A load of rows 0x20 that reads the address of each lane (R197, R200 to R206). DESIGN CHOICE: a poisoned offset slice is met
before the checks of the pass's addresses (log 110). -/
def loadForm (i : Instr) (f : FmtM) (place : Team → Place) (g : AccessForm) (s : State) :
    Host.Outcome State Fault Refusal :=
  run i s fun k t =>
    let z := sizeOfZ f.z
    let p := place t
    let d := f.d.toNat
    passLoop k (fun s t row =>
      match t.poisonOf (p.reg.headD 0) row, p.reg with
      | some q, _ :: _ => .error (.trap q.cause (q.info row) s)
      | _, _ =>
        let m := t.takers f.g &&& rowsMask row (row + 1)
        let ls := laneList t m p z row
        let go := fun (s : State) (key : Option ReuseEntry) =>
          match s.passCause k t (ls.map Prod.snd) z g with
          | some (c, a) => .error (s.memFault k t row c a 1)
          | none => s.loadPass k t d row z m ls g key
        if g.ro && t.reuses true then
          let key := s.reuseKey k t
            { word := keyWord i, load := true, sources := p.reg, dest := d, guard := f.g, scalars := [t.s f.s] } row
            (rowBits m row)
          if t.phase != 0 then go s (some key) else
          let s1 := s.reuseLook (coreOf k) key
          match s.reuseFind (coreOf k) key with
          | some e => .ok (s1.reuseTake k d row m e)
          | none => go s1 (some key)
        else go s none) t.passesLeft s

/-- The target of a uniform load in one mask word: every participating lane receives the value (R198). -/
def uniformTarget (m : Mask) (d row : Nat) (v : Word) (bad : Option Word) : Target :=
  sliceTarget d row ((((List.range 32).map fun i => 32 * row + i).filter fun l => m.getLsbD l).map fun l => (l, v)) bad

/-- A uniform load: one access, in the first executed pass, whose value every participating lane of the team receives
(R198). Each executed pass is looked up, and one that misses installs an entry (R134). -/
def uniformLoad (i : Instr) (f : FmtM) (g : AccessForm) (s : State) : Host.Outcome State Fault Refusal :=
  run i s fun k t =>
    let core := coreOf k
    let a := uniformAddr t f
    let d := f.d.toNat
    let m := t.takers f.g
    let form : ReuseForm := { word := keyWord i, load := true, sources := [], dest := d, guard := f.g, scalars := [t.s f.s] }
    let looks := g.ro && t.reuses true
    let keys := t.passes.map fun row => (row, s.reuseKey k t form row (rowBits m row))
    let hits := if looks then keys.filterMap fun e => (s.reuseFind core e.2).map fun h => (e.1, h) else []
    let left := keys.filter fun e => !(hits.any fun h => h.1 == e.1)
    let install := fun (b : State) (e : Nat × ReuseEntry) (g : Target) (flight : Nat) =>
      if looks then b.installLoad k t e.2 g [sig57 a / 64] flight else b
    let none_ := fun (row : Nat) => Target.slice d row 0 [] 0 0
    if t.phase == 1 then .done (left.foldl (fun b e => install b e (none_ e.1) 0) s) else
    let s0 := if looks then keys.foldl (fun (b : State) e => b.reuseLook core e.2) s else s
    let s1 := hits.foldl (fun (b : State) h => b.reuseTake k d h.1 (m &&& rowsMask h.1 (h.1 + 1)) h.2) s0
    let lanes := (lanesOf m t.width).filter fun l => left.any fun e => e.1 == l / 32
    match lanes with
    | [] => .done (left.foldl (fun b e => install b e (none_ e.1) 0) s1)
    | l0 :: _ =>
      match s1.passCause k t [a] (sizeOfZ f.z) g with
      | some (c, b) => s1.memFault k t (t.passes.headD 0) c b 1
      | none =>
        match s1.remLanes k t (if g.ro then [(l0, a)] else []) with
        | r :: _ => s1.remoteRead k t d (sizeOfZ f.z) (lanes.map fun l => { r with lane := l })
        | [] =>
          let r := s1.load k t a (sizeOfZ f.z) g
          let bad := if r.bad then some a else none
          let step := fun (b : State) (e : Nat × ReuseEntry) => show Except Did State from
            let tgt := uniformTarget m d e.1 (BitVec.ofNat 64 r.value) bad
            if rowBits m e.1 == 0 then .ok (install b e tgt 0) else
            match b.loaded k e.1 t (!r.missed) tgt with
            | .ok b1 => .ok (install b1 e tgt (if r.missed then b.serial else 0))
            | .error x => .error x
          match left.foldlM step r.state with
          | .ok s2 => .done s2
          | .error x => x

/-! ### Storing -/

/-- A store of row 0x21 that writes at the address of each lane (R197, R200, R201, R204). DESIGN CHOICE: a poisoned data or offset
slice is met before the checks of the pass's addresses (log 110). -/
def storeForm (i : Instr) (f : FmtM) (place : Team → Place) (nt : Bool) (s : State) :
    Host.Outcome State Fault Refusal :=
  run i s fun k t =>
    let z := sizeOfZ f.z
    let p := place t
    let g : AccessForm := { store := true, classes := storeClasses, nt := nt }
    passLoop k (fun s t row =>
      match (f.d.toNat :: p.reg).findSome? fun r => t.poisonOf r row with
      | some q => .error (.trap q.cause (q.info row) s)
      | none =>
        let ls := laneList t (t.takers f.g) p z row
        match s.passCause k t (ls.map Prod.snd) z g with
        | some (c, a) => .error (s.memFault k t row c a 2)
        | none => .ok (s.store k t (ls.map fun x => (x.2, toBytes z (t.lane f.d.toNat x.1).toNat)) g)) t.passesLeft s

/-- STU: the value of the participating lane with the lowest LANEID, in the first executed pass (R198). -/
def uniformStore (i : Instr) (f : FmtM) (s : State) : Host.Outcome State Fault Refusal :=
  run i s fun k t =>
    let z := sizeOfZ f.z
    let a := uniformAddr t f
    let g : AccessForm := { store := true, classes := storeClasses }
    let row0 := t.passes.headD 0
    match lanesOf (t.takers f.g) t.width with
    | [] => .done s
    | l :: _ =>
      match t.poisonOf f.d.toNat (l / 32) with
      | some q => .trap q.cause (q.info row0) s
      | none =>
        match s.passCause k t [a] z g with
        | some (c, b) => s.memFault k t row0 c b 2
        | none => .done (s.store k t [(a, toBytes z (t.lane f.d.toNat l).toNat)] g)

/-! ### Scratchpad forms (R199) -/

/-- The first failing check of a scratchpad pass: alignment of every lane, then the bound (R199, R200, R204). -/
def State.scratchCause (s : State) (t : Team) (ls : List (Nat × Word)) (z : Nat) : Option (Nat × Word) :=
  match ls.find? fun x => x.2.toNat % z != 0 with
  | some x => some (18, x.2)
  | none => (ls.find? fun x => Nat.blt (s.scratchSize t) (x.2.toNat + z)).map fun x => (52, x.2)

/-- LDP and LDPG (R199). -/
def scratchLoad (i : Instr) (f : FmtM) (place : Team → Place) (s : State) : Host.Outcome State Fault Refusal :=
  run i s fun k t =>
    let z := sizeOfZ f.z
    let p := place t
    passLoop k (fun s t row =>
      match p.reg.findSome? fun r => t.poisonOf r row with
      | some q => .error (.trap q.cause (q.info row) s)
      | none =>
        let ls := laneList t (t.takers f.g) p z row
        match s.scratchCause t ls z with
        | some (c, a) => .error (.trap c { pass := row, addr := a } s)
        | none =>
          s.writePass k row (t.deliver (sliceTarget f.d.toNat row
            (ls.map fun x => (x.1, BitVec.ofNat 64 (ofBytes (s.scratchRead t x.2.toNat z)))) none))
            [(f.d.toNat, row)]) t.passesLeft s

/-- STP and STPG (R199). -/
def scratchStore (i : Instr) (f : FmtM) (place : Team → Place) (s : State) : Host.Outcome State Fault Refusal :=
  run i s fun k t =>
    let z := sizeOfZ f.z
    let p := place t
    passLoop k (fun s t row =>
      match (f.d.toNat :: p.reg).findSome? fun r => t.poisonOf r row with
      | some q => .error (.trap q.cause (q.info row) s)
      | none =>
        let ls := laneList t (t.takers f.g) p z row
        match s.scratchCause t ls z with
        | some (c, a) => .error (.trap c { pass := row, addr := a } s)
        | none => .ok (ls.foldl (fun (b : State) x =>
            b.scratchWrite t x.2.toNat (toBytes z (t.lane f.d.toNat x.1).toNat)) s)) t.passesLeft s

/-! ### The forms -/

/-- LDL (R197). -/
def execLdl (f : FmtM) (s : State) : Host.Outcome State Fault Refusal :=
  loadForm (.ldl f) f (fun t => linearPlace t f) { classes := loadClasses } s

/-- LDG (R197). -/
def execLdg (f : FmtM) (s : State) : Host.Outcome State Fault Refusal :=
  loadForm (.ldg f) f (fun t => gatherPlace t f) { classes := loadClasses } s

/-- LDP (R199). -/
def execLdp (f : FmtM) (s : State) : Host.Outcome State Fault Refusal :=
  scratchLoad (.ldp f) f (fun t => linearPlace t f) s

/-- LDPG (R199). -/
def execLdpg (f : FmtM) (s : State) : Host.Outcome State Fault Refusal :=
  scratchLoad (.ldpg f) f (fun t => gatherPlace t f) s

/-- LDU (R198). -/
def execLdu (f : FmtM) (s : State) : Host.Outcome State Fault Refusal :=
  uniformLoad (.ldu f) f { classes := loadClasses } s

/-- LDL.RO (R202). -/
def execLdlRo (f : FmtM) (s : State) : Host.Outcome State Fault Refusal :=
  loadForm (.ldlRo f) f (fun t => linearPlace t f) { classes := roClasses, ro := true } s

/-- LDG.RO (R202). -/
def execLdgRo (f : FmtM) (s : State) : Host.Outcome State Fault Refusal :=
  loadForm (.ldgRo f) f (fun t => gatherPlace t f) { classes := roClasses, ro := true } s

/-- LDU.RO (R202). -/
def execLduRo (f : FmtM) (s : State) : Host.Outcome State Fault Refusal :=
  uniformLoad (.lduRo f) f { classes := roClasses, ro := true } s

/-- LDL.NT (R203). -/
def execLdlNt (f : FmtM) (s : State) : Host.Outcome State Fault Refusal :=
  loadForm (.ldlNt f) f (fun t => linearPlace t f) { classes := loadClasses, nt := true } s

/-- LDG.NT (R203). -/
def execLdgNt (f : FmtM) (s : State) : Host.Outcome State Fault Refusal :=
  loadForm (.ldgNt f) f (fun t => gatherPlace t f) { classes := loadClasses, nt := true } s

/-- STL (R197). -/
def execStl (f : FmtM) (s : State) : Host.Outcome State Fault Refusal :=
  storeForm (.stl f) f (fun t => linearPlace t f) false s

/-- STG (R197). -/
def execStg (f : FmtM) (s : State) : Host.Outcome State Fault Refusal :=
  storeForm (.stg f) f (fun t => gatherPlace t f) false s

/-- STP (R199). -/
def execStp (f : FmtM) (s : State) : Host.Outcome State Fault Refusal :=
  scratchStore (.stp f) f (fun t => linearPlace t f) s

/-- STPG (R199). -/
def execStpg (f : FmtM) (s : State) : Host.Outcome State Fault Refusal :=
  scratchStore (.stpg f) f (fun t => gatherPlace t f) s

/-- STU (R198). -/
def execStu (f : FmtM) (s : State) : Host.Outcome State Fault Refusal := uniformStore (.stu f) f s

/-- STL.NT (R203). -/
def execStlNt (f : FmtM) (s : State) : Host.Outcome State Fault Refusal :=
  storeForm (.stlNt f) f (fun t => linearPlace t f) true s

/-- STG.NT (R203). -/
def execStgNt (f : FmtM) (s : State) : Host.Outcome State Fault Refusal :=
  storeForm (.stgNt f) f (fun t => gatherPlace t f) true s

/-! ### Replies -/

/-- Values that were on their way are written into their team, where it lives: their slices are named, the entries of the
reuse table that they complete hold them, and a team that has ended and waited for them retires (R85, R134, R197, R206). -/
def State.arrived (s : State) (id : Nat) (p : Pending) : State :=
  match s.teamByUid p.team with
  | none => s
  | some (k, _) =>
    let s1 := s.deliverTo k p.targets
    match s1.team? k with
    | some u => (s1.completeEntries k id u p.targets).retireEnded
    | none => s1

/-- Writes the values of a pending operation into its team, where it lives, and wakes a release that waits for them (R197, R206,
R432). -/
def State.arrive (s : State) (id kind : Nat) : State :=
  match Table.find? s.pendings id with
  | none => s
  | some p =>
    if p.kind != kind then s else
    ({ s with pendings := Table.del s.pendings id }.arrived id p).wake fun _ t => t.wait == Wait.value id

/-- MEMORY_REPLY (R197, R205): the data of a load arrives in its destination. -/
def execMemoryReply (s : State) : Host.Outcome State Fault Refusal :=
  match s.detail with
  | .place id _ => .next (s.arrive id 0)
  | _ => .next s

/-- ATOMIC_RETURN (R235): the old values of a returning atomic arrive. -/
def execAtomicReturn (s : State) : Host.Outcome State Fault Refusal :=
  match s.detail with
  | .place id _ => .next (s.arrive id 1)
  | _ => .next s

/-- A contribution merges into another of its context to the same location, as one FP32 addition (R233). -/
def State.mergeAdd (s : State) (id : Nat) (f : Flight) (n : Nat) (g : Flight) : State :=
  { s with
    fresh := s.fresh + 2
    flights := Table.mapVals s.flights fun i h =>
      if i == id || h.into == some id then { h with into := some n }
      else if i == n then
        match f.add, g.add with
        | some (pa, x), some (_, y) => { h with add := some (pa, (fp32.add y x).1) }
        | _, _ => h
      else h }

/-- A contribution reaches its home, or merges on the way into another that is on its way there, as the free values choose
(R233, log 23). -/
def State.addArrives (s : State) (id : Nat) (f : Flight) : State :=
  let others := s.flights.filter fun g =>
    g.1 != id && g.2.ctx == f.ctx && g.2.into.isNone && g.2.add.map Prod.fst == f.add.map Prod.fst
  match others[Config.mergeOrder (s.fresh + 1) % others.length]? with
  | some (n, g) => if Config.mergeOrder s.fresh % 2 == 0 then (s.perform id).wakeAcks else s.mergeAdd id f n g
  | none => (s.perform id).wakeAcks

/-- WRITE_BACK_ACK (R188, R208, R233): a write reaches its home and is acknowledged; those of a core to one line do so in
their order (R214). A contribution does so by itself, or with the request that carries it. -/
def execWriteBackAck (s : State) : Host.Outcome State Fault Refusal :=
  match s.detail with
  | .place id _ =>
    match Table.find? s.flights id with
    | some f =>
      if f.into.isSome then .next s
      else if f.add.isSome then .next (s.addArrives id f)
      else if s.flights.any fun g => Nat.blt g.1 id && g.2.core == f.core && g.2.pa == f.pa then .next s
      else .next (s.perform id).wakeAcks
    | none => .next s
  | _ => .next s

end Sys2Proof.Machine
end

