-- ==== Sys2Proof/Machine/Atomics.lean ====
section
/-! DEFINITION. Row 0x24: atomics at the home of their location (R226 to R235). -/

namespace Sys2Proof.Machine

/-- The registers of an operand group (R229). -/
def atomicRegs (d op : Nat) : List Nat := if op == 9 then [d, d + 1, d + 2] else [d, d + 1]

/-- The first failing check of a pass in the order of R234: alignment, canonical addresses, translation, class; a context
without a key stands before the addresses (R392). -/
def State.atomicCause (s : State) (k : Nat) (t : Team) (ls : List (Nat × Word)) (z : Nat) : Option (Nat × Word) :=
  let first := fun (f : Word → Option Nat) => ls.findSome? fun x => (f x.2).map fun c => (c, x.2)
  match first fun a => if a.toNat % z != 0 then some 18 else none with
  | some r => some r
  | none =>
    match first fun a => if (s.ctx t.ctx).key.isNone then some 22 else if canonical a then none else some 17 with
    | some r => some r
    | none =>
      match first fun a => match s.translate (dieOf k) t.ctx a { wr := true } with
          | .cause c => some c
          | .page _ => none with
      | some r => some r
      | none => first fun a => match s.translate (dieOf k) t.ctx a { wr := true } with
          | .page p => if storeClasses.contains p.cls then none else some 19
          | .cause c => some c

/-- The physical address of an atomic that has passed its checks. -/
def State.atomicAddr (s : State) (k : Nat) (t : Team) (a : Word) : Nat :=
  match s.translate (dieOf k) t.ctx a { wr := true } with
  | .page p => p.pa
  | .cause _ => 0

/-- Before an atomic leaves the core, the core's copy of the line is written back and invalidated, and load-like reuse
entries of the line go (R226, R136). It follows the core's writes to the line; one that carries a contribution need not
follow other contributions (R231, R233). -/
def State.beforeAtomic (s : State) (k : Nat) (t : Team) (a : Word) (adds : Bool := false) : State :=
  let line := sig57 a / 64
  let s1 := (s.tlbFill (dieOf k) t.ctx a).reuseTouched (coreOf k) t.ctx line
  let s2 := s1.invalidate (coreOf k) t.ctx [line]
  let mine := fun (f : Flight) => f.core == coreOf k && f.pa == s.atomicAddr k t a / 64
  if adds && !(s2.flights.any fun f => mine f.2 && f.2.add.isNone) then s2 else s2.land mine

/-- What the lanes of a pass received. -/
structure AtomicPass where
  state : State
  /-- Old values by lane. -/
  vals : List (Nat × Word)
  /-- Address of the first lane whose line was uncorrectable. -/
  bad : Option Word

/-- Applies the lanes of a pass in ascending order; a contribution that returns nothing and meets a bad line is counted (R230,
R231, R235). -/
def State.atomicLanes (s : State) (k : Nat) (t : Team) (ls : List (Nat × Word)) (d op z : Nat) (u r : Bool) : AtomicPass :=
  ls.foldl (fun a x =>
    let s1 := a.state.beforeAtomic k t x.2
    match s1.atomicAt (s1.atomicAddr k t x.2) op z u (t.lane d x.1).toNat (if op == 9 then (t.lane (d + 2) x.1).toNat else 0) with
    | none => { a with state := if r then s1.countBad (s1.atomicAddr k t x.2) else s1, bad := a.bad.or (some x.2) }
    | some (s2, old) => { a with state := s2, vals := a.vals ++ [(x.1, BitVec.ofNat 64 old)] })
    { state := s, vals := [], bad := none }

/-- Merges contributions pair by pair as the free values choose, each merge one FP32 addition (R233, log 23): the
contributions that are then applied one by one. -/
def mergeAdds : Nat → Nat → List Nat → List Nat
  | 0, _, xs => xs
  | n + 1, seed, xs =>
    if Nat.ble xs.length 1 || Config.mergeOrder seed % 2 == 0 then xs else
    let i := Config.mergeOrder (seed + 1) % xs.length
    let a := xs.getD i 0
    let rest := xs.eraseIdx i
    let j := Config.mergeOrder (seed + 2) % rest.length
    mergeAdds n (seed + 3) (rest.set j (fp32.add (rest.getD j 0) a).1)

/-- Sends a contribution to a location of device memory (R233). -/
def State.sendAdd (s : State) (k : Nat) (t : Team) (pa x : Nat) : State :=
  { s with
    flights := Table.put s.flights s.serial
      { core := coreOf k, ctx := t.ctx, pa := pa / 64, mask := 0, data := 0, desc := none, add := some (pa, x) }
    serial := s.serial + 1 }

/-- The .R additions of FP32 of one pass: contributions to one location of device memory merge in the core as the free values
choose, and go their way, where they may merge with others (R233). Those to CXL memory never merge. -/
def State.addMerged (s : State) (k : Nat) (t : Team) (ls : List (Nat × Word)) (d : Nat) : State :=
  let s1 := ls.foldl (fun (a : State) x => a.beforeAtomic k t x.2 true) s
  let homes := (ls.map fun x => s1.atomicAddr k t x.2).eraseDups
  homes.foldl (fun (a : State) pa =>
    let xs := (ls.filter fun x => s1.atomicAddr k t x.2 == pa).map fun x => elem 32 (t.lane d x.1) 0
    if isCxl pa then
      xs.foldl (fun (b : State) y => match b.atomicAt pa 1 4 false y 0 with
        | some (b', _) => b'
        | none => b.countBad pa) a
    else (mergeAdds xs.length a.fresh xs).foldl (fun (b : State) y => b.sendAdd k t pa y)
      { a with fresh := a.fresh + 3 * xs.length }) s1

/-- An atomic of row 0x24 (R230 to R235). DESIGN CHOICE: a poisoned operand slice is met before the checks of the pass's
addresses (log 110). -/
def atomicForm (i : Instr) (f : FmtA) (op : Nat) (s : State) : Host.Outcome State Fault Refusal :=
  run i s fun k t =>
    let d := f.d.toNat
    let z := if f.z == 1 then 4 else 8
    let scope := f.scope.toNat
    let done := fun (s' : State) => Did.done (if f.r then s' else s'.acquire k t scope)
    let go := fun (s0 : State) =>
      passLoop k (fun s t row =>
        match (atomicRegs d op).findSome? fun r => t.poisonOf r row with
        | some q => .error (.trap q.cause (q.info row) s)
        | none =>
          let ls := laneList t (t.takers f.g) (.gather (t.s f.s) (d + 1)) z row
          match s.atomicCause k t ls z with
          | some (c, a) => .error (s.memFault k t row c a 3)
          | none =>
            if !f.r && !ls.isEmpty && !s.resultRoom (coreOf k) 1 then .error (.trap 42 { pass := row } s)
            else if f.r && op == 1 then .ok (s.addMerged k t ls d)
            else
              let r := s.atomicLanes k t ls d op z f.u f.r
              .ok (if f.r || ls.isEmpty then r.state
                else r.state.expect k t 1 (sliceTarget d row r.vals r.bad))) t.passesLeft s0
    match afterRelease s k t scope go with
    | .done s' => done s'
    | x => x

/-- AADD (R230). -/
def execAadd (f : FmtA) (s : State) : Host.Outcome State Fault Refusal := atomicForm (.aadd f) f 0 s

/-- AFADD (R230). -/
def execAfadd (f : FmtA) (s : State) : Host.Outcome State Fault Refusal := atomicForm (.afadd f) f 1 s

/-- AMIN (R230). -/
def execAmin (f : FmtA) (s : State) : Host.Outcome State Fault Refusal := atomicForm (.amin f) f 2 s

/-- AMAX (R230). -/
def execAmax (f : FmtA) (s : State) : Host.Outcome State Fault Refusal := atomicForm (.amax f) f 3 s

/-- AFMAX (R230). -/
def execAfmax (f : FmtA) (s : State) : Host.Outcome State Fault Refusal := atomicForm (.afmax f) f 4 s

/-- AAND (R230). -/
def execAand (f : FmtA) (s : State) : Host.Outcome State Fault Refusal := atomicForm (.aand f) f 5 s

/-- AOR (R230). -/
def execAor (f : FmtA) (s : State) : Host.Outcome State Fault Refusal := atomicForm (.aor f) f 6 s

/-- AXOR (R230). -/
def execAxor (f : FmtA) (s : State) : Host.Outcome State Fault Refusal := atomicForm (.axor f) f 7 s

/-- AXCH (R230). -/
def execAxch (f : FmtA) (s : State) : Host.Outcome State Fault Refusal := atomicForm (.axch f) f 8 s

/-- ACAS (R230). -/
def execAcas (f : FmtA) (s : State) : Host.Outcome State Fault Refusal := atomicForm (.acas f) f 9 s

end Sys2Proof.Machine
end

