-- ==== Sys2Proof/Machine/Barriers.lean ====
section
/-! DEFINITION. Row 0x25: barriers (R237 to R244). -/

namespace Sys2Proof.Machine

/-- The key of barrier (scope, n) in a core's table. -/
def barKey (scope n : Nat) : Nat := 16 * scope + n

/-- The cores of an instance for a team of a core (R237): scope codes 1 CORE, 2 QUAD, 3 DIE, 4 PKG. -/
def State.barCores (s : State) (core part scope : Nat) : List Nat :=
  match scope with
  | 1 => [core]
  | 2 => (s.coresOf part).filter fun c => c / 4 == core / 4
  | 3 => (s.coresOf part).filter fun c => c / 64 == core / 64
  | _ => s.coresOf part

/-- A core's counter of a barrier (R239). -/
def Core.bar (x : Core) (b : Nat) : Barrier := Table.getD x.bars b {}

/-- Releases an instance whose every core's input is true and where some core has an arrival (R239). DESIGN CHOICE: where one
number is granted to two live partitions, a release reaches the partition of the team that arrived (R238, log 111). -/
def State.barRelease (s : State) (core part scope n : Nat) : State :=
  let cs := s.barCores core part scope
  let b := barKey scope n
  if cs.all (fun c => Nat.ble ((s.core c).bar b).expected ((s.core c).bar b).arrived) &&
      cs.any (fun c => ((s.core c).bar b).arrived != 0) then
    let s1 := cs.foldl (fun (a : State) c =>
      a.putCore c { a.core c with bars := Table.put (a.core c).bars b { (a.core c).bar b with arrived := 0 } }) s
    { s1 with teams := Table.mapVals s1.teams fun k t =>
        if isCoreKey k && cs.contains (coreOf k) && t.pendingBars.contains b then
          { t with
            pendingBars := t.pendingBars.filter fun x => x != b
            wait := if t.wait == .barrier scope n then .ready else t.wait }
        else t }
  else s

/-- Scope and number of a word of row 0x25 (R243). -/
def barOf (f : FmtE) : Nat × Nat := ((f.f.extractLsb' 0 3).toNat, (f.w.extractLsb' 0 4).toNat)

/-- The number is not granted to the context at DIE or PKG scope (R238). -/
def State.barUngranted (s : State) (t : Team) (f : FmtE) : Bool :=
  let g := (s.ctx t.ctx).bargrant
  match (barOf f).1 with
  | 3 => !(g.getLsbD (barOf f).2)
  | 4 => !(g.getLsbD (16 + (barOf f).2))
  | _ => false

/-- An arrival of a team (R240): counted once, where the core expects any. -/
def State.arriveAt (s : State) (k : Nat) (t : Team) (scope n : Nat) : State :=
  let b := barKey scope n
  if t.pendingBars.contains b then s else
  let core := coreOf k
  let s1 := s.modTeam k fun u => { u with pendingBars := b :: u.pendingBars }
  let x := (s1.core core).bar b
  let s2 := if x.expected == 0 then s1 else
    s1.putCore core { s1.core core with bars := Table.put (s1.core core).bars b { x with arrived := x.arrived + 1 } }
  s2.barRelease core t.part scope n

/-- The wait of a team that has arrived, then the acquire (R240). -/
def State.barWait (s : State) (k : Nat) (scope n : Nat) : Did :=
  match s.team? k with
  | none => .quit s
  | some t => if t.pendingBars.contains (barKey scope n) then .park (.barrier scope n) s else .done (s.acquire k t scope)

/-- BARV (R240). -/
def execBarv (f : FmtE) (s : State) : Host.Outcome State Fault Refusal :=
  run (.barv f) s fun k t =>
    if s.barUngranted t f then .trap 12 {} s else
    afterRelease s k t (barOf f).1 fun s1 => .done (s1.arriveAt k t (barOf f).1 (barOf f).2)

/-- BARW (R240). -/
def execBarw (f : FmtE) (s : State) : Host.Outcome State Fault Refusal :=
  run (.barw f) s fun k t =>
    if s.barUngranted t f then .trap 12 {} s else s.barWait k (barOf f).1 (barOf f).2

/-- BARS (R240): BARV, then BARW. -/
def execBars (f : FmtE) (s : State) : Host.Outcome State Fault Refusal :=
  run (.bars f) s fun k t =>
    if s.barUngranted t f then .trap 12 {} s
    else if t.phase == 1 then s.barWait k (barOf f).1 (barOf f).2
    else afterRelease s k t (barOf f).1 fun s1 =>
      ((s1.modTeam k fun u => { u with phase := 1 }).arriveAt k t (barOf f).1 (barOf f).2).barWait k (barOf f).1 (barOf f).2

/-- BARI (R240): the core's expected count, at once. -/
def execBari (f : FmtE) (s : State) : Host.Outcome State Fault Refusal :=
  run (.bari f) s fun k t =>
    if s.barUngranted t f then .trap 12 {} s else
    let core := coreOf k
    let b := barKey (barOf f).1 (barOf f).2
    let e := Nat.min ((t.s f.q).toNat % 128) 64
    .done ((s.putCore core { s.core core with
      bars := Table.put (s.core core).bars b { (s.core core).bar b with expected := e } }).barRelease core t.part (barOf f).1 (barOf f).2)

end Sys2Proof.Machine
end

