-- ==== Sys2Proof/Machine/Cache.lean ====
section
/-! DEFINITION. Row 0x22: fences, acquiring loads, releasing stores and cache control (R207 to R211), on cores and on control
cores (R395). -/

namespace Sys2Proof.Machine

/-- Bytes that SIZE names (R207). -/
def sizeOfF (f : FmtS) : Nat := 8 / 2 ^ (f.f.extractLsb' 3 2).toNat

/-- SCOPE of a word of row 0x22 (R207). -/
def scopeOfF (f : FmtS) : Nat := (f.f.extractLsb' 0 3).toNat

/-- The home address of an access of a control core's thread: physical for a system thread, translated for a prologue
(R395); or the cause, in the order of R204. -/
def State.threadAddr (s : State) (k : Nat) (t : Team) (a : Word) (z : Nat) (write : Bool) : Except Nat Nat :=
  if a.toNat % z != 0 then .error 18
  else match t.role with
    | .system =>
      if !isPopulated a.toNat || (isReserved a.toNat && t.level != 2) then .error 17 else .ok a.toNat
    | _ =>
      if (s.ctx t.ctx).key.isNone then .error 22
      else match s.translate (dieOf k) t.ctx a { rd := !write, wr := write } with
        | .cause c => .error c
        | .page p => if (if write then storeClasses else loadClasses).contains p.cls then .ok p.pa else .error 19

/-- FENCE (R209): a release and then an acquire at its scope. -/
def execFence (f : FmtS) (s : State) : Host.Outcome State Fault Refusal :=
  run (.fence f) s fun k t =>
    afterRelease s k t (scopeOfF f) fun s1 => .done (s1.acquire k t (scopeOfF f))

/-- LDACQ (R210): one single-copy atomic read, then an acquire at its scope. -/
def execLdacq (f : FmtS) (s : State) : Host.Outcome State Fault Refusal :=
  run (.ldacq f) s fun k t =>
    let a := t.s f.sa
    let z := sizeOfF f
    let put := fun (s1 : State) (v : Nat) =>
      Did.done ((s1.modTeam k fun u => u.setS f.sd (BitVec.ofNat 64 v)).acquire k t (scopeOfF f))
    if !isCoreKey k then
      match s.threadAddr k t a z false with
      | .error c => s.memFault k t 0 c a 1
      | .ok pa => if s.badData pa then .trap 21 { addr := a } s else put s (ofBytes (s.bytes pa z))
    else
      let g : AccessForm := { classes := loadClasses }
      match s.passCause k t [a] z g with
      | some (c, x) => s.memFault k t 0 c x 1
      | none =>
        if Nat.blt (scopeOfF f) 2 then
          let r := s.load k t a z g
          if r.bad then .trap 21 { addr := a } s else put r.state r.value
        else
          match s.translate (dieOf k) t.ctx a { rd := true } with
          | .cause c => s.memFault k t 0 c a 1
          | .page p =>
            let s1 := (s.tlbFill (dieOf k) t.ctx a).clean (coreOf k) t.ctx fun l => l.va == sig57 a / 64
            let s2 := s1.land fun g => g.core == coreOf k && g.pa == p.pa / 64
            if s2.badData p.pa then .trap 21 { addr := a } s else put s2 (ofBytes (s2.bytes p.pa z))

/-- STREL (R210): a release at its scope, then the store, to the home at QUAD or wider and into the L1 below. -/
def execStrel (f : FmtS) (s : State) : Host.Outcome State Fault Refusal :=
  run (.strel f) s fun k t =>
    let a := t.s f.sa
    let z := sizeOfF f
    let bs := toBytes z (t.s f.sb).toNat
    if !isCoreKey k then
      match s.threadAddr k t a z true with
      | .error c => s.memFault k t 0 c a 2
      | .ok pa => .done (s.homeWriteRun pa bs (some 0))
    else
      let g : AccessForm := { store := true, classes := storeClasses, nt := Nat.ble 2 (scopeOfF f) }
      match s.passCause k t [a] z g with
      | some (c, x) => s.memFault k t 0 c x 2
      | none => afterRelease s k t (scopeOfF f) fun s1 => .done (s1.store k t [(a, bs)] g)

/-- The lines that a word of cache control acts on (R211). DESIGN CHOICE: the range begins at the low 57 bits of s[SA] and does not
wrap (log 115). -/
def cacheSel (f : FmtS) (t : Team) (l : Line) : Bool :=
  f.f.getLsbD 5 ||
    ((t.s f.sb) != 0 && Nat.blt (64 * l.va) (sig57 (t.s f.sa) + (t.s f.sb).toNat) && Nat.blt (sig57 (t.s f.sa)) (64 * l.va + 64))

/-- The team waits until the write-backs that the word sent are acknowledged (R211). -/
def State.awaitSent (before after : State) (k : Nat) : Did :=
  match (after.flights.filter fun f => Nat.ble before.serial f.1).map Prod.fst with
  | [] => .done after
  | ids => .park (.acks ids) (after.modTeam k fun u => { u with phase := 1 })

/-- L1INV (R211). -/
def execL1inv (f : FmtS) (s : State) : Host.Outcome State Fault Refusal :=
  run (.l1inv f) s fun k t =>
    if t.phase == 1 then .done s else
    let s1 := s.clean (coreOf k) t.ctx (cacheSel f t)
    State.awaitSent s (s1.drop (coreOf k) t.ctx (cacheSel f t)) k

/-- L1WB (R211). -/
def execL1wb (f : FmtS) (s : State) : Host.Outcome State Fault Refusal :=
  run (.l1wb f) s fun k t =>
    if t.phase == 1 then .done s else State.awaitSent s (s.clean (coreOf k) t.ctx (cacheSel f t)) k

/-- PFD (R211): a fill of the whole line that holds the address; a failure drops it, and a malformed entry writes its event. -/
def execPfd (f : FmtS) (s : State) : Host.Outcome State Fault Refusal :=
  run (.pfd f) s fun k t =>
    let a := t.s f.sa
    let g : AccessForm := { classes := loadClasses }
    let line := a &&& ~~~63
    match (s.accessCause k t line 64 g).or (s.classCause k t line 64 g) with
    | some c => .done (if c == 23 then s.pteBad k t.ctx a t.part else s)
    | none => .done (if f.f.getLsbD 0 then s.tlbFill (dieOf k) t.ctx a else (s.load k t line 64 g).state)

end Sys2Proof.Machine
end

