-- ==== Sys2Proof/Machine/Compare.lean ====
section
/-! DEFINITION. Rows 0x0A to 0x0E: comparisons and predicate logic (R114 to R117). -/

namespace Sys2Proof.Machine

/-- Runs the passes of a form that writes one predicate in the active lanes: those before a poisoned source have
completed (R102, R114, R205). -/
def predicatePasses (s : State) (k : Nat) (t : Team) (srcs : List Nat) (pd : Nat) (f : Nat → Bool × BitVec 6) : Did :=
  let upTo := fun hi =>
    let m := t.active &&& rowsMask t.resume hi
    s.putTeam k ((t.setPred pd m (maskOf t.width fun l => (f l).1)).flag (flagsOf m t.width fun l => (f l).2))
  match t.poisonStop srcs with
  | none => .done (upTo 32)
  | some (row, p) => .trap p.cause (p.info row) (upTo row)

/-- A condition on the order of two values: 0 EQ, 1 NE, 2 LT, 3 LE, 4 GT, 5 GE (R48). -/
def holds (cond : BitVec 4) (c : Int) : Bool :=
  match cond.toNat with
  | 0 => c == 0
  | 1 => c != 0
  | 2 => decide (c < 0)
  | 3 => decide (c ≤ 0)
  | 4 => decide (0 < c)
  | _ => decide (0 ≤ c)

/-- The order of two w-bit numbers, signed (K = 0) or unsigned (R48, R114). -/
def orderOf (w : Nat) (k : BitVec 2) (a b : Nat) : Int :=
  if k == 0 then sgn w a - sgn w b else Int.ofNat a - Int.ofNat b

/-- ICMP (R114): sub-element 0 of two registers. -/
def execIcmp (f : FmtPC) (s : State) : Host.Outcome State Fault Refusal :=
  run (.icmp f) s fun k t =>
    let w := widthOf f.t
    predicatePasses s k t [f.a.toNat, f.b.toNat] f.pd.toNat fun l =>
      (holds f.cond (orderOf w f.k (elem w (t.lane f.a.toNat l) 0) (elem w (t.lane f.b.toNat l) 0)), 0)

/-- ICMPS (R114): sub-element 0 of a register and a scalar's low bits. -/
def execIcmps (f : FmtPC) (s : State) : Host.Outcome State Fault Refusal :=
  run (.icmps f) s fun k t =>
    let w := widthOf f.t
    predicatePasses s k t [f.a.toNat] f.pd.toNat fun l =>
      (holds f.cond (orderOf w f.k (elem w (t.lane f.a.toNat l) 0) (elem w (t.s f.b) 0)), 0)

/-- The verdict of FCMP and its NV flag (R115). -/
def compareFp (fmt : FpFmt) (cond : BitVec 4) (k : BitVec 2) (a b : Nat) : Bool × BitVec 6 :=
  let x := fmt.decode a
  let y := fmt.decode b
  let un := x.isNan || y.isNan
  (match cond.toNat with
    | 6 => un
    | 7 => !un
    | 1 => un || holds 1 (cmpFp x y)
    | _ => !un && holds cond (cmpFp x y),
   if k == 0 then nvOf [x, y] else if un then flNV else 0)

/-- FCMP (R115). -/
def execFcmp (f : FmtPC) (s : State) : Host.Outcome State Fault Refusal :=
  run (.fcmp f) s fun k t =>
    let w := (fpOf f.t).width
    predicatePasses s k t [f.a.toNat, f.b.toNat] f.pd.toNat fun l =>
      compareFp (fpOf f.t) f.cond f.k (elem w (t.lane f.a.toNat l) 0) (elem w (t.lane f.b.toNat l) 0)

/-- SCMP (R116): one verdict for every active lane, without a pass. -/
def execScmp (f : FmtPCS) (s : State) : Host.Outcome State Fault Refusal :=
  run (.scmp f) s fun k t =>
    let v := holds f.cond (orderOf 64 f.k (t.s f.sa).toNat (t.s f.sb).toNat)
    .done (s.putTeam k (t.setPred f.pd.toNat t.active (if v then BitVec.allOnes 1024 else 0)))

/-- A form of row 0x0D: predicate logic in the active lanes (R117). -/
def predicateLogic (i : Instr) (f : FmtPL) (s : State) (op : Mask → Mask → Mask) : Host.Outcome State Fault Refusal :=
  run i s fun k t =>
    .done (s.putTeam k (t.setPred f.pd.toNat t.active (op (t.pred f.pa.toNat) (t.pred f.pb.toNat))))

/-- PAND (R117). -/
def execPand (f : FmtPL) (s : State) : Host.Outcome State Fault Refusal :=
  predicateLogic (.pand f) f s fun a b => a &&& b

/-- POR (R117). -/
def execPor (f : FmtPL) (s : State) : Host.Outcome State Fault Refusal :=
  predicateLogic (.por f) f s fun a b => a ||| b

/-- PXOR (R117). -/
def execPxor (f : FmtPL) (s : State) : Host.Outcome State Fault Refusal :=
  predicateLogic (.pxor f) f s fun a b => a ^^^ b

/-- PANDN (R117). -/
def execPandn (f : FmtPL) (s : State) : Host.Outcome State Fault Refusal :=
  predicateLogic (.pandn f) f s fun a b => a &&& ~~~b

/-- PNOT (R117). -/
def execPnot (f : FmtPL) (s : State) : Host.Outcome State Fault Refusal :=
  predicateLogic (.pnot f) f s fun a _ => ~~~a

/-- PMOV (R117). -/
def execPmov (f : FmtPL) (s : State) : Host.Outcome State Fault Refusal :=
  predicateLogic (.pmov f) f s fun a _ => a

/-- PSETA (R117). -/
def execPseta (f : FmtPL) (s : State) : Host.Outcome State Fault Refusal :=
  predicateLogic (.pseta f) f s fun _ _ => BitVec.allOnes 1024

/-- PCLR (R117). -/
def execPclr (f : FmtPL) (s : State) : Host.Outcome State Fault Refusal :=
  predicateLogic (.pclr f) f s fun _ _ => 0

end Sys2Proof.Machine
end

