-- ==== Sys2Proof/Machine/Control.lean ====
section
/-! DEFINITION. Rows 0x01 to 0x03: branches, divergence, returns and loops (R70 to R93). -/

namespace Sys2Proof.Machine

/-- Most entries of a divergence stack (R70). -/
def stackRoom : Nat := 1024

/-- The target of a format B word: PC + 4 x sext(OFF17) (R33, R77). -/
def branchTarget (t : Team) (off : BitVec 17) : Word := t.pc + off.signExtend 64 * 4

/-- Bytes of one entry in the divergence spill area (R72). -/
def entryBytes (w : Nat) : Nat := (8 + 4 * ((w + 31) / 32) + 7) / 8 * 8

/-- The bytes of an entry in the spill area (R72). -/
def entryImage (w : Nat) (e : StackEntry) : List Byte :=
  (toBytes 8 ((if e.rejoin then 2 ^ 63 else 0) + e.addr.toNat % 2 ^ 57) ++
    (List.range ((w + 31) / 32)).flatMap (fun k => toBytes 4 (rowBits e.mask k).toNat) ++ List.replicate 4 0#8).take
      (entryBytes w)

/-- The entry that bytes of the spill area hold (R72); its address is sign-extended from 57 bits (R28). -/
def entryOf (bs : List Byte) : StackEntry :=
  let d := BitVec.ofNat 64 (ofBytes (bs.take 8))
  { rejoin := d.getLsbD 63, addr := (d.extractLsb' 0 57).signExtend 64
    mask := BitVec.ofNat 1024 (ofBytes (bs.drop 8)) }

/-- Address of the entry at position i from the bottom of a team's stack (R72). -/
def entryAddr (t : Team) (i : Nat) : Word := t.dsbase + BitVec.ofNat 64 (i * entryBytes t.width)

/-- The page of an address of the spill area (R72): an ORD page; or a cause, and the state with the event of a malformed
entry (R383). -/
def State.areaPage (s : State) (k : Nat) (t : Team) (a : Word) (n : Need) : Except (Nat × State) Page :=
  match s.translate (dieOf k) t.ctx a { n with user := false } with
  | .page p => if p.cls == 0 then .ok p else .error (19, s)
  | .cause c => .error (c, if c == 23 then s.pteBad k t.ctx a t.part else s)

/-- The pages of some addresses of the spill area, each translated on its own; or the first cause that stops one (R72). -/
def State.areaPages (s : State) (k : Nat) (t : Team) (n : Need) : List Word → Except (Nat × State) (List (Word × Page))
  | [] => .ok []
  | a :: rest =>
    match s.areaPage k t a n with
    | .error x => .error x
    | .ok p => match s.areaPages k t n rest with
      | .error x => .error x
      | .ok ps => .ok ((a, p) :: ps)

/-- The addresses of an entry at position i from the bottom, eight bytes after eight (R72). -/
def entryWords (t : Team) (i : Nat) : List Word :=
  (List.range (entryBytes t.width / 8)).map fun j => entryAddr t i + BitVec.ofNat 64 (8 * j)

/-- Writes bytes to the spill area, eight at each address (R72). -/
def State.areaWrite (s : State) (k : Nat) (t : Team) : List (Word × Page) → List Byte → State
  | [], _ => s
  | (a, p) :: rest, bs => ((s.tlbFill (dieOf k) t.ctx a).spillWrite (coreOf k) t.ctx (sig57 a) p (bs.take 8)).areaWrite k t rest
      (bs.drop 8)

/-- Reads the bytes of the spill area at some addresses, eight at each (R72). -/
def State.areaRead (s : State) (k : Nat) (t : Team) : List (Word × Page) → State × List Byte
  | [] => (s, [])
  | (a, p) :: rest =>
    let r := (s.tlbFill (dieOf k) t.ctx a).spillRead (coreOf k) t.ctx (sig57 a) p 8
    let q := r.1.areaRead k t rest
    (q.1, r.2 ++ q.2)

/-- The entry at position i from the bottom moves to the spill area, each part at the page of its own address (R72); or the
cause that stops it. -/
def State.spillEntry (s : State) (k : Nat) (t : Team) (i : Nat) (e : StackEntry) : Except (Nat × State) State :=
  match s.areaPages k t { wr := true } (entryWords t i) with
  | .ok ps => .ok (s.areaWrite k t ps (entryImage t.width e))
  | .error x => .error x

/-- The entry at position i from the bottom as the spill area gives it back (R72); or the cause that stops it. -/
def State.readEntry (s : State) (k : Nat) (t : Team) (i : Nat) : Except (Nat × State) (State × StackEntry) :=
  match s.areaPages k t { rd := true } (entryWords t i) with
  | .ok ps => .ok ((s.areaRead k t ps).1, entryOf ((s.areaRead k t ps).2.take (8 + 4 * t.rows)))
  | .error x => .error x

/-- An entry move that fails kills the context of the team with cause 120 (R72). -/
def State.moveFailed (s : State) (k : Nat) (t : Team) (c : Nat) : State := s.kill t.ctx 120 c t.pc (sourceOf k t.part)

/-- Pushes an entry and goes on; one that finds the 16 places on chip full moves the deepest of them to the spill area (R70
to R72). -/
def State.pushEntry (s : State) (k : Nat) (t : Team) (e : StackEntry) (next : State → Did) : Did :=
  let t1 := { t with stack := e :: t.stack }
  if Nat.blt (t.stack.length - t.spilled) 16 then next (s.putTeam k t1) else
  match s.spillEntry k t t.spilled (t.stack.getD 15 e) with
  | .ok s' => next (s'.putTeam k { t1 with spilled := t.spilled + 1 })
  | .error (c, s') => .quit (s'.moveFailed k t c)

/-- Lanes recorded nowhere end when a pop empties the stack (R75). -/
def endUnrecorded (t : Team) : Team := if t.stack.isEmpty then { t with live := t.active } else t

/-- Pops the top entry: where that leaves none on chip, the one below it moves back from the spill area (R72). The team
answered has the rest of the stack. -/
def State.popEntry (s : State) (k : Nat) (t : Team) : Except (Nat × State) (State × Team) :=
  let t1 := { t with stack := t.stack.drop 1 }
  if t.spilled == 0 || Nat.blt t.spilled t1.stack.length then .ok (s, t1) else
  match s.readEntry k t (t.spilled - 1) with
  | .ok (s', e) => .ok (s', { t1 with stack := e :: t1.stack.drop 1, spilled := t.spilled - 1 })
  | .error x => .error x

/-- What the unwind step comes to (R75). -/
inductive Unwound where
  | retire (s : State)
  | resume (pc : Word) (s : State) (t : Team)
  /-- An entry move failed (R72). -/
  | failed (c : Nat) (s : State)

/-- The unwind step: pops entries until some lanes remain (R75); n is the depth of the stack. -/
def State.unwind (s : State) (k : Nat) (t : Team) : Nat → Unwound
  | 0 => .retire s
  | n + 1 =>
    match t.stack with
    | [] => .retire s
    | e :: _ =>
      match s.popEntry k t with
      | .error (c, s') => .failed c s'
      | .ok (s', t') =>
        if e.mask &&& t.live == 0 then s'.unwind k t' n
        else .resume (if e.rejoin then e.addr + 4 else e.addr) s' (endUnrecorded { t' with active := e.mask &&& t.live })

/-- Ends a path that has no lane left: the unwind step decides what runs next (R75). A team retires once every value on
its way to its registers has arrived (R85). -/
def State.unwindTeam (s : State) (k : Nat) (t : Team) : Did :=
  match s.unwind k t t.stack.length with
  | .retire s' =>
    let s1 := s'.putTeam k { t with live := 0, active := 0, stack := [], spilled := 0, wait := .retire }
    if s1.pendings.any fun p => p.2.team == t.uid then .quit (s1.endOwnRun k) else .quit (s1.retireTeam k)
  | .resume pc s' t' => .jump pc (s'.putTeam k t')
  | .failed c s' => .quit (s'.moveFailed k t c)

/-- BRA (R78). -/
def execBra (f : FmtB) (s : State) : Host.Outcome State Fault Refusal :=
  run (.bra f) s fun k t =>
    if !isCoreKey k then .jump (branchTarget t f.off) s else
    let taken := t.takers f.g
    let rest := t.active &&& ~~~taken
    if taken == 0 then .done s
    else if rest == 0 then .jump (branchTarget t f.off) s
    else if Nat.ble stackRoom t.stack.length then .trap 7 {} s
    else
      s.pushEntry k { t with active := taken } { rejoin := false, addr := t.pc + 4, mask := rest }
        fun s' => .jump (branchTarget t f.off) s'

/-- BANY (R79). -/
def execBany (f : FmtB) (s : State) : Host.Outcome State Fault Refusal :=
  run (.bany f) s fun _ t =>
    if t.takers f.g != 0 then .jump (branchTarget t f.off) s else .done s

/-- BALL (R79). -/
def execBall (f : FmtB) (s : State) : Host.Outcome State Fault Refusal :=
  run (.ball f) s fun _ t =>
    if t.takers f.g == t.active then .jump (branchTarget t f.off) s else .done s

/-- CALL (R80). -/
def execCall (f : FmtB) (s : State) : Host.Outcome State Fault Refusal :=
  run (.call f) s fun k t => .jump (branchTarget t f.off) (s.putTeam k (t.setS 31 (t.pc + 4)))

/-- MARK (R81). -/
def execMark (f : FmtB) (s : State) : Host.Outcome State Fault Refusal :=
  run (.mark f) s fun k t =>
    if Nat.ble stackRoom t.stack.length then .trap 7 {} s
    else s.pushEntry k t { rejoin := true, addr := branchTarget t f.off, mask := t.active } fun s' => .done s'

/-- IPF (R82): asks the quad cache for the line that holds the target, where it is absent and can be fetched. -/
def execIpf (f : FmtB) (s : State) : Host.Outcome State Fault Refusal :=
  run (.ipf f) s fun k t =>
    if !isCoreKey k then .done s else
    let a := branchTarget t f.off
    let q := coreOf k / 4
    match (s.quad q).held t.ctx a with
    | some _ => .done s
    | none =>
      match s.fetchPage (dieOf k) t.ctx a with
      | .ok _ => .done ((s.tlbFill (dieOf k) t.ctx a).askLine q t.ctx (codeLine a))
      | .error e => .done (if e.2 then s.pteBad k t.ctx a t.part else s)

/-- Goes to an indirect target, or raises cause 11 at the transferring instruction, which then has no effect (R33). -/
def indirect (a : Word) (s s' : State) : Did := if targetAddrOk a then .jump a s' else .trap 11 {} s

/-- BRI (R83). -/
def execBri (f : FmtS) (s : State) : Host.Outcome State Fault Refusal :=
  run (.bri f) s fun _ t => indirect (t.s f.sa) s s

/-- CALLI (R83): the target is read before the link is written. -/
def execCalli (f : FmtS) (s : State) : Host.Outcome State Fault Refusal :=
  run (.calli f) s fun k t => indirect (t.s f.sa) s (s.putTeam k (t.setS f.sd (t.pc + 4)))

/-- RET (R83). -/
def execRet (f : FmtS) (s : State) : Host.Outcome State Fault Refusal :=
  run (.ret f) s fun _ t => indirect (t.s f.sa) s s

/-- JOIN (R84). -/
def execJoin (s : State) : Host.Outcome State Fault Refusal :=
  run .join s fun k t =>
    match t.stack with
    | [] => .trap 7 {} s
    | e :: _ =>
      if e.rejoin && t.pc != e.addr then .trap 7 {} s
      else match s.popEntry k t with
      | .error (c, s') => .quit (s'.moveFailed k t c)
      | .ok (s', t') =>
        let t1 := { t' with active := e.mask &&& t.live }
        if t1.active == 0 then s'.unwindTeam k t1
        else if e.rejoin then .done (s'.putTeam k (endUnrecorded t1))
        else .jump e.addr (s'.putTeam k (endUnrecorded t1))

/-- EXIT (R85): the active lanes end, and the unwind step follows. A loader-role team retires (R265). -/
def execExit (s : State) : Host.Outcome State Fault Refusal :=
  run .exit s fun k t => s.unwindTeam k { t with live := t.live &&& ~~~t.active, active := 0 }

/-- YIELD (R83): ends the issue run when its chain completes (R35, R63). -/
def execYield (f : FmtS) (s : State) : Host.Outcome State Fault Refusal :=
  run (.yield f) s fun k t => .done (if f.c then s.putTeam k { t with yielded := true } else s)

/-- NOP (R41). -/
def execNop (f : FmtS) (s : State) : Host.Outcome State Fault Refusal := run (.nop f) s fun _ _ => .done s

/-- Opens a level over the words that follow, or passes over the body (R89). -/
def openLoop (k : Nat) (t : Team) (l : BitVec 2) (count : Nat) (len : BitVec 8) (s : State) : Did :=
  let first := t.pc + 4
  let last := t.pc + 4 + BitVec.ofNat 64 (4 * len.toNat)
  let inside := match t.loops with
    | [] => true
    | x :: _ => last.ule x.last
  if t.trap.inh || l.toNat != t.loops.length || !inside then .trap 8 {} s
  else if count == 0 then
    .quit (((s.putTeam k ({ t with
      pc := last + 4, resume := 0, phase := 0, target := false, raised := none
      inPacket := t.pc.toNat / 12 == (last + 4).toNat / 12 }.endChain
      last)).countIssue k).endOwnRun k)
  else .done (s.putTeam k { t with loops := { first := first, last := last, count := count } :: t.loops })

/-- LOOP (R89). -/
def execLoop (f : FmtLP) (s : State) : Host.Outcome State Fault Refusal :=
  run (.loop f) s fun k t => openLoop k t f.l ((t.s f.s).toNat % 2 ^ 32) f.len s

/-- LOOPI (R89). -/
def execLoopi (f : FmtLP) (s : State) : Host.Outcome State Fault Refusal :=
  run (.loopi f) s fun k t => openLoop k t f.l (f.imm.toNat + 1) f.len s

/-- LBRK (R92): ends level L and every level inside it. -/
def execLbrk (f : FmtLP) (s : State) : Host.Outcome State Fault Refusal :=
  run (.lbrk f) s fun k t =>
    if t.trap.inh || Nat.ble t.loops.length f.l.toNat then .trap 8 {} s
    else
      match t.loops.drop (t.loops.length - 1 - f.l.toNat) with
      | [] => .trap 8 {} s
      | x :: rest => .jump (x.last + 4) (s.putTeam k { t with loops := rest })

/-! ### Runs and lines (R63, R68) -/

/-- ISSUE_RUN_END (R63, R266): a run of 256 issues of a core's scheduler or affine engine ends, and its team's age stamp
becomes the present ACLK. -/
def execIssueRunEnd (s : State) : Host.Outcome State Fault Refusal :=
  match s.detail with
  | .place core _ => .next (
      if Nat.ble 256 (s.core core).runCount then s.endRun core false
      else if Nat.ble 256 (s.core core).affineCount then s.endRun core true else s)
  | _ => .next s

/-- ICACHE_LINE_FILL (R67, R68): a line that a quad awaits arrives, and the teams frozen on it are ready. -/
def execIcacheLineFill (s : State) : Host.Outcome State Fault Refusal :=
  match s.detail with
  | .numbers [q, c, line] =>
    if !((s.quad q).filling.contains (c, line)) then .next s else
    let s1 := s.fillLine q c line
    .next { s1 with teams := Table.mapVals s1.teams fun k t =>
        if isCoreKey k && coreOf k / 4 == q && t.ctx == c && t.wait == .line line then { t with wait := .ready } else t }
  | _ => .next s

end Sys2Proof.Machine
end

