-- ==== Sys2Proof/Machine/Copies.lean ====
section
/-! DEFINITION. Row 0x28: copies, plane loads, gathers, scatters and batch control (R246 to R257), and row 0x29: pipes (R258 to
R264). -/

namespace Sys2Proof.Machine

/-! ### Operands -/

/-- A scalar of a group (R253). -/
def Team.group (t : Team) (p : BitVec 5) (i : Nat) : Word := t.s (p + BitVec.ofNat 5 i)

/-- A signed number in a word's half. -/
def halfInt (w : Word) (hi : Bool) : Int :=
  if hi then (w.extractLsb' 32 32).toInt else (w.extractLsb' 0 32).toInt

/-- Row length, rows and planes of a CPY (R254). -/
def copyShape (dim : Nat) (len : Word) : Nat × Nat × Nat :=
  (bitsOf len 0 32, if dim == 0 then 1 else bitsOf len 32 16, if Nat.ble dim 1 then 1 else bitsOf len 48 16)

/-- Least and greatest offset from its base that one side of a CPY starts a row at. -/
def strideSpan (dim : Nat) (rows planes : Nat) (rs ps : Int) : Int × Int :=
  let r := if dim == 0 then 0 else rs * Int.ofNat (rows - 1)
  let p := if Nat.ble dim 1 then 0 else ps * Int.ofNat (planes - 1)
  (min 0 r + min 0 p, max 0 r + max 0 p)

/-- A run of offsets lies in an allocation (R254). -/
def inScratch (size : Nat) (base lo hi : Int) : Bool := decide (0 ≤ base + lo) && decide (base + hi ≤ Int.ofNat size)

/-- Every byte that a CPY touches, in order: source and destination (R254). -/
def copyPairs (dim : Nat) (src dst len rows planes : Word) : List (Word × Word) :=
  let sh := copyShape dim len
  (List.range sh.2.2).flatMap fun p =>
    (List.range sh.2.1).flatMap fun r =>
      let off := fun (hi : Bool) =>
        BitVec.ofInt 64 ((if dim == 0 then 0 else halfInt rows hi * Int.ofNat r) +
          (if Nat.ble dim 1 then 0 else halfInt planes hi * Int.ofNat p))
      (List.range sh.1).map fun i => (src + off false + BitVec.ofNat 64 i, dst + off true + BitVec.ofNat 64 i)

/-- The copy engine's queue of a core is full (R268). DESIGN CHOICE: the operations of a context in the cellar, which replay
records hold, count too (log 119). -/
def State.copyFull (s : State) (core : Nat) : Bool :=
  Nat.ble 64 (s.ops.filter fun o => o.2.core == core && o.2.cls == 0).length

/-- Starts a copy-class operation, stalling the team while the queue is full (R246, R268). -/
def State.startCopy (s : State) (k : Nat) (t : Team) (w : Work) (next : State → Did) : Did :=
  if s.copyFull (coreOf k) then .park .engine s else next (s.begin k t 0 w)

/-- CPY (R254, R255). -/
def execCpy (f : FmtE) (s : State) : Host.Outcome State Fault Refusal :=
  run (.cpy f) s fun k t =>
    let dir := (f.f.extractLsb' 0 2).toNat
    let dim := (f.f.extractLsb' 2 2).toNat
    let g := t.group f.p
    let rows := if dim == 0 then 0 else g 3
    let planes := if Nat.ble dim 1 then 0 else g 4
    let sh := copyShape dim (g 2)
    let side := fun (hi : Bool) (base : Word) =>
      let sp := strideSpan dim sh.2.1 sh.2.2 (halfInt rows hi) (halfInt planes hi)
      inScratch (s.scratchSize t) (Int.ofNat base.toNat) sp.1 (sp.2 + Int.ofNat sh.1)
    let some_ := sh.1 != 0 && sh.2.1 != 0 && sh.2.2 != 0
    let srcOk := dir == 0 || dir == 2 || !some_ || side false (g 0)
    let dstOk := dir == 1 || dir == 2 || !some_ || side true (g 1)
    if !srcOk || !dstOk then .trap 52 {} s
    else s.startCopy k t (.copy f.f.toNat (g 0) (g 1) (g 2) rows planes) fun s1 => .done s1

/-- Element width that F of a CPYP names (R253). -/
def planeWidth (f : Nat) : Nat := if f == 8 then 1 else 2 ^ (f % 8)

/-- Plane base, scale base, rows and K of a CPYP's shape word (R256). -/
def planeShape (w : Word) : Nat × Nat × Nat × Nat := (bitsOf w 0 20, bitsOf w 20 20, bitsOf w 40 8 + 1, 128 * bitsOf w 48 16)

/-- CPYP (R256). DESIGN CHOICE: a rows field above 128 raises cause 4, before the checks that R256 lists (log 112). -/
def execCpyp (f : FmtE) (s : State) : Host.Outcome State Fault Refusal :=
  run (.cpyp f) s fun k t =>
    let g := t.group f.p
    let b := planeWidth f.f.toNat
    let n := 512 / b
    match planeShape (g 2) with
    | (pbase, sbase, rows, kk) =>
      if Nat.blt 128 rows then .trap 4 {} s
      else if (g 0).toNat % 64 != 0 then .trap 18 { addr := g 0 } s
      else if (g 1).toNat % 64 != 0 then .trap 18 {} s
      else if kk % n != 0 then .trap 53 {} s
      else if kk != 0 && (Nat.blt (s.scratchSize t) (pbase + b * rows * kk / 8) ||
          Nat.blt (s.scratchSize t) (sbase + rows * (kk / n))) then .trap 52 {} s
      else s.startCopy k t (.planes f.f.toNat (g 0) (g 1) (g 2)) fun s1 => .done s1

/-- GATH and SCAT (R257). -/
def gatherForm (i : Instr) (f : FmtE) (scatter : Bool) (s : State) : Host.Outcome State Fault Refusal :=
  run i s fun k t =>
    let g := t.group f.p
    let l := bitsOf (g 3) 0 32
    let m := bitsOf (g 3) 32 16
    let size := s.scratchSize t
    if (g 2).toNat % 4 != 0 then .trap 18 {} s
    else if m != 0 && (Nat.blt size ((g 2).toNat + 4 * m) || (l != 0 && Nat.blt size ((g 1).toNat + m * l))) then
      .trap 52 {} s
    else s.startCopy k t (.gather scatter (g 0) (g 1) (g 2) (g 3) (g 4)) fun s1 => .done s1

/-- GATH (R257). -/
def execGath (f : FmtE) (s : State) : Host.Outcome State Fault Refusal := gatherForm (.gath f) f false s

/-- SCAT (R257). -/
def execScat (f : FmtE) (s : State) : Host.Outcome State Fault Refusal := gatherForm (.scat f) f true s

/-! ### Batch control (R247, R248) -/

/-- Class of a word of batch control (R253). -/
def classOf (f : FmtE) : Nat := (f.f.extractLsb' 0 2).toNat

/-- BCLOSE (R247): stalls while 15 closed batches of the class are not complete. -/
def execBclose (f : FmtE) (s : State) : Host.Outcome State Fault Refusal :=
  run (.bclose f) s fun k t =>
    let b := t.batches (classOf f)
    if Nat.ble 15 (b.opened - 1 - b.done) then .park (.close (classOf f) (b.done + 1)) s
    else
      let t1 := (t.setS f.p (BitVec.ofNat 64 b.opened)).setBatches (classOf f) { b with opened := b.opened + 1 }
      .done ((s.putTeam k t1).settle t.uid (classOf f))

/-- BWAIT (R248, R251). -/
def execBwait (f : FmtE) (s : State) : Host.Outcome State Fault Refusal :=
  run (.bwait f) s fun k t =>
    let n := (t.s f.q).toNat
    let b := t.batches (classOf f)
    if Nat.ble b.opened n then .trap 13 {} s
    else if Nat.blt b.done n then .park (.batch (classOf f) n) s
    else match b.failedUpTo n with
      | some x => .trap x.cause (x.info (classOf f)) (s.putTeam k (t.reported (classOf f) x.batch))
      | none => .done s

/-- BSTAT (R253). -/
def execBstat (f : FmtE) (s : State) : Host.Outcome State Fault Refusal :=
  run (.bstat f) s fun k t =>
    let b := t.batches (classOf f)
    .done (s.putTeam k (t.setS f.p (BitVec.ofNat 64 (if f.w.getLsbD 0 then b.opened else b.done))))

/-! ### Pipes (R258 to R264) -/

/-- Slots that can be taken: those filled with every earlier one filled (R260). -/
def Pipe.poppable (p : Pipe) : Nat :=
  ((List.range 16).takeWhile fun i => match Table.find? p.slots (p.popped + i) with
    | some (some _) => true
    | _ => false).length

/-- Slots claimed and not yet filled (R264). -/
def Pipe.filling (p : Pipe) : Nat := (p.slots.filter fun e => e.2.isNone).length

/-- The ring is full (R258). -/
def Pipe.full (p : Pipe) : Bool := Nat.ble 16 p.slots.length

/-- Every claimed slot has been taken (R262). -/
def Pipe.empty (p : Pipe) : Bool := p.popped == p.pushed

/-- A pipe of a team's block. -/
def State.pipe? (s : State) (t : Team) (n : Nat) : Option Pipe :=
  match s.block? t.block with
  | some b => Table.find? b.pipes n
  | none => none

/-- Sets a pipe of a block, and wakes the teams that wait for it (R260). -/
def State.putPipe (s : State) (block n : Nat) (p : Pipe) : State :=
  match s.block? block with
  | none => s
  | some b =>
    (s.putBlock block { b with pipes := Table.put b.pipes n p }).wake fun _ t => t.block == block && t.wait == .pipe n

/-- Pipe number of a word of row 0x29 (R259). -/
def pipeOf (f : FmtE) : Nat := (f.w.extractLsb' 0 2).toNat

/-- Endpoint of a word of row 0x29 (R259): 0 memory, 1 scratchpad, 2 register. -/
def endOf (f : FmtE) : Nat := (f.f.extractLsb' 0 2).toNat

/-- The 256 bytes of a slice (R260). -/
def sliceBytes (t : Team) (r row : Nat) : List Byte := (t.slice r row).flatMap fun w => toBytes 8 w.toNat

/-- A lane of a slot's bytes. -/
def slotLane (bs : List Byte) (i : Nat) : Word := BitVec.ofNat 64 (ofBytes ((bs.drop (8 * i)).take 8))

/-- A scratchpad endpoint of 256 bytes is out of bounds (R260). -/
def State.endBad (s : State) (t : Team) (f : FmtE) : Bool :=
  endOf f == 1 && Nat.blt (s.scratchSize t) ((t.s f.p).toNat + 256)

/-- PUSH of a vector register: one slot for each executed pass (R260). -/
def State.pushRows (s : State) (k : Nat) (n r : Nat) : List Nat → Did
  | [] => .done s
  | row :: rest =>
    match s.team? k with
    | none => .quit s
    | some t =>
      match s.pipe? t n with
      | none => .trap 99 { pass := row } s
      | some p =>
        if p.cret then .trap 99 { pass := row } s
        else if p.full then .park (.pipe n) (s.modTeam k fun u => { u with resume := row })
        else match t.poisonOf r row with
          | some q => .trap q.cause (q.info row) s
          | none =>
            (s.putPipe t.block n { p with
              pushed := p.pushed + 1, slots := Table.put p.slots p.pushed (some (sliceBytes t r row)) }).pushRows k n r rest

/-- PUSH (R260, R261, R263). DESIGN CHOICE: cause 99 comes before cause 52 (log 118). -/
def execPush (f : FmtE) (s : State) : Host.Outcome State Fault Refusal :=
  run (.push f) s fun k t =>
    match s.pipe? t (pipeOf f) with
    | none => .trap 99 {} s
    | some p =>
      if p.producer != k || p.eos || p.cret then .trap 99 { pass := t.resume } s
      else if s.endBad t f then .trap 52 {} s
      else if endOf f == 2 then s.pushRows k (pipeOf f) f.p.toNat t.passesLeft
      else if p.full then .park (.pipe (pipeOf f)) s
      else s.startCopy k t (.push (pipeOf f) p.pushed (endOf f == 0) (t.s f.p)) fun s1 =>
        .done (s1.putPipe t.block (pipeOf f) { p with pushed := p.pushed + 1, slots := Table.put p.slots p.pushed none })

/-- Slots that a POP into a vector register has taken when it stands at a pass: one for each executed pass before it (R260). -/
def Team.takenAt (t : Team) (row : Nat) : Word := BitVec.ofNat 64 (t.passes.filter fun r => Nat.blt r row).length

/-- POP into a vector register: one slot for each executed pass (R260, R262). -/
def State.popRows (s : State) (k : Nat) (n r : Nat) (q : BitVec 5) : List Nat → Did
  | [] => .done (s.modTeam k fun u => u.setS q (u.takenAt u.rows))
  | row :: rest =>
    match s.team? k with
    | none => .quit s
    | some t =>
      match s.pipe? t n with
      | none => .trap 99 { pass := row } s
      | some p =>
        match Table.find? p.slots p.popped with
        | some (some bs) =>
          if p.empty then .park (.pipe n) s else
          let m := t.active &&& rowsMask row (row + 1)
          let after := t.writeV r m fun l => slotLane bs (l - 32 * row)
          match s.writePass k row after [(r, row)] with
          | .error x => x
          | .ok s1 => (s1.putPipe t.block n { p with popped := p.popped + 1, slots := Table.del p.slots p.popped }).popRows
              k n r q rest
        | _ =>
          if p.empty && p.eos then .done (s.modTeam k fun u => u.setS q (u.takenAt row))
          else .park (.pipe n) (s.modTeam k fun u => { u with resume := row })

/-- POP (R260 to R263). DESIGN CHOICE: cause 99 comes before cause 52 (log 118). -/
def execPop (f : FmtE) (s : State) : Host.Outcome State Fault Refusal :=
  run (.pop f) s fun k t =>
    match s.pipe? t (pipeOf f) with
    | none => .trap 99 {} s
    | some p =>
      if p.consumer != k then .trap 99 {} s
      else if s.endBad t f then .trap 52 {} s
      else if endOf f == 2 then s.popRows k (pipeOf f) f.p.toNat f.q t.passesLeft
      else if p.poppable == 0 then
        (if p.empty && p.eos then .done (s.putTeam k (t.setS f.q 0)) else .park (.pipe (pipeOf f)) s)
      else s.startCopy k t (.pop (pipeOf f) p.popped (endOf f == 0) (t.s f.p)) fun s1 =>
        .done ((s1.putPipe t.block (pipeOf f) { p with popped := p.popped + 1 }).modTeam k fun u => u.setS f.q 1)

/-- PEOS (R262). -/
def execPeos (f : FmtE) (s : State) : Host.Outcome State Fault Refusal :=
  run (.peos f) s fun k t =>
    match s.pipe? t (pipeOf f) with
    | none => .trap 99 {} s
    | some p =>
      if p.producer != k then .trap 99 {} s else .done (s.putPipe t.block (pipeOf f) { p with eos := true })

/-- A pipe's state as PSTAT writes it (R264). -/
def Pipe.word (p : Pipe) : Word :=
  BitVec.ofNat 64 (p.poppable + 32 * p.filling + (if p.eos then 2 ^ 16 else 0) + (if p.cret then 2 ^ 17 else 0) +
    (if p.pret then 2 ^ 18 else 0) + 2 ^ 32 * (p.popped % 2 ^ 32))

/-- PSTAT (R264). -/
def execPstat (f : FmtE) (s : State) : Host.Outcome State Fault Refusal :=
  run (.pstat f) s fun k t =>
    match s.pipe? t (pipeOf f) with
    | none => .trap 99 {} s
    | some p =>
      if p.producer != k && p.consumer != k then .trap 99 {} s else .done (s.putTeam k (t.setS f.p p.word))

/-! ### Completion of copy-class operations -/

/-- Writes bytes that an operation holds, in order, as far as no fault stops it. -/
def State.emit (s : State) (o : Op) (mem : Bool) (ws : List (Word × Byte)) : State × Option Stop :=
  if !mem then (s.engineScratchPut o (ws.map fun w => (w.1.toNat, w.2)), none)
  else
    let stop := ws.findSome? fun w => s.engineCause o w.1 true [0, 4]
    let ok := ws.takeWhile fun w => (s.engineCause o w.1 true [0, 4]).isNone
    let ms := ok.map fun w => { dst := w.1, val := w.2, src := none }
    match s.engineWrite o ms ((ms.map fun m => sig57 m.dst / 64).eraseDups) with
    | (s1, some x) => (s1, some x)
    | (s1, none) => (s1, stop)

/-- One line of a CPYP: its scale and its planes (R256). -/
def State.planeLine (s : State) (o : Op) (f : Nat) (shape : Word) (r c : Nat) (a : Word) : State :=
  let b := planeWidth f
  let n := 512 / b
  match planeShape shape with
  | (pbase, sbase, rows, kk) =>
    let data := ofBytes ((List.range 64).map fun i => s.engineByte o (a + BitVec.ofNat 64 i))
    let scale := ((s.engineDesc o a).getD 0).toNat / 256
    let planes := (List.range b).flatMap fun q => (List.range (n / 8)).map fun i =>
      (pbase + q * rows * kk / 8 + r * kk / 8 + (c * n + 8 * i) / 8,
       BitVec.ofNat 8 ((List.range 8).foldl (fun v x => v + if data.testBit (b * (8 * i + x) + q) then 2 ^ x else 0) 0))
    s.engineScratchPut o ((sbase + r * (kk / n) + c, BitVec.ofNat 8 scale) :: planes)

/-- The lines of a CPYP in order, up to the first fault (R251, R256, R442). -/
def State.planeLines (s : State) (o : Op) (f : Nat) (src stride shape : Word) :
    List (Nat × Nat) → State × Option Stop
  | [] => (s, none)
  | (r, c) :: rest =>
    let a := src + BitVec.ofNat 64 r * stride + BitVec.ofNat 64 (64 * c)
    match s.engineCause o a false [0, 1] with
    | some x => (s, some x)
    | none =>
      let spoiled := s.badFrom o.core (s.engineAddr o a false) && (List.range 64).any fun i => !s.engineDirty o (a + BitVec.ofNat 64 i)
      match (if spoiled then none else s.engineDesc o a) with
      | none => (s, some { cause := 21, addr := a })
      | some x =>
        if x.toNat % 256 != (if f == 8 then 0x20 else 0x10 + f % 8) then (s, some { cause := 53, addr := a })
        else (s.planeLine o f shape r c a).planeLines o f src stride shape rest

/-- What a copy-class operation does (R254 to R257, R260). -/
def State.copyAct (s : State) (o : Op) : State × Option Stop :=
  match o.work with
  | .copy f src dst len rows planes =>
    let dir := f % 4
    s.move o (dir == 0 || dir == 2) (dir == 1 || dir == 2) (copyPairs (f / 4 % 4) src dst len rows planes)
  | .planes f src stride shape =>
    match planeShape shape with
    | (_, _, rows, kk) =>
      s.planeLines o f src stride shape ((List.range rows).flatMap fun r =>
        (List.range (kk / (512 / planeWidth f))).map fun c => (r, c))
  | .gather scatter base packed index shape stride =>
    let l := bitsOf shape 0 32
    let pairs := (List.range (bitsOf shape 32 16)).flatMap fun i =>
      let x := ofBytes ((List.range 4).map fun j => s.engineScratch o (index.toNat + 4 * i + j))
      let a := base + BitVec.ofNat 64 x * stride
      (List.range l).map fun j =>
        let m := a + BitVec.ofNat 64 j
        let p := packed + BitVec.ofNat 64 (i * l + j)
        if scatter then (p, m) else (m, p)
    s.move o (!scatter) scatter pairs
  | .push pipe n mem a =>
    let r := s.pull o mem false ((List.range 256).map fun i => (a + BitVec.ofNat 64 i, BitVec.ofNat 64 i)) []
    if (match r.2 with
        | some x => x.waits o
        | none => false) then (s, r.2) else
    let got := r.1.map fun m => m.val
    let rest := (List.range (256 - got.length)).map fun i => (Config.freeWord (s.fresh + i)).setWidth 8
    match s.block? o.block with
    | none => (s, r.2)
    | some b =>
      match Table.find? b.pipes pipe with
      | none => (s, r.2)
      | some p =>
        ({ s with fresh := s.fresh + rest.length }.putPipe o.block pipe
          { p with slots := if p.cret then Table.del p.slots n else Table.put p.slots n (some (got ++ rest)) }, r.2)
  | .pop pipe n mem a =>
    match s.block? o.block with
    | none => (s, none)
    | some b =>
      match Table.find? b.pipes pipe with
      | none => (s, none)
      | some p =>
        match Table.find? p.slots n with
        | some (some bs) =>
          let r := s.emit o mem ((List.range 256).map fun i => (a + BitVec.ofNat 64 i, bs.getD i 0))
          if (match r.2 with
              | some x => x.waits o
              | none => false) then (s, r.2)
          else (r.1.putPipe o.block pipe { p with slots := Table.del p.slots n }, r.2)
        | _ => (s, none)
  | _ => (s, none)

/-- COPY_OP_COMPLETE (R249, R251): a copy-class operation is performed and ends, or stops at a fault. -/
def execCopyOpComplete (s : State) : Host.Outcome State Fault Refusal :=
  match s.detail with
  | .place id _ =>
    match Table.find? s.ops id with
    | some o => .next (if o.cls == 0 then s.runOp id State.copyAct else s)
    | none => .next s
  | _ => .next s

end Sys2Proof.Machine
end

