-- ==== Sys2Proof/Machine/Cross.lean ====
section
/-! DEFINITION. Row 0x18: shuffles, single lanes, votes, scans and compaction (R175 to R185). -/

namespace Sys2Proof.Machine

/-- The lanes that take part, from the pass at which the instruction resumes (R175). -/
def Team.parts (t : Team) (g : BitVec 4) : Mask := t.takers g &&& rowsMask t.resume 32

/-- The poison met by a form that reads whole register a across lanes, and registers bs lane by lane (R186, R205). -/
def Team.poisonAcross (t : Team) (a : List Nat) (bs : List Nat) : Option (Nat × Poison) :=
  match t.passesLeft with
  | [] => none
  | k :: _ =>
    match a.findSome? fun r => (List.range t.rows).findSome? fun row => t.poisonOf r row with
    | some p => some (k, p)
    | none => t.poisonStop bs

/-- Names what a word of row 0x18 has written in each executed pass and puts its team; a word that finds no place writes
nothing (R129, R187). -/
def State.crossDone (s : State) (k : Nat) (t after : Team) (d : Nat) : Did :=
  match s.nameSlices k after (t.passesLeft.map fun row => (d, row)) with
  | some s1 => .done (s1.putTeam k after)
  | none => .trap 42 { pass := t.passesLeft.headD 0 } s

/-- Writes one register in the lanes that take part, from values that all lanes may give (R175). A word that faults writes
nothing, so that it resumes at the first of its passes (R187, R376; log 102). -/
def crossWrite (s : State) (k : Nat) (t : Team) (g : BitVec 4) (d : Nat) (across bs : List Nat)
    (f : Nat → Word × BitVec 6) : Did :=
  match t.poisonAcross across bs with
  | some (_, p) => .trap p.cause (p.info (t.passesLeft.headD 0)) s
  | none => s.crossDone k t (t.compute d (t.parts g) f) d

/-- The element of a register that an index of sub-elements names; zero outside the team (R177). -/
def elementAt (t : Team) (w a i : Nat) : Nat :=
  let n := 64 / w
  if Nat.ble t.width (i / n) then 0 else elem w (t.lane a (i / n)) (i % n)

/-- SHFL (R177). -/
def execShfl (f : FmtV) (s : State) : Host.Outcome State Fault Refusal :=
  run (.shfl f) s fun k t =>
    let w := widthOf f.t
    crossWrite s k t f.g f.d.toNat [f.a.toNat] [f.b.toNat] fun l =>
      (pack w fun e => elementAt t w f.a.toNat (elem w (t.lane f.b.toNat l) e), 0)

/-- SHFLX (R177). -/
def execShflx (f : FmtV) (s : State) : Host.Outcome State Fault Refusal :=
  run (.shflx f) s fun k t =>
    let w := widthOf f.t
    crossWrite s k t f.g f.d.toNat [f.a.toNat] [f.b.toNat] fun l =>
      (pack w fun e => elementAt t w f.a.toNat ((l * (64 / w) + e) ^^^ elem w (t.lane f.b.toNat l) e), 0)

/-- BCL (R177). -/
def execBcl (f : FmtV) (s : State) : Host.Outcome State Fault Refusal :=
  run (.bcl f) s fun k t =>
    let w := widthOf f.t
    crossWrite s k t f.g f.d.toNat [f.a.toNat] [] fun _ =>
      (pack w fun _ => elementAt t w f.a.toNat (t.s f.b).toNat, 0)

/-- LEXT of a lane's value (R178). DESIGN CHOICE: of its source it reads, for R205, the slice that holds the lane alone, and no
slice where no lane takes part; it faults at the first executed pass (log 103). -/
def execLext (f : FmtV) (s : State) : Host.Outcome State Fault Refusal :=
  run (.lext f) s fun k t =>
    let j := (t.s f.b).toNat
    if t.parts f.g == 0 then .done s
    else if Nat.ble t.width j then .done (s.putTeam k (t.setS f.d 0))
    else
      match t.poisonOf f.a.toNat (j / 32) with
      | some p => .trap p.cause (p.info (t.passesLeft.headD 0)) s
      | none => .done (s.putTeam k (t.setS f.d (t.lane f.a.toNat j)))

/-- LEXT.id (R178). -/
def execLextId (f : FmtV) (s : State) : Host.Outcome State Fault Refusal :=
  run (.lextId f) s fun k t => crossWrite s k t f.g f.d.toNat [] [] fun l => (BitVec.ofNat 64 l, 0)

/-- HOMEID of a lane (R20). -/
def Team.homeOf (t : Team) (l : Nat) : Nat := t.home.getD l l

/-- LEXT.home (R178). -/
def execLextHome (f : FmtV) (s : State) : Host.Outcome State Fault Refusal :=
  run (.lextHome f) s fun k t => crossWrite s k t f.g f.d.toNat [] [] fun l => (BitVec.ofNat 64 (t.homeOf l), 0)

/-- LINS (R178): one lane, where it takes part. -/
def execLins (f : FmtV) (s : State) : Host.Outcome State Fault Refusal :=
  run (.lins f) s fun k t =>
    let j := (t.s f.b).toNat
    if Nat.blt j t.width && (t.parts f.g).getLsbD j then
      let after := t.writeV f.d.toNat (1#1024 <<< j) fun _ => t.s f.a
      match s.nameSlices k after [(f.d.toNat, j / 32)] with
      | some s1 => .done (s1.putTeam k after)
      | none => .trap 42 { pass := t.passesLeft.headD 0 } s
    else .done s

/-- BALLOT (R179). -/
def execBallot (f : FmtV) (s : State) : Host.Outcome State Fault Refusal :=
  run (.ballot f) s fun k t =>
    let m := t.takers f.g &&& t.pred f.a.toNat &&& fullMask t.width
    let q := (t.s f.b).toNat
    crossWrite s k t f.g f.d.toNat [] [] fun _ => (if Nat.blt q 16 then m.extractLsb' (64 * q) 64 else 0, 0)

/-- VANY (R180). -/
def execVany (f : FmtV) (s : State) : Host.Outcome State Fault Refusal :=
  run (.vany f) s fun k t =>
    let m := t.takers f.g
    .done (s.putTeam k (t.setPred f.d.toNat m (if m &&& t.pred f.a.toNat == 0 then 0 else BitVec.allOnes 1024)))

/-- VALL (R180). -/
def execVall (f : FmtV) (s : State) : Host.Outcome State Fault Refusal :=
  run (.vall f) s fun k t =>
    let m := t.takers f.g
    .done (s.putTeam k (t.setPred f.d.toNat m (if m &&& ~~~(t.pred f.a.toNat) == 0 then BitVec.allOnes 1024 else 0)))

/-- PCNT (R180). -/
def execPcnt (f : FmtV) (s : State) : Host.Outcome State Fault Refusal :=
  run (.pcnt f) s fun k t =>
    let n := (lanesOf (t.takers f.g &&& t.pred f.a.toNat) t.width).length
    crossWrite s k t f.g f.d.toNat [] [] fun _ => (BitVec.ofNat 64 n, 0)

/-- PFIRST (R180). -/
def execPfirst (f : FmtV) (s : State) : Host.Outcome State Fault Refusal :=
  run (.pfirst f) s fun k t =>
    let v := match lanesOf (t.takers f.g &&& t.pred f.a.toNat) t.width with
      | [] => BitVec.allOnes 64
      | l :: _ => BitVec.ofNat 64 l
    crossWrite s k t f.g f.d.toNat [] [] fun _ => (v, 0)

/-! ### Scans (R181, R182) -/

/-- The combination of an operator (R182). -/
def scanOp (op : BitVec 2) (a b : Nat) : Nat × BitVec 6 :=
  match op.toNat with
  | 0 => ((a + b) % 2 ^ 32, 0)
  | 1 => fp32.add a b
  | 2 => (if sgn 32 a ≤ sgn 32 b then b else a, 0)
  | _ => (if sgn 32 a ≤ sgn 32 b then a else b, 0)

/-- The identity of an operator (R182). -/
def scanId (op : BitVec 2) : Nat :=
  match op.toNat with
  | 0 => 0
  | 1 => 0
  | 2 => 0x80000000
  | _ => 0x7FFFFFFF

/-- One place of a scan: lane, whether it begins a segment, the prefix before it, the prefix with it, flags. -/
structure ScanStep where
  lane : Nat
  first : Bool
  before : Nat
  upTo : Nat
  flags : BitVec 6
  deriving DecidableEq, Repr

/-- The prefixes of a sequence of lanes, left to right (R181, R182). -/
def scanFrom (op : BitVec 2) (head : Nat → Bool) (x : Nat → Nat) : List Nat → Option Nat → List ScanStep
  | [], _ => []
  | l :: ls, acc =>
    match (if head l then none else acc) with
    | none => { lane := l, first := true, before := scanId op, upTo := x l, flags := 0 } :: scanFrom op head x ls (some (x l))
    | some a =>
      let r := scanOp op a (x l)
      { lane := l, first := false, before := a, upTo := r.1, flags := r.2 } :: scanFrom op head x ls (some r.1)

/-- The total of each lane's segment (R181). -/
def segmentTotals : List ScanStep → List (Nat × Nat)
  | [] => []
  | p :: ps =>
    match ps, segmentTotals ps with
    | q :: _, (l, v) :: rest => (p.lane, if q.first then p.upTo else v) :: (l, v) :: rest
    | _, rest => (p.lane, p.upTo) :: rest

/-- The two sequences of a scan or reduction, and the flags of every addition made (R181, R182). -/
def scanBoth (t : Team) (f : FmtV) : List ScanStep × List ScanStep × BitVec 6 :=
  let ls := lanesOf (t.takers f.g) t.width
  let head := fun l => f.b != 0 && (t.pred f.b.toNat).getLsbD l
  let a := scanFrom f.t head (fun l => elem 32 (t.lane f.a.toNat l) 0) ls none
  let b := scanFrom f.t head (fun l => elem 32 (t.lane f.a.toNat l) 1) ls none
  (a, b, (a ++ b).foldl (fun fl p => fl ||| p.flags) 0)

/-- The value that a list of pairs gives a lane. -/
def laneValue (ps : List (Nat × Nat)) (l : Nat) : Nat :=
  match ps.find? fun p => p.1 == l with
  | some p => p.2
  | none => 0

/-- Writes the result of a scan: two values a lane, and the scan's flags (R181, R149). -/
def scanForm (i : Instr) (f : FmtV) (s : State) (pick : List ScanStep → List (Nat × Nat)) :
    Host.Outcome State Fault Refusal :=
  run i s fun k t =>
    let r := scanBoth t f
    let va := pick r.1
    let vb := pick r.2.1
    crossWrite s k t f.g f.d.toNat [] [f.a.toNat] fun l =>
      (pack 32 fun e => if e == 0 then laneValue va l else laneValue vb l, r.2.2)

/-- SCAN (R181). -/
def execScan (f : FmtV) (s : State) : Host.Outcome State Fault Refusal :=
  scanForm (.scan f) f s fun ps => ps.map fun p => (p.lane, p.upTo)

/-- Flags of the additions that form the prefixes before the lanes of a sequence (R181, log 31). -/
def prefixFlags (ps : List ScanStep) : BitVec 6 :=
  (ps.zip (ps.drop 1)).foldl (fun fl p => if p.2.first then fl else fl ||| p.1.flags) 0

/-- SCANX (R181): its flags are those of the additions that form the prefixes it writes (log 31). -/
def execScanx (f : FmtV) (s : State) : Host.Outcome State Fault Refusal :=
  run (.scanx f) s fun k t =>
    let r := scanBoth t f
    let va := r.1.map fun p => (p.lane, p.before)
    let vb := r.2.1.map fun p => (p.lane, p.before)
    crossWrite s k t f.g f.d.toNat [] [f.a.toNat] fun l =>
      (pack 32 fun e => if e == 0 then laneValue va l else laneValue vb l, prefixFlags r.1 ||| prefixFlags r.2.1)

/-- RED (R181). -/
def execRed (f : FmtV) (s : State) : Host.Outcome State Fault Refusal := scanForm (.red f) f s segmentTotals

/-! ### Compaction (R183 to R185) -/

/-- The team after its live lanes have moved to the lowest positions (R184). -/
def Team.compacted (t : Team) : Team :=
  let ls := lanesOf t.live t.width
  let c := ls.length
  let old := fun k => ls.getD k 0
  let spread := t.poison.flatMap fun p => (List.range t.rows).filterMap fun row =>
    if (List.range 32).any fun i => Nat.blt (32 * row + i) c && old (32 * row + i) / 32 == p.row
    then some { p with row := row } else none
  { t with
    v := Table.mapVals t.v fun _ xs => (List.range t.width).map fun k => if Nat.blt k c then xs.getD (old k) 0 else 0
    p := Table.mapVals t.p fun _ m => maskOf t.width fun k => Nat.blt k c && m.getLsbD (old k)
    home := ls.map t.homeOf
    live := fullMask c
    active := fullMask c
    poison := spread
    unread := t.unread + (t.poison.filter fun p => !p.read && !(ls.any fun l => l / 32 == p.row)).length }

/-- Enough slices are free, or can be freed by spilling, for one register of the packed team (R185). -/
def State.compactRoom (s : State) (k : Nat) (t : Team) : Bool :=
  Nat.ble (((lanesOf t.live t.width).length + 31) / 32) (s.slicesFree (coreOf k))

/-- Names the slices of one register of the packed team (R185): its old slices are brought back, every new one is named, and only
then do the old ones lose their counts. -/
def State.nameRegister (s : State) (k : Nat) (after : Team) (r : Nat) : State :=
  let core := coreOf k
  let rows := List.range after.rows
  let olds := rows.map fun row => s.nameOf k r row
  let named := rows.foldl (fun (c : State × List (Nat × Nat)) row =>
    match c.1.nameValue core 0 (after.slice r row) (after.poisonOf r row).isSome (olds ++ c.2.map Prod.snd) with
    | some (c1, id) => (c1, c.2 ++ [(sliceKey k r row, id)])
    | none => c) (s.readSlices core olds, [])
  let x := named.2.foldl (fun (x : Core) y => x.setName y.1 y.2) (named.1.core core)
  named.1.putCore core (olds.foldl (fun (x : Core) id => x.freeSlice id) x)

/-- Names the slices of the packed team, one register after another (R184, R185). -/
def State.nameCompacted (s : State) (k : Nat) (after : Team) : State :=
  after.v.foldl (fun (b : State) e => b.nameRegister k after e.1) s

/-- COMPACT (R183 to R185). -/
def execCompact (f : FmtV) (s : State) : Host.Outcome State Fault Refusal :=
  run (.compact f) s fun k t =>
    if !t.stack.isEmpty then .trap 9 {} s
    else if !s.compactRoom k t then .trap 42 {} s
    else .done ((s.nameCompacted k t.compacted).putTeam k t.compacted)

end Sys2Proof.Machine
end

