-- ==== Sys2Proof/Machine/Aes.lean ====
section
/-! DEFINITION. AES-256 of FIPS 197, the XTS form in which checkpoint images are encrypted (R423, log 27), and the Galois counter
mode that seals the messages of a session (R414, R415, log 25). -/

namespace Sys2Proof.Machine

/-- Twice a byte in the field of AES. -/
def aTwice (a : Nat) : Nat := if Nat.blt a 128 then 2 * a else Nat.xor (2 * a - 256) 0x1B

/-- A product in the field of AES, bit by bit of the second factor, from the bit numbered n - 1 down. -/
def aMul (a b : Nat) : Nat → Nat
  | 0 => 0
  | n + 1 => Nat.xor (aTwice (aMul a (b / 2) n)) (if b % 2 == 1 then a else 0)

/-- The inverse in the field of AES, 0 of 0: the product of the powers 2, 4 and so on to 128. -/
def aInverse (a : Nat) : Nat :=
  ((List.range 7).foldl (fun (x : Nat × Nat) _ =>
    let q := aMul x.2 x.2 8
    (aMul x.1 q 8, q)) (1, a)).1

/-- A byte turned left by n bits. -/
def aTurn (a n : Nat) : Nat := (a * 2 ^ n) % 256 + a * 2 ^ n / 256

/-- The substitution: the inverse, then the affine map. -/
def aSub (a : Nat) : Nat :=
  let b := aInverse a
  Nat.xor (Nat.xor (Nat.xor (Nat.xor b (aTurn b 1)) (Nat.xor (aTurn b 2) (aTurn b 3))) (aTurn b 4)) 0x63

/-- The substitution as a table. -/
def aBox : List Nat := (List.range 256).map aSub

/-- Exclusive or of two byte strings. -/
def aXor (a b : List Nat) : List Nat := List.zipWith (fun x y => Nat.xor x y) a b

/-- The words of the key schedule after the eight of the key; the constant of the round, and words still to come. -/
def aExpand (box : List Nat) : Nat → Nat → List (List Nat) → List (List Nat)
  | 0, _, ws => ws
  | n + 1, rc, ws =>
    let i := ws.length
    let last := ws.getD (i - 1) []
    let t := if i % 8 == 0 then
        aXor ((last.drop 1 ++ last.take 1).map fun b => box.getD b 0) [rc, 0, 0, 0]
      else if i % 8 == 4 then last.map fun b => box.getD b 0 else last
    aExpand box n (if i % 8 == 0 then aTwice rc else rc) (ws ++ [aXor (ws.getD (i - 8) []) t])

/-- The 15 round keys of a 32-byte key. -/
def aKeys (box : List Nat) (key : List Nat) : List (List Nat) :=
  let ws := aExpand box 52 1 ((List.range 8).map fun i => (key.drop (4 * i)).take 4)
  (List.range 15).map fun r => ((ws.drop (4 * r)).take 4).flatten

/-- Row r of the state moves left by r columns, or right. -/
def aShift (right : Bool) (s : List Nat) : List Nat :=
  (List.range 16).map fun i =>
    let r := i % 4
    let c := i / 4
    s.getD (r + 4 * ((c + (if right then 4 - r else r)) % 4)) 0

/-- Each column times a circulant of the field. -/
def aMix (f : List Nat) (s : List Nat) : List Nat :=
  (List.range 16).map fun i =>
    let c := i / 4
    (List.range 4).foldl (fun x j => Nat.xor x (aMul (s.getD (4 * c + j) 0) (f.getD ((j + 4 - i % 4) % 4) 0) 4)) 0

/-- AES-256 of one block of 16 bytes. -/
def aEncrypt (box : List Nat) (keys : List (List Nat)) (b : List Nat) : List Nat :=
  let s := (keys.drop 1).zipIdx.foldl (fun (s : List Nat) k =>
    let t := aShift false (s.map fun x => box.getD x 0)
    aXor (if k.2 == 13 then t else aMix [2, 3, 1, 1] t) k.1) (aXor b (keys.getD 0 []))
  s

/-- The inverse of AES-256. -/
def aDecrypt (box : List Nat) (keys : List (List Nat)) (b : List Nat) : List Nat :=
  let inv := fun (x : Nat) => box.findIdx fun y => y == x
  keys.dropLast.reverse.zipIdx.foldl (fun (s : List Nat) k =>
    let t := aXor ((aShift true s).map inv) k.1
    if k.2 == 13 then t else aMix [14, 11, 13, 9] t) (aXor b (keys.getD 14 []))

/-- The two key schedules of a 64-byte key pair: data, tweak. -/
structure AesPair where
  box : List Nat
  data : List (List Nat)
  tweak : List (List Nat)

/-- The schedules of a key pair. -/
def aPair (key : List Nat) : AesPair :=
  let box := aBox
  { box := box, data := aKeys box (key.take 32), tweak := aKeys box (key.drop 32) }

/-- One 16-byte block in XTS with its tweak number (R423). -/
def AesPair.block (p : AesPair) (decrypt : Bool) (tweak : Nat) (b : List Nat) : List Nat :=
  let t := aEncrypt p.box p.tweak ((List.range 16).map fun i => tweak / 256 ^ i % 256)
  aXor (if decrypt then aDecrypt p.box p.data (aXor b t) else aEncrypt p.box p.data (aXor b t)) t

/-- Bytes, a multiple of 16, that stand at an address, encrypted or decrypted block by block (R423). -/
def AesPair.run (p : AesPair) (decrypt : Bool) (at_ : Nat) (bs : List Byte) : List Byte :=
  (List.range (bs.length / 16)).flatMap fun i =>
    (p.block decrypt (at_ / 16 + i) (((bs.drop (16 * i)).take 16).map fun b => b.toNat)).map fun n => BitVec.ofNat 8 n

/-! ### The Galois counter mode (R414, R415) -/

/-- Half an element of the field of the mode, whose bits count from the most significant. -/
def gHalf (v : Nat) : Nat := if v % 2 == 1 then Nat.xor (v / 2) (0xE1 * 2 ^ 120) else v / 2

/-- The product of two elements, bit by bit of the first, from the bit numbered n - 1 down: the sum so far is z. -/
def gMul (x : Nat) : Nat → Nat → Nat → Nat
  | 0, _, z => z
  | n + 1, v, z => gMul x n (gHalf v) (if x.testBit n then Nat.xor z v else z)

/-- A block of at most 16 bytes as an element: its first byte the most significant, zeros beyond its end. -/
def gElement (b : List Nat) : Nat := (List.range 16).foldl (fun v i => 256 * v + b.getD i 0) 0

/-- The 16 bytes of an element. -/
def gBytes (v : Nat) : List Nat := (List.range 16).map fun i => v / 256 ^ (15 - i) % 256

/-- Block i of a byte string. -/
def gBlock (bs : List Nat) (i : Nat) : List Nat := (bs.drop (16 * i)).take 16

/-- Adds the blocks of a byte string to a hash under h. -/
def gHash (h y : Nat) (bs : List Nat) : Nat :=
  (List.range ((bs.length + 15) / 16)).foldl (fun y i => gMul (Nat.xor y (gElement (gBlock bs i))) 128 h 0) y

/-- A key, an initialisation vector of 12 bytes and the data that is authenticated without being encrypted. -/
structure Gcm where
  key : List Nat
  iv : List Nat
  aad : List Nat

/-- The stream that encrypts the blocks of a message, or decrypts them, and the tag of a ciphertext. -/
def Gcm.run (g : Gcm) (msg : List Nat) (decrypt : Bool) : List Nat × List Nat :=
  let box := aBox
  let keys := aKeys box g.key
  let enc := fun (n : Nat) => aEncrypt box keys (g.iv ++ (gBytes n).drop 12)
  let out := (List.range ((msg.length + 15) / 16)).flatMap fun i => aXor (gBlock msg i) (enc (i + 2))
  let cipher := if decrypt then msg else out
  let h := gElement (aEncrypt box keys (List.replicate 16 0))
  let y := gHash h (gHash h 0 g.aad) cipher
  let z := gMul (Nat.xor y (8 * g.aad.length * 2 ^ 64 + 8 * cipher.length)) 128 h 0
  (out, aXor (gBytes z) (enc 1))

/-- A message sealed: its ciphertext and the tag of 16 bytes (R415). -/
def Gcm.seal (g : Gcm) (msg : List Nat) : List Nat :=
  let r := g.run msg false
  r.1 ++ r.2

/-- A sealed message opened; none where its tag is wrong (R415). -/
def Gcm.unseal (g : Gcm) (bs : List Nat) : Option (List Nat) :=
  let c := bs.take (bs.length - 16)
  let r := g.run c true
  if Nat.ble 16 bs.length && r.2 == bs.drop (bs.length - 16) then some r.1 else none

end Sys2Proof.Machine
end

