-- ==== Sys2Proof/Machine/Keccak.lean ====
section
/-! DEFINITION. SHAKE256, which names lines (R292) and digests images (R412, R440): the function of FIPS 202, whose constants
are computed as that standard computes them (log 19). A state is 25 lanes, lane 5 y + x of column x and row y. -/

namespace Sys2Proof.Machine

/-- One step of the shift register that gives the bits of the round constants. -/
def lfsrStep (r : Nat) : Nat := if Nat.blt r 128 then 2 * r else Nat.xor (2 * r) 0x171

/-- The constant of a round from the register as it begins, and the register as it ends: step j gives bit 2^j - 1. -/
def roundConstant (r : Nat) : Nat × Nat :=
  (List.range 7).foldl (fun (a : Nat × Nat) j => (a.1 + a.2 % 2 * 2 ^ (2 ^ j - 1), lfsrStep a.2)) (0, r)

/-- Theta: each lane takes the parities of the columns beside its own. -/
def stepTheta (a : List Word) : List Word :=
  let parity := (List.range 5).map fun x => (List.range 5).foldl (fun w y => w ^^^ a.getD (5 * y + x) 0) 0
  a.zipIdx.map fun l => l.1 ^^^ parity.getD ((l.2 + 4) % 5) 0 ^^^ (parity.getD ((l.2 + 1) % 5) 0).rotateLeft 1

/-- Rho and pi: along the walk that leads from (x, y) to (y, 2 x + 3 y), the lane met at step t is rotated by the triangular
number of t + 1 and stands where the walk goes next. -/
def stepRhoPi (a : List Word) : Nat → Nat → Nat → List Word → List Word
  | 0, _, _, b => b
  | n + 1, x, y, b =>
    let t := 24 - (n + 1)
    let next := (2 * x + 3 * y) % 5
    stepRhoPi a n y next (b.set (5 * next + y) ((a.getD (5 * y + x) 0).rotateLeft ((t + 1) * (t + 2) / 2 % 64)))

/-- Chi: each lane and the two after it in its row. -/
def stepChi (b : List Word) : List Word :=
  b.zipIdx.map fun l =>
    let at_ := fun (n : Nat) => b.getD (l.2 / 5 * 5 + (l.2 + n) % 5) 0
    l.1 ^^^ (~~~(at_ 1) &&& at_ 2)

/-- Iota: the constant goes into lane 0. -/
def stepIota (c : Nat) : List Word → List Word
  | [] => []
  | l :: rest => (l ^^^ BitVec.ofNat 64 c) :: rest

/-- Some rounds of the permutation, from a register. -/
def keccakRounds : Nat → Nat → List Word → List Word
  | 0, _, a => a
  | n + 1, r, a =>
    let c := roundConstant r
    let t := stepTheta a
    keccakRounds n c.2 (stepIota c.1 (stepChi (stepRhoPi t 24 1 0 t)))

/-- The permutation of 24 rounds. -/
def keccakP (a : List Word) : List Word := keccakRounds 24 1 a

/-- Bytes as lanes, the lowest byte of each first. -/
def lanesOfBytes : Nat → List Byte → List Word
  | 0, _ => []
  | n + 1, bs => ((bs.take 8).reverse.foldl (fun (w : Word) b => w <<< 8 ||| b.setWidth 64) 0) :: lanesOfBytes n (bs.drop 8)

/-- The sponge takes blocks of 136 bytes. -/
def absorbBlocks : Nat → List Byte → List Word → List Word
  | 0, _, a => a
  | n + 1, bs, a =>
    let block := lanesOfBytes 17 bs
    absorbBlocks n (bs.drop 136) (keccakP (a.zipIdx.map fun l => l.1 ^^^ block.getD l.2 0))

/-- A message with the suffix of SHAKE and the padding to whole blocks: byte 0x1F first, and bit 7 of the last byte. -/
def padShake (bs : List Byte) : List Byte :=
  let body := bs ++ [0x1F]
  let whole := body ++ List.replicate (135 - (body.length + 135) % 136) (0 : Byte)
  whole.zipIdx.map fun b => if b.2 + 1 == whole.length then b.1 ||| 0x80 else b.1

/-- The first n bytes, at most 136, of SHAKE256. -/
def shake256 (bs : List Byte) (n : Nat) : List Byte :=
  let p := padShake bs
  let a := absorbBlocks (p.length / 136) p (List.replicate 25 0)
  (a.flatMap fun (w : Word) => (List.range 8).map fun j => (w >>> (8 * j)).setWidth 8).take n

end Sys2Proof.Machine
end

