-- ==== Sys2Proof/Machine/Quantised.lean ====
section
/-! DEFINITION. Row 0x15: described lines, STQ and LDQ (R164 to R172, R442, R443). -/

namespace Sys2Proof.Machine

/-! ### Described lines (R164, R165) -/

/-- Element width that a tensor descriptor names, and whether it is binary; nothing for any other descriptor (R165). -/
def tensorOf (d : BitVec 16) : Option (Nat × Bool) :=
  let kind := (d.extractLsb' 4 4).toNat
  let w := (d.extractLsb' 0 4).toNat
  if kind == 1 && Nat.ble w 4 then some (2 ^ w, false) else if kind == 2 && w == 0 then some (1, true) else none

/-- Register offset, lane of the word and sub-element of element j (R168). -/
def placeOf (j : Nat) : Nat × Nat × Nat := (j / 64, j % 64 / 2, j % 2)

/-- The FP32 sub-element that element j of mask word row stands in. -/
def Team.element (t : Team) (d row j : Nat) : Nat := elem 32 (t.lane (d + (placeOf j).1) (32 * row + (placeOf j).2.1)) (placeOf j).2.2

/-! ### Quantising (R169, R170) -/

/-- A participating value: a finite one as sign, m and exponent. -/
def finites (xs : List Fp) : List (Bool × Nat × Int) :=
  xs.filterMap fun x => match x with
    | .fin n m e => some (n, m, e)
    | _ => none

/-- Some value is an infinity. -/
def anyInf (xs : List Fp) : Bool := xs.any fun x => match x with
  | .inf _ => true
  | _ => false

/-- The largest magnitude, as m x 2^e. -/
def largest (fs : List (Bool × Nat × Int)) : Nat × Int :=
  fs.foldl (fun b x => if decide (atExp false b.1 b.2 (-200) < atExp false x.2.1 x.2.2 (-200)) then (x.2.1, x.2.2) else b)
    (0, 0)

/-- m x 2^e / 2^s rounded to an integer, and whether that was inexact (R151). -/
def roundAt (rm : Rm) (neg : Bool) (m : Nat) (e s : Int) : Nat × Bool :=
  let r := scaled m 1 (e - s)
  (roundQuot rm neg r.1 r.2.1 r.2.2, r.2.1 != 0)

/-- The smallest scale exponent from a start at which the largest magnitude rounds within the bound (R169). -/
def scaleFrom (rm : Rm) (m : Nat) (e : Int) (bound : Nat) : Nat → Int → Int
  | 0, s => s
  | n + 1, s => if Nat.ble (roundAt rm false m e s).1 bound then s else scaleFrom rm m e bound n (s + 1)

/-- An exponent kept within -127 .. 127. -/
def clampExp (e : Int) : Int := (clamp e (-127) 127).1

/-- The scale exponent of a block-integer line without a NaN (R169). -/
def blockScale (rm : Rm) (b : Nat) (xs : List Fp) : Int :=
  let m := largest (finites xs)
  if m.1 == 0 then (if anyInf xs then -127 else 0)
  else
    let bound := Nat.max (2 ^ (b - 1) - 1) 1
    clampExp (scaleFrom rm m.1 m.2 bound (b + 4) (expOf m.1 1 m.2 - Int.ofNat b - 1))

/-- A block-integer element and its flags (R169). -/
def blockElement (rm : Rm) (b : Nat) (s : Int) (x : Fp) : Nat × BitVec 6 :=
  let top := Int.ofNat (2 ^ (b - 1)) - 1
  let bottom := -(Int.ofNat (2 ^ (b - 1)))
  match x with
  | .nan _ => (0, 0)
  | .inf n => (low b (if n then bottom else top), flSAT)
  | .fin n m e =>
    let r := roundAt rm n m e s
    let q := if n then -(Int.ofNat r.1) else Int.ofNat r.1
    let c := clamp q bottom top
    (low b c.1, (if r.2 then flNX else 0) ||| (if c.2 then flSAT else 0))

/-- The scale exponent of a binary line without a NaN: the integer nearest the logarithm of the mean magnitude (R170). -/
def binaryScale (xs : List Fp) : Int :=
  let fs := finites xs
  let sum := fs.foldl (fun (z : Int) x => z + atExp false x.2.1 x.2.2 (-200)) 0
  if sum == 0 then (if anyInf xs then -127 else 0)
  else
    let n := fs.length
    let p := sum.toNat
    let e := expOf p n (-200)
    let sq := scaled (p * p) (n * n) (-400 - (2 * e + 1))
    clampExp (if Nat.ble 1 sq.1 then e + 1 else e)

/-- A binary element and its flags (R170). -/
def binaryElement (s : Int) (x : Fp) : Nat × BitVec 6 :=
  match x with
  | .nan _ => (0, 0)
  | .inf n => (if n then 1 else 0, flSAT)
  | .fin n m e =>
    (if n && m != 0 then 1 else 0,
     if decide (atExp false m e (-200) = atExp false 1 s (-200)) then 0 else flNX)

/-- A line's data, its descriptor and the flags of forming it (R169, R170): the participating value of each element. -/
def formLine (rm : Rm) (fmt : Nat) (vals : List (Option Nat)) : BitVec 512 × BitVec 16 × BitVec 6 :=
  let xs := (vals.filterMap id).map fp32.decode
  let binary := fmt == 8
  let b := if binary then 1 else 2 ^ fmt
  let byte0 := if binary then 0x20 else 0x10 + fmt
  if xs.any Fp.isNan then (0, BitVec.ofNat 16 (byte0 + 256 * 0xFF), flNV)
  else
    let s := if binary then binaryScale xs else blockScale rm b xs
    let es := vals.map fun v => match v with
      | none => (0, 0)
      | some x => if binary then binaryElement s (fp32.decode x) else blockElement rm b s (fp32.decode x)
    (BitVec.ofNat 512 (es.foldr (fun x n => x.1 + 2 ^ b * n) 0),
     BitVec.ofNat 16 (byte0 + 256 * (s + 127).toNat),
     es.foldl (fun a x => a ||| x.2) 0)

/-- The FP32 value of an element of a line, and its flags (R164, R171). -/
def elementValue (b : Nat) (binary : Bool) (code : Nat) (x : Nat) : Nat × BitVec 6 :=
  if code == 0xFF then (fp32.nan, 0)
  else
    let z := if binary then (if x == 0 then 1 else -1) else sgn b x
    fp32.roundInt .rne z (Int.ofNat code - 127) false

/-! ### Row 0x15 -/

/-- The bytes that the issuing core has written of a line reach its home, and its copy goes (R166, R214). -/
def State.settleLine (s : State) (core c va pa : Nat) : State :=
  (s.invalidate core c [va]).land fun f => f.core == core && f.pa == pa / 64

/-- STQ (R168 to R170, R172): one line for each executed pass. DESIGN CHOICE: a poisoned source slice is met before the checks
of the pass's address (log 110). -/
def execStq (f : FmtMq) (s : State) : Host.Outcome State Fault Refusal :=
  run (.stq f) s fun k t =>
    let fmt := f.fmt.toNat
    let b := if fmt == 8 then 1 else 2 ^ fmt
    let d := f.d.toNat
    let g : AccessForm := { store := true, classes := [0] }
    passLoop k (fun s t row =>
      match (List.range (spanOf b)).findSome? fun i => t.poisonOf (d + i) row with
      | some q => .error (.trap q.cause (q.info row) s)
      | none =>
        let a := t.s f.s + BitVec.ofNat 64 (64 * row)
        match s.passCause k t [a] 64 g with
        | some (c, x) => .error (s.memFault k t row c x 2)
        | none =>
          match s.translate (dieOf k) t.ctx a { wr := true } with
          | .cause c => .error (s.memFault k t row c a 2)
          | .page p =>
            let m := t.takers f.g
            let r := formLine (rmOf f.rm) fmt ((List.range (512 / b)).map fun j =>
              if m.getLsbD (32 * row + (placeOf j).2.1) then some (t.element d row j) else none)
            let s1 := ((s.tlbFill (dieOf k) t.ctx a).reuseTouched (coreOf k) t.ctx (sig57 a / 64)).settleLine
              (coreOf k) t.ctx (sig57 a / 64) p.pa
            .ok ((s1.homeWrite (p.pa / 64) (BitVec.allOnes 64) r.1 (some r.2.1)).modTeam k fun u => u.flag r.2.2))
      t.passesLeft s

/-- The lanes of a pass of LDQ with their values and flags (R171). -/
def Team.ldqPass (t : Team) (d row b : Nat) (binary : Bool) (code : Nat) (data : BitVec 512) (m : Mask) : Team :=
  let val := fun (j : Nat) => if Nat.blt j (512 / b) then elementValue b binary code (data.toNat / 2 ^ (b * j) % 2 ^ b) else (0, 0)
  (List.range (spanOf b)).foldl (fun (u : Team) i =>
    let at_ := fun (l : Nat) => 64 * i + 2 * (l - 32 * row)
    u.compute (d + i) m fun l => (BitVec.ofNat 64 ((val (at_ l)).1 + 2 ^ 32 * (val (at_ l + 1)).1),
      (val (at_ l)).2 ||| (val (at_ l + 1)).2)) t

/-- LDQ (R168, R171, R172): one line for each executed pass. DESIGN CHOICE: the key of a pass that does not write all 32 lanes
names the previous slices of up to eight registers from D (R132, log 114). -/
def execLdq (f : FmtMq) (s : State) : Host.Outcome State Fault Refusal :=
  run (.ldq f) s fun k t =>
    let d := f.d.toNat
    let core := coreOf k
    let g : AccessForm := { classes := [0, 1] }
    passLoop k (fun s t row =>
      let m := t.takers f.g &&& rowsMask row (row + 1)
      let a := t.s f.s + BitVec.ofNat 64 (64 * row)
      let named := fun (b : State) (r : Nat) => (List.range r).map fun i => b.nameOf k (d + i) row
      let key0 := s.reuseKey k t
        { word := keyWord (.ldq f), load := true, sources := [], dest := d, guard := f.g, scalars := [t.s f.s] } row
        (rowBits m row)
      let key := { key0 with
        old := 0, sources := if rowBits m row == BitVec.allOnes 32 then [] else named s (Nat.min 8 (32 - d)) }
      let looks := t.reuses true
      let s0 := if looks then s.reuseLook core key else s
      match (if looks then s.reuseFind core key else none) with
      | some e => if Nat.blt 32 (d + e.result.length) then .error (.trap 4 { pass := row } s0)
        else .ok (s0.reuseTake k d row m e)
      | none =>
        match s0.passCause k t [a] 64 g with
        | some (c, x) => .error (s0.memFault k t row c x 1)
        | none =>
          match s0.translate (dieOf k) t.ctx a { rd := true } with
          | .cause c => .error (s0.memFault k t row c a 1)
          | .page p =>
            let s1 := (s0.tlbFill (dieOf k) t.ctx a).settleLine core t.ctx (sig57 a / 64) p.pa
            if s1.badDesc p.pa then .error (.trap 21 { pass := row, addr := a } s0) else
            match tensorOf (s1.desc p.pa) with
            | none => .error (.trap 20 { pass := row, addr := a } s0)
            | some (b, binary) =>
              if Nat.blt 32 (d + spanOf b) then .error (.trap 4 { pass := row } s0) else
              let code := (s1.desc p.pa).toNat / 256
              let u := t.ldqPass d row b binary code (s1.lineData p.pa) m
              let bad := s1.badData p.pa
              let marks : List Poison := (List.range (spanOf b)).map fun i =>
                { reg := d + i, row := row, cause := 21, addr := a }
              let rest := u.poison.filter fun q => !(q.row == row && Nat.ble d q.reg && Nat.blt q.reg (d + spanOf b))
              let u' := if bad then { u with poison := marks ++ rest } else u
              let spoiled := (List.range (spanOf b)).any fun i => (u'.poisonOf (d + i) row).isSome
              match s1.writePass k row u' ((List.range (spanOf b)).map fun i => (d + i, row)) with
              | .error x => .error x
              | .ok s2 => .ok (if looks && !spoiled then
                  s2.reuseInstall core { key with
                    footprint := [sig57 a / 64], result := named s2 (spanOf b)
                    flags := ({ t with nflags := 0 }.ldqPass d row b binary code (s1.lineData p.pa) m).nflags }
                else s2)) t.passesLeft s

end Sys2Proof.Machine
end

