-- ==== Sys2Proof/Machine/Store.lean ====
section
/-! DEFINITION. Row 0x30: the content-addressed store (R292 to R317, R431, R432, R442). Operations are applied to the directory
in the order in which they are issued, which is each team's program order (R295). -/

namespace Sys2Proof.Machine

/-! ### Names (R292 to R294) -/

/-- The zero name (R292). -/
def zeroName : Word := 0x8000000000000000

/-- KIND of a name: 0 leaf, 1 node, 2 constant zero, 3 invalid. -/
def nameKind (n : Word) : Nat := bitsOf n 62 2

/-- The home die of a name (R295). -/
def nameDie (n : Word) : Nat := bitsOf n 60 2

/-- A node line's descriptor (R293). -/
def nodeDesc : BitVec 16 := 0x00F0

/-- The descriptor that a leaf is hashed and stored with (R293). -/
def leafDesc (d : BitVec 16) : BitVec 16 := if (d.extractLsb' 4 4) == 0 then 0 else d

/-- The bytes of a line, lowest first. -/
def lineBytes (d : BitVec 512) : List Byte := (List.range 64).map fun i => lineByte d i

/-- The fingerprint of a line under a store key (R292). -/
def fingerprint (key : List Word) (d : BitVec 16) (data : BitVec 512) : Nat :=
  let input := key.flatMap (fun w => toBytes 8 w.toNat) ++ toBytes 2 d.toNat ++ lineBytes data
  ofBytes (shake256 input 8) % 2 ^ 54

/-- A name from its fields (R292). -/
def makeName (node : Bool) (fp ord : Nat) : Word := BitVec.ofNat 64 ((if node then 2 ^ 62 else 0) + 2 ^ 8 * fp + ord)

/-- Entry i of a node line (R293). -/
def nodeEntry (data : BitVec 512) (i : Nat) : Word := data.extractLsb' (64 * i) 64

/-- A node line from its entries (R293). -/
def nodeLine (es : List Word) : BitVec 512 := BitVec.ofNat 512 (es.foldr (fun e n => e.toNat + 2 ^ 64 * n) 0)

/-! ### The directory (R296 to R300) -/

/-- The entry of a name. -/
def Context.entry (x : Context) (n : Word) : Option DirEntry := x.dir.find? fun e => e.name == n

/-- A name resolves: the zero name, or an entry that is LIVE (R300). -/
def Context.resolves (x : Context) (n : Word) : Bool :=
  n == zeroName || match x.entry n with
    | some e => !e.quiet
    | none => false

/-- Changes the entry of a name. -/
def State.modEntry (s : State) (c : Nat) (n : Word) (f : DirEntry → DirEntry) : State :=
  s.putCtx c { s.ctx c with dir := (s.ctx c).dir.map fun e => if e.name == n then f e else e }

/-- An increment; at its limit the count stays (R298). -/
def DirEntry.up (e : DirEntry) : DirEntry := { e with count := if Nat.blt e.count 0xFFFFFFFF then e.count + 1 else e.count }

/-- Why an operation on the store cannot go on. -/
inductive StoreStop where
  /-- A cause, and the address it reports. -/
  | cause (c : Nat) (a : Word)
  /-- The arena cannot be reached: the context is killed (R296); the cause that the translation met, and the arena's address. -/
  | lost (x : Nat × Word)
  deriving DecidableEq, Repr

/-- The physical address of an arena line (R296): a CAS page of the context that may be read. -/
def State.arenaAddr (s : State) (c : Nat) (n : Word) (loc : Nat) : Except StoreStop Nat :=
  match s.translate (nameDie n) c (BitVec.ofNat 64 loc) { rd := true } with
  | .cause x => .error (.lost (x, BitVec.ofNat 64 loc))
  | .page p => if p.cls == 1 then .ok p.pa else .error (.lost (19, BitVec.ofNat 64 loc))

/-- The arena holds this many lines (R317). -/
def Context.arenaLines (x : Context) : Nat := x.csSize.toNat * 1024

/-- A free line of the arena, among which a free value chooses (R297, log 6); the r-th of those not used. -/
def freeLine (x : Context) (r : Nat) : Nat :=
  let base := x.csArena.toNat
  let used := Table.keys (x.dir.foldl (fun (m : Table Unit) e => Table.put m ((e.loc - base) / 64) ()) [])
  used.foldl (fun i u => if Nat.ble u i then i + 1 else i) r

/-- What lookup-or-allocate finds (R297). -/
inductive Looked where
  | found (n : Word) (revived : Bool) (s : State)
  | allocated (n : Word) (s : State)
  | stop (x : StoreStop)

/-- The entry of a fingerprint whose line and descriptor equal some content (R297). -/
def State.sameContent (s : State) (c fp : Nat) (data : BitVec 512) (d : BitVec 16) :
    List DirEntry → Except StoreStop (Option DirEntry)
  | [] => .ok none
  | e :: rest =>
    if bitsOf e.name 8 54 == fp then
      match s.arenaAddr c e.name e.loc with
      | .error x => .error x
      | .ok pa => if s.lineData pa == data && s.desc pa == d then .ok (some e) else s.sameContent c fp data d rest
    else s.sameContent c fp data d rest

/-- The counts that the nodes which a replica fetched hold on a name, by position (R431): a name is missing here as long as no
load needs it (R320), and has them when it comes. -/
def State.heldBy (s : State) (c : Nat) (n : Word) : Nat :=
  ((s.ctx c).dir.filter fun e => e.bare && !e.quiet).foldl (fun k e => match s.arenaAddr c e.name e.loc with
    | .ok pa => k + ((List.range 8).filter fun i => nodeEntry (s.lineData pa) i == n).length
    | .error _ => k) 0

/-- Lookup-or-allocate (R297). -/
def State.lookup (s : State) (c : Nat) (data : BitVec 512) (d : BitVec 16) (node : Bool) : Looked :=
  let x := s.ctx c
  let fp := fingerprint x.skey d data
  match s.sameContent c fp data d x.dir with
  | .error e => .stop e
  | .ok (some e) =>
    .found e.name e.quiet (s.modEntry c e.name fun y =>
      if y.quiet then { y with quiet := false, count := 1 + s.heldBy c e.name, bare := false } else y.up)
  | .ok none =>
    let taken := (x.dir.filter fun e => bitsOf e.name 8 54 == fp).map fun e => bitsOf e.name 0 8
    match (List.range 256).find? fun o => !(taken.contains o) with
    | none => .stop (.cause 64 0)
    | some ord =>
      if Nat.ble x.arenaLines x.dir.length then .stop (.cause 72 0)
      else
        let line := freeLine x ((Config.freeWord s.fresh).toNat % (x.arenaLines - x.dir.length))
        let loc := x.csArena.toNat + 64 * line
        let n := makeName node fp ord
        match s.arenaAddr c n loc with
        | .error e => .stop e
        | .ok pa =>
          let s1 := s.homeWrite (pa / 64) (BitVec.allOnes 64) data (some d)
          let e : DirEntry := { name := n, loc := loc, count := 1 + s.heldBy c n, node := node }
          let s2 : State := { s1 with
            fresh := s1.fresh + 1, cscoll := if ord == 0 then s1.cscoll else s1.cscoll + 1 }
          .allocated n (s2.putCtx c { x with dir := x.dir ++ [e] })

/-- Reuse entries of CREAD that name a line go, on every core (R137, R299). -/
def State.forgetName (s : State) (c : Nat) (n : Word) : State :=
  { s with cores := Table.mapVals s.cores fun _ k =>
      { k with reuse := k.reuse.filter fun e => !(e.ctx == c && e.name == n && (e.word.extractLsb' 25 6) == 0x30) } }

/-- The eight entries of a node, if its line can be read (R299, R442). -/
def State.nodeOf (s : State) (c : Nat) (e : DirEntry) : Except StoreStop (Option (List Word)) :=
  match s.arenaAddr c e.name e.loc with
  | .error x => .error x
  | .ok pa =>
    if s.badDesc pa || s.badData pa then .ok none
    else .ok (some ((List.range 8).map fun i => nodeEntry (s.lineData pa) i))

/-- Firmware counts a node that a release cannot read (R427, R442). -/
def State.countNode (s : State) (c : Nat) (e : DirEntry) : State :=
  match s.arenaAddr c e.name e.loc with
  | .ok pa => s.countBad pa
  | .error _ => s

/-- What a decrement comes to: the first failure, if any, or the loss of the arena. -/
structure Dropped where
  state : State
  fail : Option Nat := none
  lost : Option (Nat × Word) := none

/-- Decrements names one after another; one that reaches zero becomes QUIET and adds its entries, of a
node that a replica fetched those that are here (R298, R299, R308, R320, R431). -/
def State.dropNames (c : Nat) : Nat → List Word → Dropped → Dropped
  | 0, _, r => r
  | _, [], r => r
  | fuel + 1, n :: rest, r =>
    if n == zeroName then State.dropNames c fuel rest r else
    match (r.state.ctx c).entry n with
    | none => State.dropNames c fuel rest { r with fail := r.fail.or (some 65) }
    | some e =>
      if e.quiet then State.dropNames c fuel rest { r with fail := r.fail.or (some 66) }
      else if e.count == 0xFFFFFFFF then State.dropNames c fuel rest r
      else if Nat.blt 1 e.count then
        State.dropNames c fuel rest { r with state := r.state.modEntry c n fun y => { y with count := y.count - 1 } }
      else
        let s1 := (r.state.modEntry c n fun y => { y with count := 0, quiet := true }).forgetName c n
        if !e.node then State.dropNames c fuel rest { r with state := s1 } else
        match s1.nodeOf c e with
        | .error (.lost x) => { r with state := s1, lost := some x }
        | .error (.cause _ _) => { r with state := s1 }
        | .ok none => State.dropNames c fuel rest { r with state := s1.countNode c e }
        | .ok (some es) =>
          State.dropNames c fuel ((es.filter fun m => !e.bare || (s1.ctx c).resolves m) ++ rest) { r with state := s1 }

/-- Decrements a name of a context (R299): every freed node is freed once, so the fuel is enough. -/
def State.dropName (s : State) (c : Nat) (n : Word) : Dropped :=
  State.dropNames c (9 * (s.ctx c).dir.length + 2) [n] { state := s }

/-- Kills a context whose arena cannot be reached (R296); a malformed entry that the walk met writes its event first (R383). -/
def State.arenaKill (s : State) (c : Nat) (x : Nat × Word) (tpc source : Word) : State :=
  (if x.1 == 23 then s.post { kind := 2, cause := 23, ctx := c, addr := x.2, data := 0, source := source } else s).kill c 120 x.1
    tpc source

/-- The same where a team's instruction meets it. -/
def State.arenaLost (s : State) (k : Nat) (t : Team) (x : Nat × Word) : State := s.arenaKill t.ctx x t.pc (sourceOf k t.part)

/-! ### Values and posted operations (R303) -/

/-- A returned value on its way to its registers (R303). -/
def State.answer (s : State) (k : Nat) (t : Team) (ts : List Target) : State :=
  { s with
    pendings := Table.put s.pendings s.serial { core := coreOf k, team := t.uid, kind := 3, targets := ts }
    serial := s.serial + 1 }

/-- A posted operation of the open Q batch that has been performed, or has failed. -/
def State.settled (s : State) (k : Nat) (t : Team) (fail : Option (Nat × Word)) : State := s.begin k t 3 (.settled fail)

/-- The context's key is destroyed (R315). -/
def State.keyGone (s : State) (t : Team) : Bool := (s.ctx t.ctx).key.isNone

/-- An earlier CNEW of the team still waits for its record (R309, R313): later words of the row wait. -/
def State.storeHeld (s : State) (t : Team) : Bool :=
  s.ops.any fun o => o.2.uid == t.uid && match o.2.work with
    | .newRoot _ _ _ => true
    | _ => false

/-- The frame of a word of row 0x30. -/
def castForm (i : Instr) (s : State) (effect : Nat → Team → Did) : Host.Outcome State Fault Refusal :=
  run i s fun k t => if s.storeHeld t then .park .engine s else effect k t

/-- A stop as it befalls the issuing team. -/
def StoreStop.did (x : StoreStop) (s : State) (k : Nat) (t : Team) : Did :=
  match x with
  | .cause c a => .trap c { addr := a } s
  | .lost c => .quit (s.arenaLost k t c)

/-! ### CLOOK and CNODE (R304, R305) -/

/-- CLOOK (R304). -/
def execClook (f : FmtE) (s : State) : Host.Outcome State Fault Refusal :=
  castForm (.clook f) s fun k t =>
    match t.poisonOf f.q.toNat 0 with
    | some q => .trap q.cause (q.info 0) s
    | none =>
      let data := nodeLine ((List.range 8).map fun i => t.lane f.q.toNat i)
      let d := (t.s f.w).extractLsb' 0 16
      let out := fun (n : Word) => [Target.scalar f.p n]
      if s.keyGone t then .trap 22 {} s
      else if (d.extractLsb' 0 8) != 0 && (tensorOf d).isNone then .trap 20 {} s
      else if data == 0 && (d.extractLsb' 0 8) == 0 then .done (s.answer k t (out zeroName))
      else match s.lookup t.ctx data (leafDesc d) false with
        | .found n _ s1 => .done (s1.answer k t (out n))
        | .allocated n s1 => .done (s1.answer k t (out n))
        | .stop x => x.did s k t

/-- A node's holds on its entries are taken, by position (R305, R431). -/
def State.holdAll (s : State) (c : Nat) (es : List Word) : State :=
  es.foldl (fun (a : State) n => if n == zeroName then a else a.modEntry c n DirEntry.up) s

/-- CNODE (R305). -/
def execCnode (f : FmtE) (s : State) : Host.Outcome State Fault Refusal :=
  castForm (.cnode f) s fun k t =>
    let es := (List.range 8).map fun i => t.s (f.q + BitVec.ofNat 5 i)
    let out := fun (n : Word) => [Target.scalar f.p n]
    if s.keyGone t then .trap 22 {} s
    else if es.any fun n => !(s.ctx t.ctx).resolves n then .trap 65 {} s
    else if es.all fun n => n == zeroName then .done (s.answer k t (out zeroName))
    else match s.lookup t.ctx (nodeLine es) nodeDesc true with
      | .found n revived s1 => .done ((if revived then s1.holdAll t.ctx es else s1).answer k t (out n))
      | .allocated n s1 => .done ((s1.holdAll t.ctx es).answer k t (out n))
      | .stop x => x.did s k t

/-! ### CREAD and CWALK (R306, R307) -/

/-- CREAD (R306, R442); one for whose result no slice can be taken raises cause 42 (R129). -/
def execCread (f : FmtE) (s : State) : Host.Outcome State Fault Refusal :=
  castForm (.cread f) s fun k t =>
    let n := t.s f.q
    let p := f.p.toNat
    let core := coreOf k
    let out := fun (data : BitVec 512) (d : BitVec 16) (bad : Nat) (a : Word) =>
      [Target.slice p 0 0xFF ((List.range 8).map fun i => nodeEntry data i) bad a, Target.scalar f.w (d.setWidth 64)]
    if s.keyGone t then .trap 22 {} s else
    let key := s.reuseKey k t { word := keyWord (.cread f), load := true, sources := [], dest := p, guard := 0
                                scalars := [n] } 0 0xFF
    let looks := t.reuses true
    let s0 := if looks then s.reuseLook core key else s
    let answered := fun (data : BitVec 512) (d : BitVec 16) (bad : Bool) (a : Word) =>
      let s1 := s0.answer k t (out data d (if bad then 21 else 0) a)
      if !s0.resultRoom core 1 then Did.trap 42 {} s0 else
      Did.done (if looks && !bad && (t.poisonOf p 0).isNone then
        s1.reuseInstall core { key with name := n, step := d.toNat, flight := s1.serial - 1 } else s1)
    match (if looks then s.reuseFind core key else none) with
    | some e => .done ((s0.reuseTake k p 0 0xFF e).modTeam k fun u => u.setS f.w (BitVec.ofNat 64 e.step))
    | none =>
      if n == zeroName then answered 0 0 false 0
      else match (s.ctx t.ctx).entry n with
        | none => .trap 65 {} s0
        | some e =>
          if e.quiet then .trap 65 {} s0 else
          match s.arenaAddr t.ctx n e.loc with
          | .error x => x.did s0 k t
          | .ok pa =>
            let loc := BitVec.ofNat 64 e.loc
            if s.badDesc pa then .trap 21 { addr := loc } s0 else
            answered (s.lineData pa) (s.desc pa) (s.badData pa) loc

/-- The name at a leaf index of a tree (R307): the levels that are left, from the top. -/
def State.walkTree (s : State) (c : Nat) (x : Nat) : Nat → Word → Except StoreStop Word
  | 0, n => if n == zeroName || ((s.ctx c).resolves n && nameKind n == 0) then .ok n else .error (.cause 65 0)
  | h + 1, n =>
    if n == zeroName then .ok n
    else match (s.ctx c).entry n with
      | none => .error (.cause 65 0)
      | some e =>
        if e.quiet || nameKind n != 1 then .error (.cause 65 0) else
        match s.arenaAddr c n e.loc with
        | .error y => .error y
        | .ok pa =>
          if s.badDesc pa || s.badData pa then .error (.cause 21 (BitVec.ofNat 64 e.loc))
          else s.walkTree c x h (nodeEntry (s.lineData pa) (x / 8 ^ h % 8))

/-- A walk that first checks its index against the tree's size (R307). -/
def State.leafName (s : State) (c d : Nat) (root x : Word) : Except StoreStop Word :=
  if Nat.ble (8 ^ d) x.toNat then .error (.cause 65 0) else s.walkTree c x.toNat d root

/-- CWALK (R307). -/
def execCwalk (f : FmtE) (s : State) : Host.Outcome State Fault Refusal :=
  castForm (.cwalk f) s fun k t =>
    if s.keyGone t then .trap 22 {} s else
    match s.leafName t.ctx (f.f.extractLsb' 0 4).toNat (t.s f.q) (t.s f.w) with
    | .error x => x.did s k t
    | .ok n =>
      let v := if f.f.getLsbD 4 then
          (match (s.ctx t.ctx).entry n with
            | some e => BitVec.ofNat 64 e.loc
            | none => 0)
        else n
      .done (s.answer k t [.scalar f.p v])

/-! ### CREF and CREL (R308) -/

/-- CREF (R308). -/
def execCref (f : FmtE) (s : State) : Host.Outcome State Fault Refusal :=
  castForm (.cref f) s fun k t =>
    let n := t.s f.p
    .done (if s.keyGone t then s.settled k t (some (22, 0))
      else if n == zeroName then s.settled k t none
      else if (s.ctx t.ctx).resolves n then (s.modEntry t.ctx n DirEntry.up).settled k t none
      else s.settled k t (some (65, 0)))

/-- CREL (R308). -/
def execCrel (f : FmtE) (s : State) : Host.Outcome State Fault Refusal :=
  castForm (.crel f) s fun k t =>
    if s.keyGone t then .done (s.settled k t (some (22, 0))) else
    let r := s.dropName t.ctx (t.s f.p)
    match r.lost with
    | some c => .quit (r.state.arenaLost k t c)
    | none => .done (r.state.settled k t (r.fail.map fun c => (c, 0)))

/-! ### Roots (R301, R309 to R311) -/

/-- A KIND fits a depth: the zero name, or a name that resolves to a leaf for depth 0 and a node otherwise (R309). -/
def Context.fits (x : Context) (n : Word) (depth : Nat) : Bool :=
  n == zeroName || (x.resolves n && nameKind n == (if depth == 0 then 0 else 1))

/-- The core's dirty bytes of a context reach their homes at once: the release of an operation that waits for it (R208). -/
def State.releaseNow (s : State) (core c : Nat) : State :=
  (s.clean core c fun _ => true).land fun f => f.core == core && f.ctx == c

/-- The checks of a root record's address: alignment, then translation, then class (R309, R310). -/
def State.rootCause (s : State) (k : Nat) (t : Team) (a : Word) (write : Bool) : Option Nat :=
  if a.toNat % 16 != 0 then some 18
  else if s.keyGone t then some 22
  else match s.translate (dieOf k) t.ctx a { rd := !write, wr := write } with
    | .cause c => some c
    | .page p => if p.cls == 0 then none else some 19

/-- The physical address of a root record that has passed its checks. -/
def State.rootAddr (s : State) (k : Nat) (t : Team) (a : Word) (write : Bool) : Nat :=
  match s.translate (dieOf k) t.ctx a { rd := !write, wr := write } with
  | .page p => p.pa
  | .cause _ => 0

/-- Performs a CNEW whose record can be reached or never will be, or leaves it waiting for the supervisor (R309): the record is
written at its home once earlier values have returned (R432), and the issuing core keeps no copy of its line (R248). DESIGN CHOICE:
a fault of the address comes before one of the name (log 121). -/
def State.newRootGo (s : State) (id : Nat) : State :=
  match Table.find? s.ops id with
  | none => s
  | some o =>
    match o.work with
    | .newRoot a n depth =>
      if o.miss.isSome || (s.valueDue o.uid).isSome then s else
      let finish := fun (s' : State) (fail : Option (Nat × Word)) =>
        let s'' : State := { s' with ops := Table.put s'.ops id { o with work := .settled fail } }
        s''.wake fun k t => coreOf k == o.core && t.wait == Wait.engine
      match s.engineCause o a true [0] with
      | some x => if x.waits o then s.opMiss id o x else finish (s.opPteBad o x) (some (x.cause, x.addr))
      | none =>
        if !(s.ctx o.ctx).fits n depth then finish s (some (65, 0))
        else
          let s1 := (s.modEntry o.ctx n DirEntry.up).releaseNow o.core o.ctx
          let pa := s1.engineAddr o a true
          let r := runInLine pa (toBytes 8 n.toNat ++ toBytes 8 depth) (pa / 64)
          finish (s1.engineLine o (sig57 a / 64) pa r.1 r.2 (some 0)) none
    | _ => s

/-- CNEW (R309). -/
def execCnew (f : FmtE) (s : State) : Host.Outcome State Fault Refusal :=
  castForm (.cnew f) s fun k t =>
    let a := t.s f.q
    if a.toNat % 16 != 0 then .trap 18 { addr := a } s
    else
      let s1 := s.begin k t 3 (.newRoot a (t.s f.w) (f.f.extractLsb' 0 4).toNat)
      .done (s1.newRootGo (s1.serial - 1))

/-- CROOT (R310): SLOT read at its home, then an acquire at PKG; with .h a count on the name. -/
def execCroot (f : FmtE) (s : State) : Host.Outcome State Fault Refusal :=
  castForm (.croot f) s fun k t =>
    let a := t.s f.q
    match s.rootCause k t a false with
    | some c => s.memFault k t 0 c a 1
    | none =>
      let pa := s.rootAddr k t a false
      let s1 := ((s.tlbFill (dieOf k) t.ctx a).clean (coreOf k) t.ctx fun l => l.va == sig57 a / 64).land
        fun g => g.core == coreOf k && g.pa == pa / 64
      let n := s1.dword pa
      if s1.badData pa then .trap 21 { addr := a } s
      else if bitsOf (s1.dword (pa + 8)) 4 60 != 0 then .trap 65 {} s
      else if f.f.getLsbD 0 && n != zeroName then
        if (s1.ctx t.ctx).resolves n then
          .done (((s1.modEntry t.ctx n DirEntry.up).answer k t [.scalar f.p n]).acquire k t 4)
        else .trap 65 {} s1
      else .done ((s1.answer k t [.scalar f.p n]).acquire k t 4)

/-- CSWAP (R311): its release waits for earlier values (R432), and the issuing core keeps no copy of the record's line (R214). -/
def execCswap (f : FmtE) (s : State) : Host.Outcome State Fault Refusal :=
  castForm (.cswap f) s fun k t =>
    let a := t.s f.q
    let new := t.s f.w
    match s.rootCause k t a true with
    | some c => s.memFault k t 0 c a 3
    | none =>
      let pa := s.rootAddr k t a true
      match s.valueDue t.uid with
      | some id => .park (.value id) s
      | none =>
      let s1 := (((s.tlbFill (dieOf k) t.ctx a).reuseTouched (coreOf k) t.ctx (sig57 a / 64)).releaseNow (coreOf k) t.ctx).drop
        (coreOf k) t.ctx fun l => l.va == sig57 a / 64
      let dw1 := s1.dword (pa + 8)
      if s1.badData pa then .trap 21 { addr := a } s
      else if bitsOf dw1 4 60 != 0 || !(s1.ctx t.ctx).fits new (bitsOf dw1 0 4) then .trap 65 {} s
      else
        let old := s1.dword pa
        let back := fun (s' : State) => (s'.answer k t [.scalar f.p old]).acquire k t 4
        if old == t.s f.p then
          let s2 := (s1.modEntry t.ctx new DirEntry.up).homeWriteRun pa (toBytes 8 new.toNat) (some 0)
          let r := s2.dropName t.ctx old
          match r.lost with
          | some c => .quit (r.state.arenaLost k t c)
          | none => .done (back (r.state.settled k t (r.fail.map fun c => (c, 0))))
        else .done (back s1)

/-! ### COUT (R312) -/

/-- COUT (R312). -/
def execCout (f : FmtE) (s : State) : Host.Outcome State Fault Refusal :=
  castForm (.cout f) s fun k t =>
    let g := fun i => t.s (f.p + BitVec.ofNat 5 i)
    if (g 1).toNat % 64 != 0 then .trap 18 { addr := g 1 } s
    else .done (s.begin k t 3 (.copyOut (g 0) (g 1) (g 2) (g 3)))

/-- The lines of a COUT in order, up to the first fault (R251, R312, R442). DESIGN CHOICE: at a line a fault of the name or of its
source comes before one of the destination (log 121). -/
def State.copyOutLines (s : State) (o : Op) (tree dst x0 : Word) (d : Nat) : List Nat → State × Option Stop
  | [] => (s, none)
  | i :: rest =>
    let a := dst + BitVec.ofNat 64 (64 * i)
    let x := x0.toNat + i
    match (if Nat.ble (2 ^ 64) x then .error (.cause 65 0) else s.leafName o.ctx d tree (BitVec.ofNat 64 x)) with
    | .error (.cause c b) => (s, some { cause := c, addr := b })
    | .error (.lost c) => (s.arenaKill o.ctx c o.issue (sourceOf o.key (s.ctx o.ctx).part), none)
    | .ok n =>
      let src := match (s.ctx o.ctx).entry n with
        | none => Except.ok none
        | some e => match s.arenaAddr o.ctx n e.loc with
          | .error y => .error y
          | .ok pa => .ok (some (pa, BitVec.ofNat 64 e.loc))
      match src with
      | .error (.lost c) => (s.arenaKill o.ctx c o.issue (sourceOf o.key (s.ctx o.ctx).part), none)
      | .error (.cause c b) => (s, some { cause := c, addr := b })
      | .ok line =>
        let bad := match line with
          | some (pa, loc) => if s.badDesc pa || s.badData pa then some loc else none
          | none => none
        match bad with
        | some loc => (s, some { cause := 21, addr := loc })
        | none =>
          match s.engineCause o a true [0] with
          | some x => (s, some x)
          | none =>
            let data := match line with
              | some (pa, _) => (s.lineData pa, s.desc pa)
              | none => (0, 0)
            (s.engineLine o (sig57 a / 64) (s.engineAddr o a true) (BitVec.allOnes 64) data.1 (some data.2)).copyOutLines
              o tree dst x0 d rest

/-- What a store operation does at its completion; a COUT of a context without a key fails (R312, R315). -/
def State.storeAct (s : State) (o : Op) : State × Option Stop :=
  match o.work with
  | .copyOut tree dst x0 shape =>
    if (s.ctx o.ctx).key.isNone then (s, some { cause := 22, addr := 0 })
    else s.copyOutLines o tree dst x0 (bitsOf shape 32 4) (List.range (bitsOf shape 0 32))
  | .settled fail => (s, fail.map fun x => { cause := x.1, addr := x.2 })
  | _ => (s, none)

/-- The CNEWs that waited for values of their teams are performed (R309, R432). -/
def State.rerunRoots (s : State) : State :=
  s.ops.foldl (fun (a : State) o => match o.2.work with
    | .newRoot _ _ _ => a.newRootGo o.1
    | _ => a) s

/-- STORE_VALUE_RETURN (R303): the value of a returning store operation arrives. -/
def execStoreValueReturn (s : State) : Host.Outcome State Fault Refusal :=
  match s.detail with
  | .place id _ => .next ((s.arrive id 3).rerunRoots)
  | _ => .next s

end Sys2Proof.Machine
end

