-- ==== Sys2Proof/Machine/Versions.lean ====
section
/-! DEFINITION. Row 0x34: versioned pages (R318 to R325, R434 to R436), at the home record and at a replica of it. What other
packages answer enters as the operands of a step (log 1, 18). -/

namespace Sys2Proof.Machine

/-! ### Records (R318, R320) -/

/-- A page of a package as one number: the key of its record. -/
def versionKey (pkg page : Nat) : Nat := pkg * 2 ^ 24 + page

/-- The newest visible step; 0 with no entries (R318). -/
def VersionRecord.newest (r : VersionRecord) : Nat :=
  match r.entries.getLast? with
  | some e => e.step
  | none => 0

/-- An entry with a step, installed and not evicted, or evicted and still held by a load. -/
def VersionRecord.entry? (r : VersionRecord) (step : Nat) : Option VersionEntry :=
  (r.entries ++ r.leaving).find? fun e => e.step == step

/-- Puts an entry in its place by step. -/
def VersionRecord.insert (r : VersionRecord) (e : VersionEntry) : VersionRecord :=
  { r with entries := (r.entries.filter fun x => Nat.blt x.step e.step) ++ e ::
      r.entries.filter fun x => Nat.blt e.step x.step }

/-- The entry that the eviction rule names: the smallest step that is not pinned (R319). -/
def VersionRecord.victim (r : VersionRecord) : Option VersionEntry := r.entries.find? fun e => e.pins == 0

/-- Takes an entry out. -/
def VersionRecord.without (r : VersionRecord) (step : Nat) : VersionRecord :=
  { r with entries := r.entries.filter fun e => e.step != step }

/-- Pins in all (R324). -/
def VersionRecord.pinned (r : VersionRecord) : Nat := r.entries.foldl (fun n e => n + e.pins) 0

/-- The record of a page that a context has here. -/
def State.version? (s : State) (c key : Nat) : Option VersionRecord := Table.find? (s.ctx c).versions key

/-- Sets a record. -/
def State.putVersion (s : State) (c key : Nat) (r : VersionRecord) : State :=
  s.putCtx c { s.ctx c with versions := Table.put (s.ctx c).versions key r }

/-- Makes ready the teams, resident or in a cellar, whose wait a test accepts (R24, R27). -/
def State.wakeAll (s : State) (f : Team → Bool) : State :=
  let one := fun (ts : Table Team) => Table.mapVals ts fun _ t => if f t then { t with wait := .ready } else t
  { s with teams := one s.teams, cellars := Table.mapVals s.cellars fun _ c => { c with teams := one c.teams } }

/-- LDV entries of a page leave every core's reuse table (R137). -/
def State.forgetPage (s : State) (c key : Nat) : State :=
  { s with cores := Table.mapVals s.cores fun _ x => { x with reuse := x.reuse.filter fun e =>
      !(e.ctx == c && e.name == BitVec.ofNat 64 key && (e.word.extractLsb' 25 6) == 0x34) } }

/-- A version becomes visible: reuse entries of the page go first, and the loads that wait for it resolve (R137, R323). -/
def State.visible (s : State) (c key newest : Nat) : State :=
  (s.forgetPage c key).wakeAll fun t => t.ctx == c && match t.wait with
    | .version p m => p == key && Nat.ble m newest
    | _ => false

/-! ### Publishing (R319) -/

/-- What a publish at the home comes to: the state, the fault that it meets, the failure of the evicted root's release, and
the cause with which the arena was lost. -/
structure Published where
  state : State
  fail : Option (Nat × Word) := none
  release : Option Nat := none
  lost : Option (Nat × Word) := none

/-- PUBL at the home record (R318, R319): the record's hold on the new root is taken before the evicted one is released. -/
def State.publishHome (s : State) (c key step : Nat) (root : Word) : Published :=
  let r := (s.version? c key).getD {}
  if Nat.ble step r.newest then { state := s, fail := some (68, 0) } else
  match (s.ctx c).entry root with
  | none => { state := s, fail := some (65, 0) }
  | some e =>
    if e.quiet || nameKind root != 1 then { state := s, fail := some (65, 0) } else
    match s.nodeOf c e with
    | .error (.lost x) => { state := s, lost := some x }
    | .error (.cause x a) => { state := s, fail := some (x, a) }
    | .ok none => { state := s, fail := some (21, BitVec.ofNat 64 e.loc) }
    | .ok (some es) =>
      let full := Nat.ble 8 r.entries.length
      if (es.drop 2).any fun n => n != zeroName then { state := s, fail := some (65, 0) }
      else if full && r.victim.isNone then { state := s, fail := some (69, 0) }
      else
        let s1 := s.modEntry c root DirEntry.up
        let d : Dropped := match full, r.victim with
          | true, some v => s1.dropName c v.root
          | _, _ => { state := s1 }
        let kept := match full, r.victim with
          | true, some v => r.without v.step
          | _, _ => r
        let s2 := (d.state.putVersion c key (kept.insert { step := step, root := root })).visible c key step
        { state := { s2 with messages := s2.messages ++ r.replicas.map fun p =>
            { dest := p, kind := 2, gctx := (s.ctx c).gid
              args := [BitVec.ofNat 64 (key % 2 ^ 24), BitVec.ofNat 64 step, root] } }
          release := d.fail, lost := d.lost }

/-! ### Replicas (R320) -/

/-- Releases the holds of a replica's entry on the names fetched under it. -/
def State.dropHolds (s : State) (c : Nat) (ns : List Word) : State :=
  ns.foldl (fun (a : State) n => (a.dropName c n).state) s

/-- Some LDV, resident or in a cellar, has resolved to a version and has not written its slices yet (R323). -/
def State.loadHolds (s : State) (c key step : Nat) : Bool :=
  let any := fun (ts : Table Team) => ts.any fun t => t.2.ctx == c && t.2.resolved == some (key, step)
  any s.teams || s.cellars.any fun x => any x.2.teams

/-- Evicts an entry of a replica: its names are released, or kept for the loads that hold them (R319, R320, R323). -/
def State.evict (s : State) (c key : Nat) (r : VersionRecord) (v : VersionEntry) : State :=
  let r' := r.without v.step
  if s.loadHolds c key v.step then s.putVersion c key { r' with leaving := v :: r'.leaving }
  else (s.putVersion c key r').dropHolds c v.held

/-- Installs a version at a replica (R320): with every entry pinned the newest message is kept; a version older than
those kept is evicted as it comes. -/
def State.installReplica (s : State) (c key step : Nat) (root : Word) : State :=
  match s.version? c key with
  | none => s
  | some r =>
    if r.home || r.entries.any fun e => e.step == step then s else
    let put := fun (a : State) => match a.version? c key with
      | some r' => (a.putVersion c key (r'.insert { step := step, root := root })).visible c key
          (r'.insert { step := step, root := root }).newest
      | none => a
    if Nat.blt r.entries.length 8 then put s else
    match r.victim with
    | some v => if Nat.blt step v.step then s else put (s.evict c key r v)
    | none => match r.pending with
      | some p => if Nat.blt p.1 step then s.putVersion c key { r with pending := some (step, root) } else s
      | none => s.putVersion c key { r with pending := some (step, root) }

/-- A message that this package sends another (R347). -/
def State.tell (s : State) (dest kind c : Nat) (args : List Word) : State :=
  { s with messages := s.messages ++ [{ dest := dest, kind := kind, gctx := (s.ctx c).gid, args := args }] }

/-- Creates a replica: it registers with the home record and fetches its entries (R320, R435). -/
def State.createReplica (s : State) (c pkg page : Nat) : State :=
  (s.putVersion c (versionKey pkg page) { home := false, fetching := true }).tell pkg 3 c
    [BitVec.ofNat 64 page]

/-- A publish of the team at a record elsewhere is not acknowledged yet (R325). -/
def State.publishing (s : State) (uid key : Nat) : Bool :=
  s.ops.any fun o => o.2.uid == uid && match o.2.work with
    | .remote rs => rs.any fun r => match r.req.kind with
      | .publish _ _ => versionKey r.pkg (r.req.addr / 65536) == key
      | _ => false
    | _ => false

/-- A VPIN or VUNPIN of the team on a page waits for its record (R325). -/
def State.pinning (s : State) (uid key : Nat) : Bool :=
  s.ops.any fun o => o.2.uid == uid && match o.2.work with
    | .pin p _ _ => p == key
    | _ => false

/-- Earlier operations of the team on a page are still to be performed at its record (R325). -/
def State.versionBusy (s : State) (uid key : Nat) : Bool := s.publishing uid key || s.pinning uid key

/-- VPIN and VUNPIN at the record of the issuing package (R324): the failure, if any. -/
def State.pinAt (s : State) (c key step : Nat) (down : Bool) : State × Option Nat :=
  match s.version? c key with
  | none => (s, some 73)
  | some r =>
    let change := fun (f : Nat → Nat) => { r with entries := r.entries.map fun e =>
      if e.step == step then { e with pins := f e.pins } else e }
    match r.entries.find? fun e => e.step == step with
    | none => (s, some (if !down && Nat.ble 8 r.pinned then 69 else 73))
    | some e =>
      if down then
        if e.pins == 0 then (s, some 73) else
        let s1 := s.putVersion c key { change (· - 1) with pending := none }
        match r.pending with
        | some p => (s1.installReplica c key p.1 p.2, none)
        | none => (s1, none)
      else if Nat.ble 8 r.pinned then (s, some 69)
      else (s.putVersion c key (change (· + 1)), none)

/-- The record of a page is fetching its entries. -/
def State.fetchingRecord (s : State) (c key : Nat) : Bool :=
  match s.version? c key with
  | some r => r.fetching
  | none => false

/-- Performs the pins that waited for a record, in the order of their issue (R325). -/
def State.runPins (s : State) (c key : Nat) : State :=
  let s1 := s.ops.foldl (fun (a : State) o =>
    match o.2.work with
    | .pin p step down =>
      if o.2.ctx != c || p != key || a.fetchingRecord c key || a.publishing o.2.uid key then a else
      let r := a.pinAt c key step down
      { r.1 with ops := Table.put r.1.ops o.1 { o.2 with work := .settled (r.2.map fun x => (x, 0)) } }
    | _ => a) s
  s1.wake fun _ t => t.ctx == c && t.wait == Wait.engine

/-- A publish of this package was performed at its home elsewhere: the version is visible here (R221, R222), and what the
team issued after it on the page is performed. -/
def State.published (s : State) (o : Op) (r : RemoteRequest) (pkg : Nat) : State :=
  match r.kind with
  | .publish step root =>
    let key := versionKey pkg (r.addr / 65536)
    ((s.modUid o.uid fun t => { t with seen := Table.put t.seen key step }).installReplica o.ctx key step root).runPins
      o.ctx key
  | _ => s

/-! ### The page of an address (R321) -/

/-- The key, the home package and the page of a VERS page; or the cause that its checks meet (R204, R321, R325). -/
def State.versPage (s : State) (k : Nat) (t : Team) (a : Word) : Except Nat (Nat × Nat × Nat) :=
  if (s.ctx t.ctx).key.isNone then .error 22 else
  match s.translate (dieOf k) t.ctx a { rd := true } with
  | .cause c => .error c
  | .page p => if p.cls == 2 then .ok (versionKey p.pkg (p.pa / 65536), p.pkg, p.pa / 65536) else .error 19

/-! ### LDV (R322, R323) -/

/-- The lines of a version by number, with their data and whether it is uncorrectable (R318, R322). -/
def State.versionLines (s : State) (c : Nat) (root : Word) : List Nat → Except StoreStop (List (BitVec 512 × Bool))
  | [] => .ok []
  | j :: rest =>
    match s.walkTree c j 4 root with
    | .error x => .error x
    | .ok n =>
      let one := match (s.ctx c).entry n with
        | none => Except.ok (0, false)
        | some e => match s.arenaAddr c n e.loc with
          | .error x => .error x
          | .ok pa => .ok (s.lineData pa, s.badData pa)
      match one, s.versionLines c root rest with
      | .error x, _ => .error x
      | _, .error x => .error x
      | .ok l, .ok ls => .ok (l :: ls)

/-- The names absent here on the paths from a root to the lines of a version, the topmost of each path (R320). -/
def State.absent (s : State) (c j : Nat) : Nat → Word → List Word
  | 0, n => if (s.ctx c).resolves n then [] else [n]
  | h + 1, n =>
    if n == zeroName then [] else
    match (s.ctx c).entry n with
    | none => [n]
    | some e =>
      if e.quiet then [n] else
      match s.nodeOf c e with
      | .ok (some es) => s.absent c j h (es.getD (j / 8 ^ h % 8) zeroName)
      | _ => []

/-- An LDV is over: it holds its version no longer, and evicted entries that no load holds any more go (R323). -/
def State.loadEnds (s : State) (k : Nat) (t : Team) : State :=
  let s1 := s.modTeam k fun u => { u with resolved := none, limit := 0 }
  match t.resolved with
  | none => s1
  | some (key, _) => match s1.version? t.ctx key with
    | none => s1
    | some r =>
      let gone := r.leaving.filter fun e => !(s1.loadHolds t.ctx key e.step)
      (s1.putVersion t.ctx key { r with leaving := r.leaving.filter fun e => s1.loadHolds t.ctx key e.step }).dropHolds
        t.ctx (gone.flatMap fun e => e.held)

/-- Parks an LDV: its lookup is made, and a wait for a version counts down from LDVLIM (R225, R323). -/
def parkLoad (k : Nat) (t : Team) (w : Wait) (timed : Bool) (s : State) : Did :=
  let full := if t.ldvlim == 0 then 0 else (t.ldvlim.toNat + 1) / 2 + 1
  .park w (s.modTeam k fun u => { u with
    phase := 1, limit := if !timed then u.limit else if u.limit != 0 then u.limit else full })

/-- What the resolution of an LDV finds (R323). -/
inductive Resolved where
  | entry (e : VersionEntry)
  | wait (m : Nat)
  | none

/-- Resolves an LDV against a record (R221, R222, R323). -/
def Team.resolve (t : Team) (r : VersionRecord) (key m : Nat) (eq : Bool) : Resolved :=
  let held := match t.resolved with
    | some (p, step) => if p == key then r.entry? step else Option.none
    | Option.none => Option.none
  match held with
  | some e => .entry e
  | Option.none =>
    if eq then
      if Nat.blt r.newest m then .wait m
      else match r.entries.find? fun e => e.step == m with
        | some e => .entry e
        | Option.none => .none
    else
      let floor := Nat.max m (Table.getD t.seen key 0)
      match r.entries.getLast? with
      | some e => if Nat.ble floor e.step then .entry e else .wait floor
      | Option.none => .wait floor

/-- Writes what an LDV read: every slice whole, and the step (R205, R322), with the entries of the reuse table (R137). -/
def State.loadVersion (s : State) (k : Nat) (t : Team) (i : Instr) (f : FmtE) (key o step : Nat)
    (ls : List (BitVec 512 × Bool)) : State :=
  let a := t.s f.q
  let line := fun l => ls.getD ((o + 8 * l) / 64 - o / 64) (0, false)
  let bad := fun row => (List.range 32).any fun i => (line (32 * row + i)).2
  let vals := fun row => (List.range 32).map fun i => nodeEntry (line (32 * row + i)).1 ((o + 8 * i) % 64 / 8)
  let rows := List.range t.rows
  let ts := rows.map fun row => Target.slice f.p.toNat row (BitVec.allOnes 32) (vals row) (if bad row then 21 else 0) a
  let s1 := (s.loadEnds k t).answer k t (ts ++ [.scalar f.w (BitVec.ofNat 64 step)])
  if !t.reuses true then s1 else
  (rows.filter fun row => !bad row).foldl (fun (b : State) row =>
    b.reuseInstall (coreOf k) { s.reuseKey k t
        { word := keyWord i, load := true, sources := [], dest := f.p.toNat, guard := 0, scalars := [a, t.s f.w] }
        row (BitVec.allOnes 32) with
      name := BitVec.ofNat 64 key, step := step, flight := s1.serial - 1 }) s1

/-- An LDV at its page's record (R222, R320, R323, R435); one for whose result no slices can be taken raises cause 42 (R129). -/
def State.ldvAt (s : State) (k : Nat) (t : Team) (f : FmtE) (o : Nat) (a : Word) (m key pkg page : Nat) : Did :=
  let here := pkg == s.pkgnum
  match (s.version? t.ctx key).or (if here then some {} else none) with
  | none =>
    if s.noRoute pkg then .trap 83 { addr := a } (s.loadEnds k t)
    else parkLoad k t (.fetch key a) false (s.createReplica t.ctx pkg page)
  | some r =>
    if r.fetching then parkLoad k t (.fetch key a) false s else
    match t.resolve r key m (f.f.getLsbD 0) with
    | .none => .trap 73 {} (s.loadEnds k t)
    | .wait n => parkLoad k t (.version key n) true s
    | .entry e =>
      let lines := (List.range (8 * t.width / 64)).map fun j => o / 64 + j
      let missing := if r.home then [] else (lines.flatMap fun j => s.absent t.ctx j 4 e.root).eraseDups
      if !missing.isEmpty then
        if s.noRoute pkg then .trap 83 { addr := a } (s.loadEnds k t) else
        parkLoad k t (.fetch key a) false
          ((missing.foldl (fun (b : State) n => b.tell pkg 4 t.ctx [BitVec.ofNat 64 page, BitVec.ofNat 64 e.step, n])
            s).modTeam k fun u => { u with resolved := some (key, e.step) })
      else match s.versionLines t.ctx e.root lines with
        | .error (.cause c x) => .trap c { addr := x } (s.loadEnds k t)
        | .error (.lost c) => .quit (s.arenaLost k t c)
        | .ok ls =>
          if s.resultRoom (coreOf k) t.rows then .done (s.loadVersion k t (.ldv f) f key o e.step ls)
          else .trap 42 {} (s.loadEnds k t)

/-- An LDV that its reuse entries do not answer; what it had resolved to on another page is over. -/
def State.ldv (s : State) (k : Nat) (t : Team) (f : FmtE) (o : Nat) : Did :=
  let a := t.s f.q
  let m := (t.s f.w).toNat % 2 ^ 32
  match s.versPage k t a with
  | .error c => if c == 16 then s.memFault k t 0 c a 1 else (s.loadEnds k t).memFault k t 0 c a 1
  | .ok (key, pkg, page) =>
    if s.versionBusy t.uid key then parkLoad k t .engine false s
    else if t.resolved.any fun x => x.1 != key then
      (s.loadEnds k t).ldvAt k { t with resolved := none, limit := 0 } f o a m key pkg page
    else s.ldvAt k t f o a m key pkg page

/-- LDV (R322, R323, R133, R137). -/
def execLdv (f : FmtE) (s : State) : Host.Outcome State Fault Refusal :=
  run (.ldv f) s fun k t =>
    let a := t.s f.q
    let o := a.toNat % 65536
    if o % 256 != 0 || Nat.blt 65536 (o + 8 * t.width) then .trap 18 { addr := a } s else
    if !(t.reuses true) || t.phase == 1 then s.ldv k t f o else
    let keys := (List.range t.rows).map fun row => (row, s.reuseKey k t
      { word := keyWord (.ldv f), load := true, sources := [], dest := f.p.toNat, guard := 0, scalars := [a, t.s f.w] }
      row (BitVec.allOnes 32))
    let hits := keys.filterMap fun e => (s.reuseFind (coreOf k) e.2).map fun h => (e.1, h)
    let s1 := keys.foldl (fun (b : State) e => b.reuseLook (coreOf k) e.2) s
    match hits with
    | (_, h) :: _ =>
      if hits.length == t.rows && Nat.ble (Table.getD t.seen h.name.toNat 0) h.step
          && !(s.versionBusy t.uid h.name.toNat) then
        .done ((hits.foldl (fun (b : State) x => b.reuseTake k f.p.toNat x.1 (rowsMask x.1 (x.1 + 1)) x.2) s1).modTeam k
          fun u => u.setS f.w (BitVec.ofNat 64 h.step))
      else s1.ldv k t f o
    | [] => s1.ldv k t f o

/-! ### The other instructions of the row (R319, R324, R325) -/

/-- PUBL (R319, R325): at the home record here, or sent to it, after the team's earlier pins on the page. -/
def execPubl (f : FmtE) (s : State) : Host.Outcome State Fault Refusal :=
  run (.publ f) s fun k t =>
    let a := t.s f.q
    let root := t.s f.p
    let step := (t.s f.w).toNat % 2 ^ 32
    if s.keyGone t then .done (s.settled k t (some (22, 0))) else
    match s.versPage k t a with
    | .error c => s.memFault k t 0 c a 1
    | .ok (key, pkg, page) =>
      if s.pinning t.uid key then .park .engine s
      else if pkg == s.pkgnum then
        let r := s.publishHome t.ctx key step root
        match r.lost with
        | some c => .quit (r.state.arenaLost k t c)
        | none =>
          let s1 := r.state.settled k t r.fail
          .done (match r.release with
            | some c => s1.settled k t (some (c, 0))
            | none => s1)
      else
        let s1 := s.sendOp k t 3 [(pkg, page * 65536, a, .publish step root)]
        .done (if s.noRoute pkg then s1.endOp (s1.serial - 1) (some (83, a)) else s1)

/-- VSTEP (R324, R325). -/
def execVstep (f : FmtE) (s : State) : Host.Outcome State Fault Refusal :=
  run (.vstep f) s fun k t =>
    let a := t.s f.q
    match s.versPage k t a with
    | .error c => s.memFault k t 0 c a 1
    | .ok (key, _, _) =>
      if s.versionBusy t.uid key then .park .engine s else
      let n := match s.version? t.ctx key with
        | some r => r.newest
        | none => 0
      .done (s.answer k t [.scalar f.p (BitVec.ofNat 64 n)])

/-- VPIN and VUNPIN at issue (R324, R325): performed at the record here, or once it can be. -/
def State.pinOp (s : State) (k : Nat) (t : Team) (f : FmtE) (down : Bool) : Did :=
  let a := t.s f.q
  let step := (t.s f.w).toNat % 2 ^ 32
  if s.keyGone t then .done (s.settled k t (some (22, 0))) else
  match s.versPage k t a with
  | .error c => s.memFault k t 0 c a 1
  | .ok (key, pkg, page) =>
    let make := !down && pkg != s.pkgnum && (s.version? t.ctx key).isNone
    if make && s.noRoute pkg then .done (s.settled k t (some (83, a))) else
    let s1 := if make then s.createReplica t.ctx pkg page else s
    if s1.fetchingRecord t.ctx key || s1.versionBusy t.uid key then .done (s1.begin k t 3 (.pin key step down))
    else
      let r := s1.pinAt t.ctx key step down
      .done (r.1.settled k t (r.2.map fun c => (c, 0)))

/-- VPIN (R324). -/
def execVpin (f : FmtE) (s : State) : Host.Outcome State Fault Refusal :=
  run (.vpin f) s fun k t => s.pinOp k t f false

/-- VUNPIN (R324). -/
def execVunpin (f : FmtE) (s : State) : Host.Outcome State Fault Refusal :=
  run (.vunpin f) s fun k t => s.pinOp k t f true

/-! ### What arrives -/

/-- PUBLISH_MESSAGE (R320, R347): a replica installs the entry of a publish elsewhere; one for a context or a page that
is not here is dropped. -/
def execPublishMessage (s : State) : Host.Outcome State Fault Refusal :=
  match s.detail with
  | .publish g key step root =>
    match s.ctxOfGid g with
    | some c => .next (s.installReplica c key step root)
    | none => .next s
  | _ => .next s

/-- Makes the loads that wait for a fetch issue again, or raise its failure (R320). -/
def State.wakeFetch (s : State) (c key : Nat) (step : Option Nat) (fail : Option Nat) : State :=
  let one := fun (ts : Table Team) => Table.mapVals ts fun _ t => match t.wait with
    | .fetch p a =>
      if t.ctx == c && p == key && t.resolved == step.map fun n => (key, n) then
        match fail with
        | some x => { t with wait := .ready, raised := some (x, a) }
        | none => { t with wait := .ready }
      else t
    | _ => t
  { s with teams := one s.teams, cellars := Table.mapVals s.cellars fun _ x => { x with teams := one x.teams } }

/-- REPLICA_FETCH_COMPLETE (R320, R435): the entries of a new replica are here and visible, or their fetch failed. -/
def execReplicaFetchComplete (s : State) : Host.Outcome State Fault Refusal :=
  match s.detail with
  | .fetched c key r =>
    match s.version? c key with
    | some v =>
      if !v.fetching then .next s else
      match r with
      | .entries es =>
        let s1 := es.foldl (fun (a : State) e => a.installReplica c key e.1 e.2) (s.putVersion c key { v with fetching := false })
        .next ((s1.runPins c key).wakeFetch c key none none)
      | .failed x =>
        let s1 := s.putCtx c { s.ctx c with versions := Table.del (s.ctx c).versions key }
        let s2 := { s1 with ops := Table.mapVals s1.ops fun _ o => match o.work with
          | .pin p _ _ => if o.ctx == c && p == key then { o with work := .settled (some (x, 0)) } else o
          | _ => o }
        .next ((s2.wake fun _ t => t.ctx == c && t.wait == Wait.engine).wakeFetch c key none (some x))
    | none => .next s
  | _ => .next s

/-- A node that a replica fetched holds its entries that are here, by position (R320, R431). -/
def State.holdHere (s : State) (c : Nat) (n : Word) (data : BitVec 512) : State :=
  if nameKind n != 1 then s
  else s.holdAll c (((List.range 8).map fun i => nodeEntry data i).filter fun m => (s.ctx c).resolves m)

/-- Stores a fetched line under its name (R320): a name that resolves already is left alone; the answer tells whether it
takes a hold. -/
def State.adopt (s : State) (c : Nat) (n : Word) (d : BitVec 16) (data : BitVec 512) : Except StoreStop (State × Bool) :=
  let x := s.ctx c
  match x.entry n with
  | some e =>
    if !e.quiet then .ok (s, false)
    else .ok ((s.modEntry c n fun y => { y with quiet := false, count := 1 + s.heldBy c n, bare := y.node }).holdHere c n data, true)
  | none =>
    if Nat.ble x.arenaLines x.dir.length then .error (.cause 72 0) else
    let loc := x.csArena.toNat + 64 * freeLine x ((Config.freeWord s.fresh).toNat % (x.arenaLines - x.dir.length))
    match s.arenaAddr c n loc with
    | .error e => .error e
    | .ok pa =>
      let s1 := s.homeWrite (pa / 64) (BitVec.allOnes 64) data (some d)
      let e : DirEntry :=
        { name := n, loc := loc, count := 1 + s.heldBy c n, node := nameKind n == 1, bare := nameKind n == 1 }
      .ok (({ s1 with fresh := s1.fresh + 1 }.putCtx c { x with dir := x.dir ++ [e] }).holdHere c n data, true)

/-- Stores fetched lines one after another: the state, the names that took a hold, and what stopped it. -/
def State.adoptAll (s : State) (c : Nat) (held : List Word) :
    List (Word × BitVec 16 × BitVec 512) → State × List Word × Option StoreStop
  | [] => (s, held, none)
  | (n, d, data) :: rest =>
    if n == zeroName then s.adoptAll c held rest else
    match s.adopt c n d data with
    | .error x => (s, held, some x)
    | .ok (s1, takes) => s1.adoptAll c (if takes then held ++ [n] else held) rest

/-- REPLICA_LINE_FETCH (R320): nodes and leaves of a version arrive from its home, and the loads that wait for them issue
again. -/
def execReplicaLineFetch (s : State) : Host.Outcome State Fault Refusal :=
  match s.detail with
  | .lines c key step r =>
    match s.version? c key with
    | some v =>
      if v.home || (v.entry? step).isNone then .next s else
      match r with
      | .failed x => .next (s.wakeFetch c key (some step) (some x))
      | .lines ls =>
        let a := s.adoptAll c [] ls
        let hold := fun (e : VersionEntry) => if e.step == step then { e with held := e.held ++ a.2.1 } else e
        let s1 := match a.1.version? c key with
          | some w => a.1.putVersion c key { w with entries := w.entries.map hold, leaving := w.leaving.map hold }
          | none => a.1
        match a.2.2 with
        | none => .next (s1.wakeFetch c key (some step) none)
        | some (.cause x _) => .next (s1.wakeFetch c key (some step) (some x))
        | some (.lost x) => .next (s1.arenaKill c x 0 0)
    | none => .next s
  | _ => .next s

/-- LDV_WAIT_LIMIT (R323): the wait of a versioned load has reached its team's limit. -/
def execLdvWaitLimit (s : State) : Host.Outcome State Fault Refusal :=
  match s.detail with
  | .place k _ =>
    match s.team? k with
    | some t =>
      match t.wait with
      | .version _ _ =>
        if t.limit == 1 then .next (s.putTeam k { t with wait := .ready, limit := 0, raised := some (67, 0) }) else .next s
      | _ => .next s
    | none => .next s
  | _ => .next s

end Sys2Proof.Machine
end

