-- ==== Sys2Proof/Machine/Requests.lean ====
section
/-! DEFINITION. What reaches this package from others: acknowledgements of what it sent, and their requests (R346, R347,
R353 to R356, R364). -/

namespace Sys2Proof.Machine

/-- What the publishes among acknowledged requests leave here. -/
def State.publishedAll (s : State) (o : Op) (rs : List Sent) : State :=
  rs.foldl (fun (a : State) r => a.published o r.req r.pkg) s

/-- The pins that waited behind publishes which failed. -/
def State.pinsAfter (s : State) (o : Op) (rs : List Sent) : State :=
  rs.foldl (fun (a : State) r => a.runPins o.ctx (versionKey r.pkg (r.req.addr / 65536))) s

/-- The failure of the evicted root's release that the home of a publish answers: it joins the batch of the publish (R319). -/
def releaseFailure (rs : List Sent) (vs : List Word) : Option (Nat × Word) :=
  if rs.any fun r => match r.req.kind with
    | .publish _ _ => true
    | _ => false
  then vs.head?.map fun c => (c.toNat, 0) else none

/-- FABRIC_ACK (R353, R354, R355, R325): what a posted operation has sent has been performed at its home, or has failed. -/
def execFabricAck (s : State) : Host.Outcome State Fault Refusal :=
  match s.detail with
  | .answer id r =>
    match Table.find? s.ops id with
    | some o =>
      if o.cls == 4 || (Table.find? s.pendings id).isSome || o.work.requests.isEmpty then .next s else
      match r, o.work with
      | .failed c, w => .next ((s.failRemote id 0 c).pinsAfter o w.requests)
      | .failedAt n c, w => .next ((s.failRemote id n c).pinsAfter o w.requests)
      | .poisoned _, w => .next ((s.failRemote id 0 84).pinsAfter o w.requests)
      | .done vs, .remote rs => .next ((s.endOp id (o.fault.or (releaseFailure rs vs))).publishedAll o rs)
      | .done _, _ => .next (s.putsigAcked id o)
      | _, _ => .next s
    | none => .next s
  | _ => .next s

/-- FABRIC_TIMEOUT (R339, R364): an operation fails with cause 80. -/
def execFabricTimeout (s : State) : Host.Outcome State Fault Refusal :=
  match s.detail with
  | .place id _ =>
    match Table.find? s.ops id with
    | some o =>
      if !s.timedOut o then .next s else
      match o.work with
      | .contribute _ _ _ _ => .next (s.endOp id (some (80, 0)))
      | w => .next ((s.failRemote id 0 80).pinsAfter o w.requests)
    | none => .next s
  | _ => .next s

/-! ### Requests of other packages (R346, R347, R356, R364) -/

/-- A contribution of a context that is on its way to a location, with which an arriving one may merge, as the free values
choose (R233, R352). -/
def State.carrier (s : State) (c pa : Nat) : Option (Nat × Flight) :=
  if Config.mergeOrder s.fresh % 2 == 0 then none
  else Table.first? s.flights fun _ g => g.ctx == c && g.into.isNone && g.add.any fun x => x.1 == pa

/-- The arriving contribution merges into it, as one FP32 addition (R233). -/
def State.joinAdd (s : State) (id : Nat) (g : Flight) (pa : Nat) (d : Word) : State :=
  { s with
    fresh := s.fresh + 1
    flights := Table.put s.flights id { g with add := g.add.map fun x => (pa, (fp32.add x.2 (d.toNat % 2 ^ 32)).1) } }

/-- Two requests of one team to one line, by the package and line that they were sent to first (R356, R361). -/
def sameLine (h : Heard) (r : RemoteRequest) : Bool :=
  h.source == r.source && h.gctx == r.gctx && h.team == r.team && h.line == r.addr / 64 && h.origin == r.origin

/-- The highest sequence number taken for a request's team and line here, or performed where it was sent before (R361, R364). -/
def State.heardSeq (s : State) (r : RemoteRequest) : Nat :=
  match s.heard.find? fun h => sameLine h r with
  | some h => Nat.max h.seq r.base
  | none => r.base

/-- The number up to which this home has performed the requests of a request's team and line, when it answers with a pointer
(R361). -/
def State.performedSeq (s : State) (r : RemoteRequest) : Nat :=
  match s.heard.find? fun h => sameLine h r with
  | some h => match h.answer with
    | .moved _ _ _ n => n
    | _ => Nat.max h.seq r.base
  | none => r.base

/-- Performs a request at its home (R346, R347, R352), a publish, a registration or a fetch at the version record among
them (R319, R320, R435): the state and the answer. A page that has migrated is not reached: the pointer is the answer (R361). -/
def State.performRequest (s : State) (r : RemoteRequest) : State × RemoteAnswer :=
  match Table.find? s.moved (r.addr / 65536) with
  | some (cxl, pkg, a) => (s, .moved cxl pkg a (s.performedSeq r))
  | none =>
  match s.ctxOfGid r.gctx with
  | none => (s, .failed 81)
  | some c =>
    let key := versionKey s.pkgnum (r.addr / 65536)
    let refused := !(isDevice r.addr) || s.owner r.addr != c
    match r.kind with
    | .publish step root =>
      let p := s.publishHome c key step root
      match p.lost, p.fail with
      | some x, _ => (p.state.arenaKill c x 0 0, .failed 81)
      | none, some f => (p.state, .failed f.1)
      | none, none => (p.state, .done (p.release.toList.map fun x => BitVec.ofNat 64 x))
    | .entries =>
      let v := (s.version? c key).getD {}
      (s.putVersion c key { v with replicas := if v.replicas.contains r.source then v.replicas else v.replicas ++ [r.source] },
       .done (v.entries.flatMap fun e => [BitVec.ofNat 64 e.step, e.root]))
    | .named n =>
      match (s.ctx c).entry n with
      | none => (s, .failed 81)
      | some e => match s.arenaAddr c n e.loc with
        | .error (.lost x) => (s.arenaKill c x 0 0, .failed 81)
        | .error (.cause _ _) => (s, .failed 81)
        | .ok pa =>
          let vs := (s.desc pa).setWidth 64 :: (List.range 8).map fun i => nodeEntry (s.lineData pa) i
          (s, if s.badData pa || s.badDesc pa then .poisoned vs else .done vs)
    | .read n =>
      if refused then (s, .failed 81) else
      (s, .lines ((List.range ((n + 63) / 64)).map fun i => (s.lineData (r.addr + 64 * i), s.badData (r.addr + 64 * i))))
    | .write bs =>
      if refused then (s, .failed 81) else
      let bad := s.badRun r.addr bs.length
      let s1 := s.homeWriteRun r.addr bs (some 0)
      (s1, if bad && s1.badRun r.addr bs.length then .failed 84 else .done [])
    | .atomic op z u d new returning =>
      if refused then (s, .failed 81) else
      match (if returning || op != 1 then none else s.carrier c r.addr) with
      | some (id, g) => (s.joinAdd id g r.addr d, .done [])
      | none => match s.atomicAt r.addr op z u d.toNat new.toNat with
        | none => (s, .failed 84)
        | some (s1, old) => (s1, .done (if returning then [BitVec.ofNat 64 old] else []))
    | .performed _ _ _ => (s, .failed 81)

/-- The payload writes of the PUTSIG of a request that have been performed (R354). -/
def State.signalOf (s : State) (r : RemoteRequest) (n : Nat) : Signal :=
  (s.signals.find? fun x => x.source == r.source && x.gctx == r.gctx && x.team == r.team && x.number == n).getD
    { source := r.source, gctx := r.gctx, team := r.team, number := n, count := 0 }

/-- Sets them; none once the flag is performed. -/
def State.putSignal (s : State) (x : Signal) (done : Bool) : State :=
  let rest := s.signals.filter fun y =>
    !(y.source == x.source && y.gctx == x.gctx && y.team == x.team && y.number == x.number)
  { s with signals := if done then rest else x :: rest }

/-- A request's turn has come: every earlier one of its team and line has been performed, and before a flag the payload of its
PUTSIG (R354, R356). -/
def State.inTurn (s : State) (r : RemoteRequest) : Bool :=
  r.seq == s.heardSeq r + 1 && match r.signal with
    | some (n, m) => Nat.ble m (s.signalOf r n).count
    | none => true

/-- Performs a request in its turn, with what it means to a PUTSIG: a payload write counts for it, but not one whose page has
migrated (R361), and a flag whose payload failed is not performed (R354). -/
def State.performInTurn (s : State) (r : RemoteRequest) : State × RemoteAnswer :=
  match r.signal with
  | none => s.performRequest r
  | some (n, 0) =>
    let x := s.performRequest r
    let y := x.1.signalOf r n
    match x.2 with
    | .moved _ _ _ _ => x
    | .failed c => (x.1.putSignal { y with count := y.count + 1, failed := y.failed.or (some c) } false, x.2)
    | _ => (x.1.putSignal { y with count := y.count + 1 } false, x.2)
  | some (n, _ + 1) =>
    let y := s.signalOf r n
    match y.failed with
    | some c => (s.putSignal y true, .failed c)
    | none => let x := s.performRequest r; (x.1.putSignal y true, x.2)

/-- Performs a request in its turn and notes it; an earlier sending of it that is still held is a repeat (R364). -/
def State.hear (s : State) (r : RemoteRequest) : State :=
  let x := s.performInTurn r
  let h : Heard := { source := r.source, gctx := r.gctx, team := r.team, line := r.addr / 64, origin := r.origin, seq := r.seq
                     answer := x.2 }
  { x.1 with
    heard := h :: x.1.heard.filter fun y => !(sameLine y r)
    held := x.1.held.filter fun q => !(sameLine h q && Nat.ble q.seq r.seq) }

/-- Performs the requests that were held until their turn came (R356). -/
def State.hearHeld (s : State) : State :=
  s.held.foldl (fun (a : State) _ =>
    match a.held.find? fun r => a.inTurn r with
    | some r => { a with held := a.held.filter fun q => q != r }.hear r
    | none => a) s

/-- REMOTE_REQUEST (R346, R347, R354, R356, R361, R364): performed in order for its team and line, held until its turn, or
discarded as a repeat; or a page is found to have migrated (log 18). -/
def execRemoteRequest (s : State) : Host.Outcome State Fault Refusal :=
  match s.detail with
  | .request r =>
    if Nat.ble r.seq (s.heardSeq r) then .next s
    else if s.inTurn r then .next (s.hear r).hearHeld
    else .next (if s.held.contains r then s else { s with held := s.held ++ [r] })
  | .migrated page cxl pkg a => .next { s with moved := Table.put s.moved page (cxl, pkg, a) }
  | _ => .next s

end Sys2Proof.Machine
end

