-- ==== Sys2Proof/Machine/Progress.lean ====
section
/-! DEFINITION. Row 0x35 and the progress table (R326 to R332): step announcements, heartbeats and silence. -/

namespace Sys2Proof.Machine

/-! ### Selection (R372, R394) -/

/-- SYSSEL of a die's control core. -/
def State.sel (s : State) (die : Nat) : Word := s.syssel.getD die 0

/-- The context whose registers and table a team or thread addresses (R372, R394). -/
def State.ctxFor (s : State) (k : Nat) (t : Team) : Nat := if isCoreKey k then t.ctx else bitsOf (s.sel (dieOf k)) 0 8

/-! ### The table (R326 to R328) -/

/-- Changes a peer of a context's table. -/
def State.modPeer (s : State) (c i : Nat) (f : Peer → Peer) : State :=
  let x := s.ctx c
  match x.peers[i]? with
  | some p => s.putCtx c { x with peers := x.peers.set i (f p) }
  | none => s

/-- STEPAs that a table held are tested again (R330). -/
def State.retest (s : State) (c : Nat) : State := s.wakeAll fun t => t.ctx == c && t.wait == Wait.step

/-- The other packages that host a peer of the group (R327). -/
def Context.peerPackages (x : Context) (self : Nat) : List Nat :=
  ((x.peers.map fun p => p.pkg).eraseDups).filter fun p => p != self

/-- Announces the step of a local peer to every other package of the group (R327). -/
def State.announce (s : State) (c i : Nat) : State :=
  let x := s.ctx c
  match x.peers[i]? with
  | some p =>
    if !p.here then s else
    (x.peerPackages s.pkgnum).foldl (fun (a : State) d => a.tell d 1 c [BitVec.ofNat 64 i, BitVec.ofNat 64 p.step]) s
  | none => s

/-- Loads a table of n peers from its descriptor at PGBASE (R326); nothing where the descriptor cannot be read. -/
def State.readPeers (s : State) (c n : Nat) : Option (List Peer) :=
  let base := (s.ctx c).pgBase.toNat / 8 * 8
  let ok := (List.range n).all fun i => isDevice (base + 8 * i) && !(s.badData (base + 8 * i))
  if !ok then none else
  some ((List.range n).map fun i =>
    let d := s.dword (base + 8 * i)
    { pkg := bitsOf d 0 16, here := d.getLsbD 16, heardAt := s.clock })

/-- A write of PGSIZE (R326, R345). -/
def State.writePgsize (s : State) (c : Nat) (v : Word) : State :=
  if Nat.blt 4096 v.toNat then s else
  if v == 0 then (s.putCtx c { s.ctx c with pgSize := 0, peers := [] }).retest c else
  match s.readPeers c v.toNat with
  | some ps => (s.putCtx c { s.ctx c with pgSize := v.toNat, peers := ps, lead := 2 }).retest c
  | none => s

/-- PGSIZE_WRITE (R326): a value written to a context's PGSIZE. -/
def execPgsizeWrite (s : State) : Host.Outcome State Fault Refusal :=
  match s.detail with
  | .value c _ v => .next (s.writePgsize c v)
  | _ => .next s

/-- STEP_ANNOUNCEMENT (R327, R347): the larger step, and the peer is heard of. -/
def execStepAnnouncement (s : State) : Host.Outcome State Fault Refusal :=
  match s.detail with
  | .announce g i step =>
    match s.ctxOfGid g with
    | some c => .next ((s.modPeer c i fun p =>
        { p with step := Nat.max p.step (step % 2 ^ 32), heardAt := s.clock, silent := false }).retest c)
    | none => .next s
  | _ => .next s

/-- HEARTBEAT_PERIOD (R327, R345): every PBEAT FCLK the package announces each of its peers. -/
def execHeartbeatPeriod (s : State) : Host.Outcome State Fault Refusal :=
  if Nat.blt (2 * (s.clock - s.beatAt)) s.pbeat.toNat then .next s else
  .next (s.ctxs.foldl (fun (a : State) x =>
    if !x.2.alive then a else
    (List.range x.2.peers.length).foldl (fun (b : State) i => b.announce x.1 i) a) { s with beatAt := s.clock })

/-- A remote peer's silence counter has reached PSILENT (R328). -/
def State.isSilent (s : State) (c i : Nat) : Bool :=
  let x := s.ctx c
  match x.peers[i]? with
  | some p => !p.here && !p.silent && x.psilent != 0 && Nat.ble x.psilent.toNat (2 * (s.clock - p.heardAt))
  | none => false

/-- PEER_SILENT (R328, R386): a peer falls silent, its event is written, and PAUTOX may excuse it. -/
def execPeerSilent (s : State) : Host.Outcome State Fault Refusal :=
  match s.detail with
  | .place c i =>
    if !s.isSilent c i then .next s else
    let x := s.ctx c
    let s1 := s.modPeer c i fun p => { p with silent := true, excused := p.excused || x.pautox }
    .next ((s1.post { kind := 5, cause := 0, ctx := c, addr := 0, data := BitVec.ofNat 64 i
                      source := BitVec.ofNat 64 (65536 * x.part) }).retest c)
  | _ => .next s

/-! ### Row 0x35 (R329 to R332) -/

/-- The peer that a team acts for (R326). -/
def Team.self (t : Team) : Nat := t.pself.toNat % 4096

/-- The table and a peer number that it holds, or cause 74 (R326). -/
def Context.peer (x : Context) (i : Nat) : Option Peer := if x.pgSize == 0 then none else x.peers[i]?

/-- The smallest of some steps, if any. -/
def leastStep : List Peer → Option Nat
  | [] => none
  | p :: ps => some (ps.foldl (fun m q => Nat.min m q.step) p.step)

/-- The peers but one, with their numbers. -/
def Context.otherPeers (x : Context) (i : Nat) : List Peer := (x.peers.take i ++ x.peers.drop (i + 1)).filter fun p => !p.excused

/-- A publish of the team at a home elsewhere is outstanding (R330). -/
def State.publishesOut (s : State) (uid : Nat) : Bool :=
  s.ops.any fun o => o.2.uid == uid && match o.2.work with
    | .remote rs => rs.any fun r => match r.req.kind with
      | .publish _ _ => true
      | _ => false
    | _ => false

/-- STEPA (R330). -/
def execStepa (f : FmtE) (s : State) : Host.Outcome State Fault Refusal :=
  run (.stepa f) s fun _ t =>
    let n := (t.s f.q).toNat % 2 ^ 32
    let x := s.ctx t.ctx
    if n == 0 then .trap 4 {} s else
    match x.peer t.self with
    | none => .trap 74 {} s
    | some p =>
      if s.publishesOut t.uid then .park .engine s
      else if Nat.ble n p.step then .done s
      else
        match leastStep (x.otherPeers t.self) with
        | some m =>
          if Nat.blt (m + x.lead) n then .park .step s
          else .done (((s.modPeer t.ctx t.self fun q => { q with step := n }).announce t.ctx t.self).retest t.ctx)
        | none => .done (((s.modPeer t.ctx t.self fun q => { q with step := n }).announce t.ctx t.self).retest t.ctx)

/-- The value of a peer for STEPR.peer (R331). -/
def Peer.word (p : Peer) : Word :=
  BitVec.ofNat 64 (p.step + (if p.excused then 2 ^ 32 else 0) + (if p.silent then 2 ^ 33 else 0))

/-- STEPR (R331, R395). -/
def execStepr (f : FmtE) (s : State) : Host.Outcome State Fault Refusal :=
  run (.stepr f) s fun k t =>
    let x := s.ctx (s.ctxFor k t)
    let put := fun (v : Word) => Did.done (s.putTeam k (t.setS f.p v))
    match (f.f.extractLsb' 0 2).toNat with
    | 0 =>
      if !isCoreKey k then .trap 4 {} s else
      match x.peer t.self with
      | some p => put (BitVec.ofNat 64 p.step)
      | none => .trap 74 {} s
    | 1 =>
      if x.pgSize == 0 then .trap 74 {} s
      else put (BitVec.ofNat 64 ((leastStep (x.peers.filter fun p => !p.excused)).getD 0xFFFFFFFF))
    | 2 => match x.peer (t.s f.q).toNat with
      | some p => put p.word
      | none => .trap 74 {} s
    | _ => if x.pgSize == 0 then .trap 74 {} s else put (BitVec.ofNat 64 x.lead)

/-- PEXC (R332). -/
def execPexc (f : FmtE) (s : State) : Host.Outcome State Fault Refusal :=
  run (.pexc f) s fun k t =>
    let c := s.ctxFor k t
    let i := (t.s f.q).toNat
    match (s.ctx c).peer i with
    | none => .trap 74 {} s
    | some _ => .done ((s.modPeer c i fun p => { p with excused := !(f.f.getLsbD 0) }).retest c)

/-- PLEAD (R332). -/
def execPlead (f : FmtE) (s : State) : Host.Outcome State Fault Refusal :=
  run (.plead f) s fun k t =>
    let c := s.ctxFor k t
    let v := (t.s f.q).toNat
    if Nat.blt 15 v then .trap 4 {} s
    else if (s.ctx c).pgSize == 0 then .trap 74 {} s
    else .done ((s.putCtx c { s.ctx c with lead := v }).retest c)

end Sys2Proof.Machine
end

