-- ==== Sys2Proof/Machine/Quorum.lean ====
section
/-! DEFINITION. Row 0x36 and the quorum slots (R333 to R342), and the completion of posted operations of the Q class. -/

namespace Sys2Proof.Machine

/-! ### Slots (R333) -/

/-- The key of a slot of a die. -/
def slotKey (die i : Nat) : Nat := 64 * die + i

/-- A slot of a die is granted to a context (R333, R345). -/
def State.granted (s : State) (c die i : Nat) : Bool :=
  (s.ctx c).alive && (Table.getD (s.ctx c).qgrant die 0).getLsbD i

/-- A slot as a context sees it: one that another context opened is idle for it. -/
def State.slotFor (s : State) (c key : Nat) : Slot :=
  let x := Table.getD s.slots key {}
  if x.ctx == c then x else x.clear

/-- Sets a slot. -/
def State.putSlot (s : State) (key : Nat) (x : Slot) : State := { s with slots := Table.put s.slots key x }

/-- Contributions dropped, counted modulo 2^32 (R335, R340). -/
def Slot.drop (x : Slot) (n : Nat) : Slot := { x with drops := (x.drops + n) % 2 ^ 32 }

/-! ### Sums and closes (R335, R337) -/

/-- A quotient by a finite positive FP32 value, rounded to nearest even, with its flags (R147, R149, R337). -/
def divideBy (den x : Nat) : Nat × BitVec 6 :=
  match fp32.decode x, fp32.decode den with
  | .fin neg m e, .fin _ q d => if m == 0 then (fp32.signed neg 0, 0) else fp32.round .rne neg m q (e - d)
  | .inf neg, _ => (fp32.signed neg fp32.inf, 0)
  | y, _ => (fp32.nan, nvOf [y])

/-- An operation on FP32 values element by element, with the flags of all of them. -/
def zipFp (op : Nat → Nat → Nat × BitVec 6) (as bs : List (BitVec 32)) : List (BitVec 32) × BitVec 6 :=
  let rs := List.zipWith (fun (a b : BitVec 32) => op a.toNat b.toNat) as bs
  (rs.map fun r => BitVec.ofNat 32 r.1, rs.foldl (fun f r => f ||| r.2) 0)

/-- A contribution added into an area: the first is copied (R335). -/
def Area.add (a : Area) (xs : List (BitVec 32)) : Area :=
  if a.count == 0 then { sum := xs, count := 1, flags := 0 } else
  let r := zipFp fp32.add a.sum xs
  { sum := r.1, count := a.count + 1, flags := a.flags ||| r.2 }

/-- A count as an FP32 value; those that occur are exact (R337). -/
def countFp (n : Nat) : Nat := (fp32.roundInt .rne (Int.ofNat n) 0 false).1

/-- The result of a close, with the flags of its roundings (R337). -/
def closeResult (lambda : Nat) (on late : Area) : List (BitVec 32) × BitVec 6 :=
  if late.count == 0 then
    zipFp (fun x _ => divideBy (countFp on.count) x) on.sum on.sum
  else
    let p := fp32.mul lambda (countFp late.count)
    let den := fp32.add (countFp on.count) p.1
    let b := zipFp (fun x _ => fp32.mul lambda x) late.sum late.sum
    let num := if on.count == 0 then (b.1, 0) else zipFp fp32.add on.sum b.1
    let r := zipFp (fun x _ => divideBy den.1 x) num.1 num.1
    (r.1, p.2 ||| den.2 ||| b.2 ||| num.2 ||| r.2)

/-- A close of a kind: 1 quorum, 2 dusk, 3 empty (R336, R337). -/
def Slot.close (x : Slot) (kind : Nat) : Slot :=
  let n := x.onTime.count
  let l := x.late.count
  let done := { x with state := .closed, folded := l, onTime := { count := n }, late := {} }
  if kind == 3 || (n == 0 && (l == 0 || x.lambda == 0)) then
    { (done.drop (n + l)) with kind := 3, flags := 0, result := List.replicate x.len 0 }
  else
    let r := closeResult x.lambda.toNat x.onTime x.late
    { done with kind := kind, flags := x.onTime.flags ||| x.late.flags ||| r.2, result := r.1 }

/-- What QWAIT writes of a closed slot (R340). -/
def Slot.word (x : Slot) : Word :=
  BitVec.ofNat 64 (x.onTime.count % 8192 + 2 ^ 16 * (x.folded % 8192) + 2 ^ 30 * x.kind + 2 ^ 32 * x.step)

/-- Changes the teams, resident or in a cellar, that wait for a slot (R340, R342). -/
def State.slotWaiters (s : State) (key : Nat) (f : Team → BitVec 5 → Team) : State :=
  let one := fun (ts : Table Team) => Table.mapVals ts fun _ t => match t.wait with
    | .slot n r => if n == key then { f t r with wait := .ready } else t
    | _ => t
  { s with teams := one s.teams, cellars := Table.mapVals s.cellars fun _ c => { c with teams := one c.teams } }

/-- Closes a slot: the teams that wait for it receive its word (R336, R337, R340). -/
def State.closeSlot (s : State) (key : Nat) (x : Slot) (kind : Nat) : State :=
  let y := x.close kind
  (s.putSlot key y).slotWaiters key fun t r => { t.setS r y.word with phase := 1 }

/-- The timer of an open slot has run out (R336). -/
def State.slotExpired (s : State) (x : Slot) : Bool :=
  x.state == .opened && x.time != 0 && Nat.ble (x.openedAt + x.time) s.clock

/-- Closes a slot whose timer has run out, before it does anything else (R336). -/
def State.expire (s : State) (key : Nat) : State :=
  let x := Table.getD s.slots key {}
  if s.slotExpired x then s.closeSlot key x (if Nat.ble x.floor x.onTime.count then 2 else 3) else s

/-- QUORUM_TIMER_EXPIRY (R336). -/
def execQuorumTimerExpiry (s : State) : Host.Outcome State Fault Refusal :=
  match s.detail with
  | .place key _ => .next (s.expire key)
  | _ => .next s

/-! ### Contributions (R335, R339) -/

/-- What becomes of a contribution. -/
inductive Filing where
  | refused | dropped | onTime | late | early
  deriving DecidableEq, Repr

/-- Where a contribution goes by its tag (R335). -/
def Slot.filing (x : Slot) (t : Nat) : Filing :=
  match x.state with
  | .idle => .refused
  | .opened =>
    if t == x.step then .onTime
    else if t + 1 == x.step then .late
    else if t == x.step + 1 then .early
    else if Nat.blt t x.step then .dropped else .refused
  | .closed =>
    if t == x.step then .late
    else if t == x.step + 1 then .early
    else if Nat.blt t x.step then .dropped else .refused

/-- Files a contribution that a slot takes; the one that completes the quorum closes it (R335, R336). -/
def State.fileAt (s : State) (key : Nat) (x0 : Slot) (w : Filing) (xs : List (BitVec 32)) : State :=
  let x := { x0 with takenAt := some s.clock }
  match w with
  | .onTime =>
    let y := { x with onTime := x.onTime.add xs }
    if Nat.ble y.quorum y.onTime.count then s.closeSlot key y 1 else s.putSlot key y
  | .late => s.putSlot key { x with late := x.late.add xs }
  | .early => s.putSlot key { x with early := x.early.add xs }
  | .dropped => s.putSlot key (x.drop 1)
  | .refused => s

/-- FP32 values of a run of bytes. -/
def fpValues (n : Nat) (bs : List Byte) : List (BitVec 32) :=
  (List.range n).map fun i => BitVec.ofNat 32 (ofBytes ((bs.drop (4 * i)).take 4))

/-- Reads the source of a contribution, line by line, up to the first fault (R251, R339). -/
def State.sourceBytes (s : State) (o : Op) (src : Word) (n : Nat) : List Nat → List Byte → Except Stop (List Byte)
  | [], acc => .ok acc
  | i :: rest, acc =>
    let a := src + BitVec.ofNat 64 (64 * i)
    match s.engineCause o a false [0, 4] with
    | some x => .error x
    | none =>
      let bs := (List.range (Nat.min 64 (n - 64 * i))).map fun j => a + BitVec.ofNat 64 j
      if s.badFrom o.core (s.engineAddr o a false) && bs.any (fun b => !(s.engineDirty o b)) then .error { cause := 21, addr := a }
      else s.sourceBytes o src n rest (acc ++ bs.map fun b => s.engineByte o b)

/-- The values that a QCONT sends to a slot of a length. -/
def State.contributed (s : State) (o : Op) (src : Word) (len : Nat) : Except Stop (List (BitVec 32)) :=
  match s.sourceBytes o src (4 * len) (List.range ((4 * len + 63) / 64)) [] with
  | .error e => .error e
  | .ok bs => .ok (fpValues len bs)

/-- The package, slot key and step of a QCONT's destination word (R339). -/
def contributionPlace (w : Word) : Nat × Nat × Nat := (bitsOf w 40 16, slotKey (bitsOf w 38 2) (bitsOf w 32 6), bitsOf w 0 32)

/-- The slot has taken a contribution in this ACLK: it takes one (R335). -/
def Slot.taking (x : Slot) (clock : Nat) : Bool := x.takenAt == some clock

/-- The operation at its first sending, from which FABTO counts (R364). -/
def Op.sentNow (o : Op) (clock : Nat) : Op :=
  match o.work with
  | .contribute src dst refused false => { o with work := .contribute src dst refused true, since := clock }
  | _ => o

/-- A QCONT of this package reaches its slot here (R335, R339). -/
def State.contribute (s : State) (id : Nat) (o : Op) (src dst : Word) : State :=
  match contributionPlace dst with
  | (pkg, key, tag) =>
    if pkg != s.pkgnum then s else
    if !(s.granted o.ctx (key / 64) (key % 64)) then s.endOp id (some (70, 0)) else
    let s1 := s.expire key
    let x := s1.slotFor o.ctx key
    if x.taking s1.clock then s1 else
    match x.filing tag with
    | .refused => { s1 with ops := Table.put s1.ops id { o.sentNow s1.clock with work := .contribute src dst (some s1.clock) true } }
    | .dropped => (s1.fileAt key x .dropped []).endOp id none
    | w => match s1.contributed o src x.len with
      | .error y => s1.opStop id o y
      | .ok xs => (s1.fileAt key x w xs).endOp id none

/-- Notes the answer to a contribution of another package, in place of an earlier one (R339, R364). -/
def State.verdict (s : State) (source g seq v : Nat) : State :=
  { s with verdicts := { source := source, gctx := g, seq := seq, verdict := v } ::
      s.verdicts.filter fun y => !(y.source == source && y.gctx == g && y.seq == seq) }

/-- A contribution of another package reaches its slot (R335, R339, R347, R364): one that has been taken is a repeat, and is
discarded. -/
def State.contributionFrom (s : State) (source g seq die i tag : Nat) (xs : List (BitVec 32)) : State :=
  if s.verdicts.any fun y => y.source == source && y.gctx == g && y.seq == seq && y.verdict == 0 then s else
  match s.ctxOfGid g with
  | none => s.verdict source g seq 81
  | some c =>
    let key := slotKey die i
    if !(s.granted c die i) then s.verdict source g seq 70 else
    let s1 := s.expire key
    let x := s1.slotFor c key
    if x.taking s1.clock then s1 else
    match x.filing tag with
    | .refused => s1.verdict source g seq 1
    | w => if xs.length != x.len then s1.verdict source g seq 70 else (s1.fileAt key x w xs).verdict source g seq 0

/-- QUORUM_CONTRIBUTION (R335, R339, R347): of a QCONT of this package, or of another package. -/
def execQuorumContribution (s : State) : Host.Outcome State Fault Refusal :=
  match s.detail with
  | .contribution (.fromHere id) =>
    match Table.find? s.ops id with
    | some o =>
      match o.work with
      | .contribute src dst none _ => .next (if o.miss.isSome then s else s.contribute id o src dst)
      | _ => .next s
    | none => .next s
  | .contribution (.fromPackage source g seq die i tag xs) => .next (s.contributionFrom source g seq die i tag xs)
  | _ => .next s

/-- QCONT_RESEND (R339): no sooner than 64 FCLK after a refusal the contribution is sent again. -/
def execQcontResend (s : State) : Host.Outcome State Fault Refusal :=
  match s.detail with
  | .place id _ =>
    match Table.find? s.ops id with
    | some o =>
      match o.work with
      | .contribute src dst (some n) sent =>
        .next (if Nat.ble 64 (2 * (s.clock - n)) then
          if s.noRoute (contributionPlace dst).1 then s.endOp id (some (83, 0)) else
          { s with ops := Table.put s.ops id { o with work := .contribute src dst none sent } } else s)
      | _ => .next s
    | none => .next s
  | _ => .next s

/-! ### Row 0x36 (R334, R338 to R341) -/

/-- The three words of QOPEN are well formed (R334 step 1). -/
def openOk (a b d : Word) : Bool :=
  let n := bitsOf b 0 13
  let q := bitsOf b 16 13
  bitsOf a 38 26 == 0 && bitsOf b 13 3 == 0 && bitsOf b 29 3 == 0 && bitsOf b 63 1 == 0 && bitsOf a 0 32 != 0 &&
    n != 0 && Nat.ble n 4096 && q != 0 && Nat.ble q n && Nat.ble (bitsOf b 32 13) q && Nat.ble (bitsOf d 32 32) 0x3F800000

/-- QOPEN (R334). -/
def execQopen (f : FmtE) (s : State) : Host.Outcome State Fault Refusal :=
  run (.qopen f) s fun k t =>
    let a := t.s f.p
    let b := t.s (f.p + 1)
    let d := t.s (f.p + 2)
    let step := bitsOf a 0 32
    let key := slotKey (dieOf k) (bitsOf a 32 6)
    let len := bitsOf b 45 18 + 1
    let reset := f.f.getLsbD 0
    if !openOk a b d then .trap 4 {} s
    else if !(s.granted t.ctx (dieOf k) (bitsOf a 32 6)) then .trap 70 {} s
    else
      let s1 := s.expire key
      let x := s1.slotFor t.ctx key
      if !reset && (x.state == .opened || (x.state == .closed && x.len != len)) then .trap 70 {} s1
      else if !reset && x.state == .closed && step != x.step + 1 then .trap 71 {} s1
      else
        let s2 := if x.state == .opened then
            s1.slotWaiters key fun u _ => { u with raised := some (71, 0) }
          else s1
        let x1 := if x.state == .opened then x.drop (x.onTime.count + x.late.count + x.early.count) else x
        let x2 := if reset || x.state == .idle then { x1 with early := {}, late := {} } else x1
        let y := { x2 with
          state := .opened, ctx := t.ctx, step := step, quorum := bitsOf b 16 13, floor := bitsOf b 32 13, len := len
          time := bitsOf d 0 32, lambda := BitVec.ofNat 32 (bitsOf d 32 32), openedAt := s.clock
          onTime := x2.early, early := {}, result := [], kind := 0, folded := 0, flags := 0 }
        let s3 := { s2 with ops := Table.mapVals s2.ops fun _ o => match o.work with
          | .readResult _ _ n => if n == key then { o with work := .settled (some (71, 0)) } else o
          | _ => o }
        .done (if Nat.ble y.quorum y.onTime.count then s3.closeSlot key y 1 else s3.putSlot key y)

/-- QCONT (R339). -/
def execQcont (f : FmtE) (s : State) : Host.Outcome State Fault Refusal :=
  run (.qcont f) s fun k t =>
    let src := t.s f.p
    let dst := t.s (f.p + 1)
    if bitsOf dst 56 8 != 0 then .trap 4 {} s
    else if src.toNat % 64 != 0 then .trap 18 { addr := src } s
    else
      let s1 := s.begin k t 3 (.contribute src dst none ((contributionPlace dst).1 != s.pkgnum))
      .done (if s.noRoute (contributionPlace dst).1 then s1.endOp (s1.serial - 1) (some (83, 0)) else s1)

/-- A selector's slot here: cause 4 for bits that are not zero, 70 for a slot that is not granted (R333, R338). -/
def State.selected (s : State) (k : Nat) (t : Team) (w : Word) : Except Nat Nat :=
  if bitsOf w 38 26 != 0 then .error 4
  else if !(s.granted t.ctx (dieOf k) (bitsOf w 32 6)) then .error 70
  else .ok (slotKey (dieOf k) (bitsOf w 32 6))

/-- QWAIT (R340). -/
def execQwait (f : FmtE) (s : State) : Host.Outcome State Fault Refusal :=
  run (.qwait f) s fun k t =>
    if t.phase == 1 then .done s else
    match s.selected k t (t.s f.q) with
    | .error c => .trap c {} s
    | .ok key =>
      let s1 := s.expire key
      let x := s1.slotFor t.ctx key
      let step := bitsOf (t.s f.q) 0 32
      match x.state with
      | .idle => .trap 70 {} s1
      | .closed => if x.step == step then .done (s1.putTeam k (t.setS f.p x.word)) else .trap 71 {} s1
      | .opened => if x.step == step then .park (.slot key f.p) s1 else .trap 71 {} s1

/-- QREAD (R341). -/
def execQread (f : FmtE) (s : State) : Host.Outcome State Fault Refusal :=
  run (.qread f) s fun k t =>
    let dst := t.s f.p
    let sel := t.s (f.p + 1)
    if bitsOf sel 38 26 != 0 then .trap 4 {} s
    else if dst.toNat % 64 != 0 then .trap 18 { addr := dst } s
    else .done (s.begin k t 3 (.readResult dst sel (slotKey (dieOf k) (bitsOf sel 32 6))))

/-- The state code of a slot (R340). -/
def SlotState.code : SlotState → Nat
  | .idle => 0
  | .opened => 1
  | .closed => 2

/-- QSTAT (R340). -/
def execQstat (f : FmtE) (s : State) : Host.Outcome State Fault Refusal :=
  run (.qstat f) s fun k t =>
    match s.selected k t (t.s f.q) with
    | .error c => .trap c {} s
    | .ok key =>
      let s1 := s.expire key
      let x := s1.slotFor t.ctx key
      let v := if f.f.getLsbD 0 then
          x.late.count % 8192 + 2 ^ 16 * (x.early.count % 8192) + 2 ^ 32 * x.drops
        else
          x.state.code + 4 * x.kind + 16 * x.flags.toNat + 2 ^ 16 * (x.onTime.count % 8192) + 2 ^ 32 * x.step
      .done (s1.modTeam k fun u => u.setS f.p (BitVec.ofNat 64 v))

/-! ### Completion (R247, R303, R341) -/

/-- Writes a slot's result line by line, up to the first fault (R249, R251, R341). -/
def State.resultLines (s : State) (o : Op) (dst : Word) (xs : List (BitVec 32)) : List Nat → State × Option Stop
  | [] => (s, none)
  | i :: rest =>
    let a := dst + BitVec.ofNat 64 (64 * i)
    match s.engineCause o a true [0] with
    | some x => (s, some x)
    | none =>
      let part := (xs.drop (16 * i)).take 16
      let data := BitVec.ofNat 512 (part.foldr (fun (x : BitVec 32) n => x.toNat + 2 ^ 32 * n) 0)
      (s.engineLine o (sig57 a / 64) (s.engineAddr o a true) (byteMask 0 (4 * part.length)) data (some 0)).resultLines o dst
        xs rest

/-- What a posted operation of the Q class does at its completion (R303, R341). -/
def State.queueAct (s : State) (o : Op) : State × Option Stop :=
  match o.work with
  | .readResult dst sel key =>
    if !(s.granted o.ctx (key / 64) (key % 64)) then (s, some { cause := 70, addr := 0 }) else
    let s1 := s.expire key
    let x := s1.slotFor o.ctx key
    if x.state != .closed || x.step != bitsOf sel 0 32 then (s1, some { cause := 71, addr := 0 })
    else s1.resultLines o dst x.result (List.range ((x.len + 15) / 16))
  | _ => s.storeAct o

/-- What the slot of another package said of a QCONT (R339): its length, and 0 taken, 1 refused, or a cause. -/
def State.contributedAway (s : State) (id len verdict : Nat) : State :=
  match Table.find? s.ops id with
  | none => s
  | some o =>
    match o.work with
    | .contribute src dst none sent =>
      if (contributionPlace dst).1 == s.pkgnum || o.miss.isSome then s else
      if s.noRoute (contributionPlace dst).1 then s.endOp id (some (83, 0)) else
      match verdict with
      | 0 => match s.contributed o src len with
        | .error y => s.opStop id { o with work := .contribute src dst none false } y
        | .ok xs => (s.tell (contributionPlace dst).1 5 o.ctx (BitVec.ofNat 64 id :: dst :: xs.map fun x => x.setWidth 64)).endOp id none
      | 1 => { s with ops := Table.put s.ops id { o with work := .contribute src dst (some s.clock) sent } }
      | c => s.endOp id (some (c, 0))
    | _ => s

/-- STORE_OP_COMPLETE (R303, R339, R341): a posted operation of the Q class completes or fails at its engine. -/
def execStoreOpComplete (s : State) : Host.Outcome State Fault Refusal :=
  match s.detail with
  | .place id _ =>
    match Table.find? s.ops id with
    | some o =>
      match o.work with
      | .settled _ => .next (s.runOp id fun a b => a.queueAct b)
      | .copyOut _ _ _ _ => .next (s.runOp id fun a b => a.queueAct b)
      | .readResult _ _ _ => .next (s.runOp id fun a b => a.queueAct b)
      | _ => .next s
    | none => .next s
  | .numbers [id, len, verdict] => .next (s.contributedAway id len verdict)
  | _ => .next s

end Sys2Proof.Machine
end

