-- ==== Sys2Proof/Machine/Launch.lean ====
section
/-! DEFINITION. Launch queues, the leader lease, launches, dealing and placement, prologues and task queues (R395 to
R411, R429, R434). -/

namespace Sys2Proof.Machine

/-! ### What the device reads and writes for a context (R397, R399, R404) -/

/-- The physical address of an access that the device makes for a context through its translation; or the cause. -/
def State.deviceAddr (s : State) (c : Nat) (a : Word) (write : Bool) (classes : List Nat) : Except Nat Nat :=
  if (s.ctx c).key.isNone then .error 22
  else match s.translate 0 c a { rd := !write, wr := write } with
    | .cause x => .error x
    | .page p => if classes.contains p.cls then .ok p.pa else .error 19

/-- Doublewords that the device reads at an aligned address; or the cause, and the address that met it. -/
def State.deviceRead (s : State) (c : Nat) (classes : List Nat) : Nat → Word → Except (Nat × Word) (List Word)
  | 0, _ => .ok []
  | n + 1, a =>
    match s.deviceAddr c a false classes with
    | .error x => .error (x, a)
    | .ok pa =>
      if s.badData pa then .error (21, a) else
      match s.deviceRead c classes n (a + 8) with
      | .error x => .error x
      | .ok ws => .ok (s.dword pa :: ws)

/-- A translation miss that the device meets for a context (R384, R386; log 113): the event says a read or a write of an
engine and names the partition. Answers the miss's number. -/
def State.deviceMiss (s : State) (c : Nat) (a : Word) (w : Waiter) (write : Bool) : State × Nat :=
  s.noteMiss c a w (if write then 10 else 9) (BitVec.ofNat 64 (65536 * (s.ctx c).part))

/-- The event of a malformed entry that the device meets for a context (R383). -/
def State.deviceBad (s : State) (c x : Nat) (a : Word) : State :=
  if x == 23 then s.pteBad (sysKey 0) c a (s.ctx c).part else s

/-- The LAUNCH event (R386, R398, R401). -/
def State.launchEvent (s : State) (c queue cause seq : Nat) : State :=
  s.post { kind := 7, cause := cause, ctx := c, addr := 0
           data := BitVec.ofNat 64 (queue + 2 ^ 8 * cause + 2 ^ 32 * seq)
           source := BitVec.ofNat 64 (65536 * (s.ctx c).part) }

/-! ### The lease (R396) -/

/-- FCLK of the I/O die since reset (R7). -/
def State.fclk (s : State) : Nat := 2 * s.clock

/-- The lease is held and has not expired. -/
def State.leased (s : State) : Bool := s.lease.held && Nat.blt s.fclk s.lease.expiry

/-- A die holds the lease (R396, R408). -/
def State.holds (s : State) (die : Nat) : Bool := s.leased && s.lease.holder == die

/-- The OK bit of a writer. -/
def Lease.say (x : Lease) (die : Nat) (b : Bool) : Lease := { x with ok := x.ok.set die b }

/-- A queue of a context, at reset where it was never used. -/
def State.queue (s : State) (c q : Nat) : Queue := Table.getD (s.ctx c).queues q {}

/-- Sets a queue of a context. -/
def State.putQueue (s : State) (c q : Nat) (x : Queue) : State :=
  s.putCtx c { s.ctx c with queues := Table.put (s.ctx c).queues q x }

/-- Tickets of an older term are stale: their entries return to their queues as not taken (R400, R418). -/
def State.returnStale (s : State) : State :=
  (s.launches.filter fun l => l.2.state == .taken && l.2.term != s.lease.term).foldl (fun (a : State) l =>
    let q := a.queue l.2.ctx l.2.queue
    { a with launches := Table.del a.launches l.1 }.putQueue l.2.ctx l.2.queue
      { q with head := l.2.back.head, seq := l.2.back.seq, nest := l.2.back.nest, takenAt := l.2.back.takenAt }) s

/-- The command is done, with a status: 0 OK, 1 BUSY, 2 BADCMD, 3 BADIMG, 4 ROLLEDBACK, 5 FAULT (R421). -/
def State.answered (s : State) (status : Nat) : State :=
  { s with mailbox := { s.mailbox with cmd := s.mailbox.cmd &&& ~~~0x100, stat := BitVec.ofNat 64 status } }

/-- What belongs to a command ends with a status, which stands unless another command runs (R421). -/
def State.answeredFor (s : State) (code status : Nat) : State :=
  if s.mailbox.cmd.getLsbD 8 && bitsOf s.mailbox.cmd 0 8 != code then s else s.answered status

/-- The supervisor image, or the update, that follows a successful acquire: after a rollback the update is over (R439). -/
def State.afterAcquire (s : State) : State :=
  if s.update.state == 5 then
    { s with update := { s.update with state := 0, stgver := 0 } }.answeredFor 2 4
  else s

/-- The holder's release write in QUIESCE halts its system thread (R438): its die stops once the packet ends. -/
def State.afterRelease1 (s : State) (die : Nat) : State :=
  if s.update.state == 2 && s.lease.holder == die then
    { s with update := { s.update with halted := s.update.halted.set die true } }
  else s

/-- A write of LEASE by a control core (R396): 1 renew, 2 acquire, 3 release. -/
def State.writeLease (s : State) (die : Nat) (v : Word) : State :=
  let x := s.lease
  match bitsOf v 0 2 with
  | 1 =>
    if s.holds die then { s with lease := { x with expiry := s.fclk + x.length }.say die true }
    else { s with lease := x.say die false }
  | 2 =>
    if s.leased then { s with lease := x.say die false } else
    ({ s with lease := { x with
        holder := die, held := true, term := (x.term + 1) % 2 ^ 32, expiry := s.fclk + x.length }.say die true
      }.returnStale).afterAcquire
  | 3 =>
    let ok := s.holds die
    ({ s with lease := { x with held := x.held && !ok }.say die ok }).afterRelease1 die
  | _ => s

/-- LEASE_RENEW (R396). -/
def execLeaseRenew (s : State) : Host.Outcome State Fault Refusal :=
  match s.detail with
  | .place die _ => .next (if Nat.blt die 4 then s.writeLease die 1 else s)
  | _ => .next s

/-- LEASE_ACQUIRE (R396, R418). -/
def execLeaseAcquire (s : State) : Host.Outcome State Fault Refusal :=
  match s.detail with
  | .place die _ => .next (if Nat.blt die 4 then s.writeLease die 2 else s)
  | _ => .next s

/-- LEASE_RELEASE (R396). -/
def execLeaseRelease (s : State) : Host.Outcome State Fault Refusal :=
  match s.detail with
  | .place die _ => .next (if Nat.blt die 4 then s.writeLease die 3 else s)
  | _ => .next s

/-- LEASE_EXPIRY (R396): HELD falls. -/
def execLeaseExpiry (s : State) : Host.Outcome State Fault Refusal :=
  .next (if s.lease.held && !s.leased then { s with lease := { s.lease with held := false } } else s)

/-! ### Queue entries (R397, R398) -/

/-- The sequence number after one (R398). -/
def nextSeq (n : Nat) : Nat := if n == 0xFFFFFFFF then 1 else n + 1

/-- What the next entry of a queue is, past its NOP and INDIRECT entries. -/
inductive Scan where
  /-- Nothing is posted. -/
  | empty (q : Queue)
  /-- A LAUNCH entry: the queue before it is taken and after, its card and its sequence number. -/
  | launch (q after : Queue) (card : Word) (seq : Nat)
  /-- An entry that cannot be taken: the queue before it, the cause, its sequence number and the address (R397, R398). -/
  | failed (q : Queue) (cause seq : Nat) (a : Word)
  deriving DecidableEq, Repr

/-- Where the next entry of a queue stands, and the queue once it is taken; buffers that are used up are left. -/
def Queue.next (q : Queue) : Option (Word × Queue) :=
  match q.nest.dropWhile fun f => f.2 == 0 with
  | (a, n) :: rest => some (BitVec.ofNat 64 a, { q with nest := (a + 32, n - 1) :: rest })
  | [] =>
    if q.head == q.tail then none
    else some (q.base + BitVec.ofNat 64 (32 * q.head), { q with nest := [], head := (q.head + 1) % q.size })

/-- The cause for which the doublewords of an entry are malformed for a queue (R398). -/
def entryCause (q : Queue) (ws : List Word) : Option Nat :=
  let w := fun i => ws.getD i 0
  let kind := bitsOf (w 0) 0 8
  if bitsOf (w 0) 8 24 != 0 || bitsOf (w 0) 32 32 != q.seq || bitsOf (w 2) 32 32 != 0 || w 3 != 0 then some 97
  else match kind with
    | 1 => if bitsOf (w 1) 0 6 != 0 || bitsOf (w 2) 0 32 != 0 then some 97 else none
    | 2 =>
      if bitsOf (w 1) 0 5 != 0 || bitsOf (w 2) 0 32 == 0 then some 97
      else if Nat.ble 4 (q.nest.dropWhile fun f => f.2 == 0).length then some 96 else none
    | 3 => if bitsOf (w 2) 0 32 != 0 then some 97 else none
    | _ => some 97

/-- Takes entries up to the next LAUNCH entry (R398, R400). The first argument bounds the entries: a ring of 65,536 and
four levels of buffers of 2^32 hold fewer than 2^160. -/
def State.scan (s : State) (c : Nat) : Nat → Queue → Scan
  | 0, q => .empty q
  | n + 1, q =>
    match q.next with
    | none => .empty { q with nest := [] }
    | some (a, q') =>
      match s.deviceRead c [0] 4 a with
      | .error x => .failed q x.1 q.seq x.2
      | .ok ws =>
        match entryCause q ws with
        | some x => .failed q x (bitsOf (ws.getD 0 0) 32 32) a
        | none =>
          let after := { q' with seq := nextSeq q.seq }
          match bitsOf (ws.getD 0 0) 0 8 with
          | 1 => .launch q after (ws.getD 1 0) q.seq
          | 2 => s.scan c n { after with nest := ((ws.getD 1 0).toNat, bitsOf (ws.getD 2 0) 0 32) :: after.nest }
          | _ => s.scan c n after

/-- The bound of `State.scan`. -/
def scanBound : Nat := 2 ^ 160

/-- The LAUNCH entries that stand in a queue, in order, with the sequence number that the next posted entry gets. -/
def State.queuedOf (s : State) (c : Nat) : Nat → Queue → List (Word × Nat) × Nat
  | 0, q => ([], q.seq)
  | n + 1, q =>
    match s.scan c scanBound q with
    | .launch _ after card seq =>
      let r := s.queuedOf c n after
      ((card, seq) :: r.1, r.2)
    | .empty q' => ([], q'.seq)
    | .failed q' _ _ _ => ([], q'.seq)

/-! ### Dependences and priority (R399, R402) -/

/-- The dependence events of a card: queue and sequence number (R399). -/
def depsOf (ws : List Word) : List (Nat × Nat) :=
  ((ws.drop 8).take 4).filterMap fun w => if w.getLsbD 6 then some (bitsOf w 0 6, bitsOf w 32 32) else none

/-- The dependences of a card that stands in memory; none where it cannot be read. -/
def State.cardDeps (s : State) (c : Nat) (card : Word) : List (Nat × Nat) :=
  match s.deviceRead c [0] 16 card with
  | .ok ws => depsOf ws
  | .error _ => []

/-- A launch as the dependence tracker knows it. -/
structure Known where
  queue : Nat
  seq : Nat
  pos : Nat
  prio : Nat
  deps : List (Nat × Nat)
  deriving DecidableEq, Repr

/-- The launches of a context that are queued, taken or not yet ended, in the order of each queue (R402). -/
def State.known (s : State) (c : Nat) : List Known :=
  (s.ctx c).queues.flatMap fun e =>
    let begun := (s.launches.filter fun l => l.2.ctx == c && l.2.queue == e.1 && !l.2.ended).map fun l =>
      (l.2.seq, if l.2.dws.isEmpty then s.cardDeps c l.2.card else depsOf l.2.dws)
    let queued := if e.2.enable then (s.queuedOf c scanBound e.2).1.map fun x => (x.2, s.cardDeps c x.1) else []
    (begun ++ queued).zipIdx.map fun x => { queue := e.1, seq := x.1.1, pos := x.2, prio := e.2.prio, deps := x.1.2 }

/-- m depends on n, or on a launch after n in n's queue. -/
def Known.lifts (ns : List Known) (n m : Known) : Bool :=
  ns.any fun k => k.queue == n.queue && Nat.ble n.pos k.pos && m.deps.contains (k.queue, k.seq)

/-- One round of the tracker: each launch's priority raised by those that it is lifted by (R402). -/
def lift (ns : List Known) (vs : List Nat) : List Nat :=
  (ns.zip vs).map fun x => ((ns.zip vs).filter fun y => Known.lifts ns x.1 y.1).foldl (fun p y => Nat.max p y.2) x.2

/-- The key of a launch among the raised priorities of its context. -/
def raisedKey (queue seq : Nat) : Nat := 2 ^ 32 * queue + seq

/-- The effective priorities of a context's launches (R402): their queues', or the raised ones that they keep. -/
def State.priorities (s : State) (c : Nat) : List (Known × Nat) :=
  (s.known c).map fun n => (n, Nat.max n.prio (Table.getD (s.ctx c).raised (raisedKey n.queue n.seq) 0))

/-- The tracker recomputes a context's priorities, as an entry is posted or a launch ends (R402): the rounds end at a fixed
point, and a launch keeps a raised priority until it ends. -/
def State.track (s : State) (c : Nat) : State :=
  let ps := s.priorities c
  let ns := ps.map Prod.fst
  let vs := (List.range ns.length).foldl (fun vs _ => lift ns vs) (ps.map Prod.snd)
  s.putCtx c { s.ctx c with raised := (ns.zip vs).foldl (fun (t : Table Nat) x =>
    let key := raisedKey x.1.queue x.1.seq
    let v := if Nat.blt x.1.prio x.2 then x.2 else Table.getD (s.ctx c).raised key 0
    if v == 0 then t else Table.put t key v) [] }

/-- The effective priority of a launch, the largest of those of its number. -/
def effective (ps : List (Known × Nat)) (queue seq : Nat) : Nat :=
  (ps.filter fun p => p.1.queue == queue && p.1.seq == seq).foldl (fun m p => Nat.max m p.2) 0

/-- The newest launch of a queue and sequence number of a context. -/
def State.launchNamed (s : State) (c queue seq : Nat) : Option Launch :=
  (s.launches.reverse.find? fun l => l.2.ctx == c && l.2.queue == queue && l.2.seq == seq).map Prod.snd

/-- A dependence that no waiting can meet (R399): the queue is not enabled, or the launch's own at a SEQ not before. -/
def State.depInvalid (s : State) (c queue seq : Nat) (d : Nat × Nat) : Bool :=
  !(s.queue c d.1).enable ||
    (d.1 == queue && !(Nat.blt 0 ((seq + 2 ^ 32 - d.2) % 2 ^ 32) && Nat.blt ((seq + 2 ^ 32 - d.2) % 2 ^ 32) (2 ^ 31)))

/-- A dependence is met (R400): the launch that it names has ended. -/
def State.depMet (s : State) (c queue seq : Nat) (d : Nat × Nat) : Bool :=
  s.depInvalid c queue seq d || match s.launchNamed c d.1 d.2 with
    | some l => l.ended
    | none => false

/-! ### QTAKE (R400, R408) -/

/-- A LAUNCH entry that QTAKE finds at the head of a queue. -/
structure Candidate where
  ctx : Nat
  queue : Nat
  back : Queue
  after : Queue
  card : Word
  seq : Nat
  prio : Nat
  deriving DecidableEq, Repr

/-- Queues that QTAKE considers (R400). -/
def State.considered (s : State) : List (Nat × Nat) :=
  (s.ctxs.filter fun x => x.2.alive && (s.part x.2.part).live == x.1).flatMap fun x =>
    (x.2.queues.filter fun q => q.2.enable && !q.2.halted &&
      !(s.launches.any fun l => l.2.ctx == x.1 && l.2.queue == q.1 && l.2.state == .taken)).map fun q => (x.1, q.1)

/-- The reading of a candidate's card for its dependences waits for a translation miss, and the candidate with it; one that the
supervisor cannot serve, or that fails otherwise, is left to LAUNCH, which meets it (R399, R400; log 104). -/
def State.cardMiss (s : State) (x : Candidate) : Option State :=
  match s.deviceRead x.ctx [0] 16 x.card with
  | .error (16, a) =>
    let w := Waiter.card x.ctx x.queue x.seq
    if x.back.unserved == some x.seq then none
    else some (if s.misses.any fun m => m.2.waiters.contains w then s else (s.deviceMiss x.ctx a w false).1)
  | _ => none

/-- Passes over NOP and INDIRECT entries of the considered queues; one whose entry cannot be taken halts (R397, R398). -/
def State.passEntries (s : State) : State × List Candidate :=
  s.considered.foldl (fun (a : State × List Candidate) x =>
    let q := a.1.queue x.1 x.2
    match a.1.scan x.1 scanBound q with
    | .empty q' => (a.1.putQueue x.1 x.2 q', a.2)
    | .launch b after card seq =>
      let found : Candidate := { ctx := x.1, queue := x.2, back := b, after := after, card := card, seq := seq, prio := 0 }
      let s1 := a.1.putQueue x.1 x.2 b
      match s1.cardMiss found with
      | some s2 => (s2, a.2)
      | none => (s1, a.2 ++ [found])
    | .failed b c seq at_ =>
      (((a.1.putQueue x.1 x.2 { b with halted := true }).deviceBad x.1 c at_).launchEvent x.1 x.2 c seq, a.2)) (s, [])

/-- A candidate is eligible (R400). -/
def State.eligible (s : State) (x : Candidate) : Bool :=
  (s.cardDeps x.ctx x.card).all (fun d => s.depMet x.ctx x.queue x.seq d) &&
    (!x.back.serial ||
      (s.launches.reverse.find? fun l => l.2.ctx == x.ctx && l.2.queue == x.queue).all fun l => l.2.ended)

/-- a is taken before b (R400): of higher priority, else from the queue taken from least recently, else of the lower
context and queue. -/
def Candidate.before (a b : Candidate) : Bool :=
  if a.prio != b.prio then Nat.blt b.prio a.prio
  else if a.back.takenAt != b.back.takenAt then Nat.blt a.back.takenAt b.back.takenAt
  else if a.ctx != b.ctx then Nat.blt a.ctx b.ctx else Nat.blt a.queue b.queue

/-- The candidate that is taken. -/
def bestOf : List Candidate → Option Candidate
  | [] => none
  | x :: xs => some (xs.foldl (fun b y => if y.before b then y else b) x)

/-- A launch's ticket (R408). -/
def Launch.ticket (l : Launch) : Word :=
  BitVec.ofNat 64 (l.queue + 2 ^ 6 * l.ctx + 2 ^ 16 * (l.term % 2 ^ 16) + 2 ^ 32 * l.seq)

/-- Takes an entry (R400). -/
def State.take (s : State) (x : Candidate) : State × Launch :=
  let l : Launch := { ctx := x.ctx, queue := x.queue, seq := x.seq, term := s.lease.term, card := x.card.toNat, state := .taken
                      order := s.serial, back := x.back }
  ({ s with launches := Table.put s.launches s.serial l, serial := s.serial + 1 }.putQueue x.ctx x.queue
    { x.after with takenAt := s.serial, unserved := none }, l)

/-- QTAKE by the holder (R400): the state and the ticket and card taken. -/
def State.qtake (s : State) : State × Option Launch :=
  let r := s.passEntries
  let ranked := (r.2.filter fun x => r.1.eligible x).map fun x =>
    { x with prio := effective (r.1.priorities x.ctx) x.queue x.seq }
  match bestOf ranked with
  | some x => ((r.1.take x).1, some (r.1.take x).2)
  | none => (r.1, none)

/-- QTAKE (R400, R408, R438). -/
def execQtake (f : FmtE) (s : State) : Host.Outcome State Fault Refusal :=
  run (.qtake f) s fun k _ =>
    let r := if s.holds (dieOf k) && s.update.state != 2 then s.qtake else (s, none)
    let v : Word × Word := match r.2 with
      | some l => (l.ticket, BitVec.ofNat 64 l.card)
      | none => (0, 0)
    .done (r.1.modTeam k fun u => (u.setS f.p v.1).setS (f.p + 1) v.2)

/-! ### Job cards (R399) and what a block needs (R21, R128, R258) -/

/-- The job card as it was read. -/
abbrev Card := List Word

def Card.dw (x : Card) (i : Nat) : Word := x.getD i 0
def Card.recsize (x : Card) : Nat := bitsOf (x.dw 3) 0 16
def Card.minchunk (x : Card) : Nat := Nat.max 1 (bitsOf (x.dw 3) 48 16)
def Card.width (x : Card) : Nat := bitsOf (x.dw 4) 0 11
def Card.vregs (x : Card) : Nat := bitsOf (x.dw 4) 11 9
def Card.preds (x : Card) : Nat := bitsOf (x.dw 4) 20 8
def Card.teams (x : Card) : Nat := bitsOf (x.dw 4) 28 6 + 1
def Card.acc (x : Card) : Nat := bitsOf (x.dw 4) 34 10
def Card.scratch (x : Card) : Nat := bitsOf (x.dw 5) 0 21
def Card.loader (x : Card) : Bool := x.dw 12 != 0
def Card.storer (x : Card) : Bool := x.dw 13 != 0
/-- The card describes a pipeline group. -/
def Card.group (x : Card) : Bool := x.loader || x.storer
/-- Producer and consumer role of a pipe. -/
def Card.pipe (x : Card) (n : Nat) : Nat × Nat := (bitsOf (x.dw 14) (8 * n) 2, bitsOf (x.dw 14) (8 * n + 2) 2)
/-- Pipes that are bound. -/
def Card.bound (x : Card) : List Nat := (List.range 4).filter fun n => x.pipe n != (0, 0)

/-- A number lies in a range and is a multiple of a step. -/
def inStep (lo hi step n : Nat) : Bool := Nat.ble lo n && Nat.ble n hi && n % step == 0

/-- A dependence doubleword is well formed (R399). -/
def depOk (w : Word) : Bool := bitsOf w 7 25 == 0 && (w.getLsbD 6 || w == 0)

/-- A pipe's binding is well formed (R399): both ends bound to two roles that the card has, or neither. -/
def Card.pipeOk (x : Card) (n : Nat) : Bool :=
  let p := x.pipe n
  let has := fun r => match r with
    | 1 => x.loader
    | 3 => x.storer
    | _ => true
  bitsOf (x.dw 14) (8 * n + 4) 4 == 0 &&
    (p == (0, 0) || (p.1 != 0 && p.2 != 0 && p.1 != p.2 && has p.1 && has p.2))

/-- The card is well formed (R399), and the argument array that the launch uses is aligned as a card's is (log 105). -/
def Card.ok (x : Card) (argbase : Word) : Bool :=
  bitsOf (x.dw 0) 0 8 == 1 && bitsOf (x.dw 0) 9 55 == 0 && (x.dw 1).toNat % 12 == 0 && (x.dw 2).toNat % 8 == 0 && argbase.toNat % 8 == 0 &&
  inStep 8 4096 8 x.recsize && inStep 32 1024 32 x.width && inStep 32 256 8 x.vregs && inStep 8 128 8 x.preds &&
  Nat.ble x.acc 512 && bitsOf (x.dw 4) 44 20 == 0 && inStep 0 1048576 256 x.scratch && bitsOf (x.dw 5) 21 43 == 0 &&
  ((x.dw 8 :: x.dw 9 :: x.dw 10 :: [x.dw 11]).all depOk) && (!x.group || x.teams == 1) && (List.range 4).all (fun n => x.pipeOk n) && bitsOf (x.dw 14) 32 32 == 0 &&
  (x.dw 15).toNat % 64 == 0

/-- What a block or group needs, or a core has in use: teams, loader teams among them, lanes, slices, scratchpad bytes,
accumulator rows. -/
structure Needs where
  teams : Nat := 0
  loaders : Nat := 0
  lanes : Nat := 0
  slices : Nat := 0
  scratch : Nat := 0
  acc : Nat := 0
  deriving DecidableEq, Repr

/-- What one block or group of a card needs (R21, R128, R258, R265, R404). -/
def Card.needs (x : Card) : Needs :=
  let one := x.vregs * (x.width / 32)
  if x.group then
    let l := if x.loader then 1 else 0
    let st := if x.storer then 1 else 0
    { teams := 1 + l + st, loaders := l, lanes := x.width * (1 + st), slices := one * (1 + st)
      scratch := x.scratch * (1 + l + st) + 4096 * x.bound.length, acc := x.acc }
  else { teams := x.teams, lanes := x.teams * x.width, slices := x.teams * one, scratch := x.scratch, acc := x.acc }

/-- Needs on top of what is in use fit a core with a spill capacity (R21, R128, R130, R266). -/
def Needs.fit (a b : Needs) (spill : Nat) : Bool :=
  Nat.ble (a.teams + b.teams) 64 && Nat.ble (a.loaders + b.loaders) 4 && Nat.ble (a.lanes + b.lanes) 4096 && Nat.ble (a.slices + b.slices) (4032 + spill) &&
    Nat.ble (a.scratch + b.scratch) 1048576 && Nat.ble (a.acc + b.acc) 512

/-- A stand-alone block, or the block of a role of a group, still has a team (R404). -/
def State.blockHas (s : State) (b part : Nat) : Bool :=
  s.teams.any fun t => isCoreKey t.1 && t.2.block == b && t.2.role.part == part

/-- A block still has a team, or an operation that uses it (R252). -/
def State.blockBusy (s : State) (b : Nat) : Bool :=
  s.teams.any (fun t => isCoreKey t.1 && t.2.block == b) || s.ops.any fun o => o.2.block == b && o.2.cls != 4

/-- Removes the blocks whose last team has retired and whose operations are complete (R252, R258). -/
def State.sweep (s : State) : State := { s with blocks := Table.keep s.blocks fun b _ => s.blockBusy b }

/-- What the blocks and teams of a core use: a block's share is free once its last team has retired, the rings of a group once
its last member has (R258, R277). -/
def State.used (s : State) (core : Nat) : Needs :=
  let ts := s.teams.filter fun t => isCoreKey t.1 && coreOf t.1 == core
  let bs := s.blocks.filter fun b => b.2.core == core
  let parts := fun (b : Nat × Block) => (Table.keys b.2.scratch).filter fun p => s.blockHas b.1 p
  { teams := ts.length, loaders := (ts.filter fun t => t.2.role == .loader).length
    lanes := ts.foldl (fun n t => n + (if t.2.role == .loader then 0 else t.2.width)) 0, slices := s.slicesDeclared core
    scratch := bs.foldl (fun n b => n + b.2.scratchSize * (parts b).length +
      (if (parts b).isEmpty then 0 else 4096 * b.2.pipes.length)) 0
    acc := bs.foldl (fun n b => n + (if s.blockHas b.1 0 then b.2.accRows else 0)) 0 }

/-- A team index of a core is free: no team is there, and no block that still has a team keeps it (R429). -/
def State.indexFree (s : State) (core i : Nat) : Bool :=
  (s.team? (64 * core + i)).isNone &&
    !(s.blocks.any fun b => b.2.core == core && Nat.ble b.2.first i && Nat.blt i (b.2.first + b.2.count) &&
      s.teams.any fun t => isCoreKey t.1 && t.2.block == b.1)

/-- The team indexes that a block would get: the lowest run of consecutive free ones, or the lowest free ones for the
roles of a group (R404, R429). -/
def State.places (s : State) (core n : Nat) (run : Bool) : Option (List Nat) :=
  if run then
    ((List.range (65 - n)).find? fun i => (List.range n).all fun j => s.indexFree core (i + j)).map fun i =>
      (List.range n).map fun j => i + j
  else
    let free := (List.range 64).filter fun i => s.indexFree core i
    if Nat.ble n free.length then some (free.take n) else none

/-- A core has room for one more block of a card (R21, R128, R403, R429). -/
def State.room (s : State) (core : Nat) (x : Card) : Bool :=
  let a := s.sweep
  (a.used core).fit x.needs (16 * (a.core core).spillres) && (a.places core x.needs.teams (!x.group)).isSome

/-! ### Launches (R401, R405) -/

/-- A translation miss of the reading of a card is waited for; another failure fails the launch (R399). -/
def State.cardStop (s : State) (id : Nat) (l : Launch) (c : Nat) (a : Word) : State :=
  if c == 16 then
    let r := s.deviceMiss l.ctx a (.launch id) false
    { r.1 with launches := Table.put r.1.launches id { l with miss := some r.2 } }
  else (s.deviceBad l.ctx c a).failLaunch id c

/-- The same of an argument record that a core's block waits for (R404). -/
def State.recordStop (s : State) (id core : Nat) (l : Launch) (c : Nat) (a : Word) : State :=
  if c == 16 then
    let r := s.deviceMiss l.ctx a (.record id core) false
    { r.1 with launches := Table.put r.1.launches id { l with waiting := l.waiting ++ [core] } }
  else (s.deviceBad l.ctx c a).failLaunch id c

/-- The miss that a core's record waited for is over; one that the supervisor could not serve fails the launch (R404). -/
def State.recordServed (s : State) (id core : Nat) (fail : Bool) : State :=
  let s1 := { s with launches := Table.adjust s.launches id fun l => { l with waiting := l.waiting.filter fun c => c != core } }
  if fail then s1.failLaunch id 16 else s1

/-- The quad caches of a partition hold nothing any more (ICINV, R399). -/
def State.emptyQuads (s : State) (p : Nat) : State :=
  { s with quads := Table.mapVals s.quads fun _ q =>
      if q.part == p then { q with icache := [] } else q }

/-- A launch enters DEALING: card checks, then the resource check unless there is no record (R399, R401). -/
def State.enterDealing (s : State) (id : Nat) (l : Launch) : State :=
  let x : Card := l.dws
  let deps := depsOf l.dws
  let put := fun (y : Launch) => { s with launches := Table.put s.launches id y }
  if !x.ok l.argbase then (put l).failLaunch id 97
  else if deps.any fun d => s.depInvalid l.ctx l.queue l.seq d || (match s.launchNamed l.ctx d.1 d.2 with
      | some m => m.state == .failed
      | none => false) then (put l).failLaunch id 101
  else if l.reccount == 0 then put { l with state := .draining }
  else
    let p := (s.ctx l.ctx).part
    if !((s.coresOf p).any fun c =>
        ({} : Needs).fit x.needs (16 * (s.core c).spillres)) then
      (put l).failLaunch id 98
    else
      let s1 := put { l with state := .dealing }
      if (x.dw 0).getLsbD 8 then s1.emptyQuads p else s1

/-- Reads a launch's card, at its LAUNCH or after its prologue (R399): then the prologue is waited for, or dealing begins. -/
def State.readCard (s : State) (id : Nat) : State :=
  match Table.find? s.launches id with
  | none => s
  | some l =>
    if !l.reading || l.miss.isSome then s else
    match s.deviceRead l.ctx [0] 16 (BitVec.ofNat 64 l.card) with
    | .error (c, a) => s.cardStop id l c a
    | .ok ws =>
      let x : Card := ws
      let l' := { l with reading := false, dws := ws }
      match l.pro with
      | some (base, n) =>
        s.enterDealing id { l' with argbase := if base == 0 then x.dw 2 else base, reccount := n }
      | none =>
        if x.dw 7 != 0 then { s with launches := Table.put s.launches id { l' with state := .prologue } }
        else s.enterDealing id { l' with argbase := x.dw 2, reccount := bitsOf (x.dw 3) 16 32 }

/-- LAUNCH (R401, R408): starts the launch of a ticket. -/
def execLaunch (f : FmtE) (s : State) : Host.Outcome State Fault Refusal :=
  run (.launch f) s fun k t =>
    let answer := fun (a : State) (v : Word) => Did.done (a.modTeam k fun u => u.setS f.p v)
    match Table.first? s.launches fun _ l => l.state == .taken && l.ticket == t.s f.q with
    | none => answer s 0
    | some (id, l) =>
      let s1 := { s with
        launches := Table.put s.launches id { l with state := .prologue, reading := true, order := s.serial }
        serial := s.serial + 1 }
      answer (s1.readCard id) 1

/-- The prologue thread without work. -/
def Team.free (t : Team) : Team := Team.thread t.uid .prologue 0 .idle

/-- LAUNCH.pro (R399, R405): the prologue ends, and its launch enters DEALING with the values given. -/
def execLaunchPro (f : FmtE) (s : State) : Host.Outcome State Fault Refusal :=
  run (.launchPro f) s fun k t =>
    let s1 := { s with launches := Table.adjust s.launches t.launch fun l =>
      { l with reading := true, die := none, pro := some (t.s f.p, bitsOf (t.s f.q) 0 32) } }
    .quit ((s1.putTeam k t.free).readCard t.launch)

/-- LCANCEL (R401, R405). -/
def execLcancel (f : FmtE) (s : State) : Host.Outcome State Fault Refusal :=
  run (.lcancel f) s fun k t =>
    .quit ({ s with launches := Table.adjust s.launches t.launch fun l =>
      { l with state := .draining, cancel := true, die := none } }.putTeam k t.free)

/-- LCANCEL.again (R401, R405): the prologue runs again once a number of FCLK have passed. -/
def execLcancelAgain (f : FmtE) (s : State) : Host.Outcome State Fault Refusal :=
  run (.lcancelAgain f) s fun k t =>
    .quit ({ s with launches := Table.adjust s.launches t.launch fun l =>
      { l with die := none, runs := l.runs + 1, again := some (s.fclk + (t.s f.q).toNat) } }.putTeam k t.free)

/-- A launch waits for a prologue thread (R405). -/
def Launch.waits (l : Launch) : Bool := l.state == .prologue && !l.reading && l.die.isNone && l.again.isNone

/-- The first waiting launch in the order of its LAUNCH (R405). -/
def State.firstWaiting (s : State) : Option (Nat × Launch) :=
  (s.launches.filter fun l => l.2.waits).foldl (fun (b : Option (Nat × Launch)) x => match b with
    | none => some x
    | some y => if Nat.blt x.2.order y.2.order then some x else b) none

/-- PROLOGUE_START (R405): the first waiting launch's prologue runs on an idle prologue thread of a die. -/
def execPrologueStart (s : State) : Host.Outcome State Fault Refusal :=
  match s.detail with
  | .place die _ =>
    match s.team? (proKey die), s.firstWaiting with
    | some t, some (id, l) =>
      if t.role != .prologue || t.wait != .idle then .next s else
      let x : Card := l.dws
      let u := { Team.thread t.uid .prologue 0 .ready with
        ctx := l.ctx, part := (s.ctx l.ctx).part, launch := id, pc := x.dw 7 &&& ~~~3
        sr := [(1, BitVec.ofNat 64 l.card), (2, l.ticket), (3, BitVec.ofNat 64 l.runs)] }
      .next ({ s with launches := Table.put s.launches id { l with die := some die } }.putTeam (proKey die) u)
    | _, _ => .next s
  | _ => .next s

/-- PROLOGUE_REPEAT (R405): the delay of LCANCEL.again has passed; the launch waits for a prologue thread again, at its place
in the order of the LAUNCHes. -/
def execPrologueRepeat (s : State) : Host.Outcome State Fault Refusal :=
  match s.detail with
  | .place id _ =>
    match Table.find? s.launches id with
    | some l =>
      match l.again with
      | some n =>
        if Nat.blt s.fclk n || l.state != .prologue then .next s else
        .next { s with launches := Table.put s.launches id { l with again := none } }
      | none => .next s
    | none => .next s
  | _ => .next s

/-! ### Wakes of gated cores (R426, R427) -/

/-- Counts one of: 0 update committed, 1 rollback, 2 gating entry, 3 aborted gating entry (R427). -/
def State.tally (s : State) (i : Nat) : State :=
  { s with health := { s.health with tally := s.health.tally.set i (s.health.tally.getD i 0 + 1) } }

/-- A wake reaches a core: it ends an entry that has begun, and is held by a core that is gated (R426). -/
def State.wakeCore (s : State) (c : Nat) : State :=
  match (s.core c).power with
  | .running => s
  | .request => (s.putCore c { s.core c with power := .running }).tally 3
  | .gated => s.putCore c { s.core c with wakeHeld := true }

/-! ### Dealing and placement (R403, R404) -/

/-- A partition runs and is not being halted. -/
def State.partRuns (s : State) (p : Nat) : Bool :=
  !(s.part p).stopped && !(s.part p).swapping && (s.part p).phase == 0

/-- The launch that a core takes its next chunk from (R402, R403): the DEALING launch of its partition's live context of
highest effective priority, ties to the one taken first. -/
def State.dealer (s : State) (core : Nat) : Option (Nat × Launch) :=
  let c := (s.part (s.partOf core)).live
  let ps := s.priorities c
  let ls := s.launches.filter fun l => l.2.ctx == c && c != 0 && l.2.state == .dealing && Nat.blt l.2.next l.2.reccount
  ls.foldl (fun (b : Option (Nat × Launch)) x => match b with
    | none => some x
    | some y => if Nat.blt (effective ps y.2.queue y.2.seq) (effective ps x.2.queue x.2.seq) then some x else b) none

/-- Records of a chunk: r undealt, C cores (R403). -/
def chunkSize (r minchunk cores : Nat) : Nat := Nat.min r (Nat.max minchunk (r / (2 * cores)))

/-- Writes back and drops a core's lines of a context but those marked read-only, as an acquire at PKG does (R208, R220). -/
def State.coreAcquire (s : State) (core c : Nat) : State :=
  ((s.clean core c fun _ => true).land fun f => f.core == core && f.ctx == c).drop core c fun l => !l.ro

/-- CHUNK_REQUEST (R403, R426): a core with room and without undealt records takes a chunk; a gated core is woken. -/
def execChunkRequest (s : State) : Host.Outcome State Fault Refusal :=
  match s.detail with
  | .place core _ =>
    let p := s.partOf core
    let x := s.core core
    if p == 0 || !s.partRuns p || x.chunk.isSome then .next s else
    match s.dealer core with
    | none => .next s
    | some (id, l) =>
      if !s.room core l.dws then .next s
      else if x.power == .gated then .next (s.wakeCore core)
      else
        let r := l.reccount - l.next
        let n := chunkSize r (Card.minchunk l.dws) (s.coresOf p).length
        let s1 := { s with launches := Table.put s.launches id { l with
          next := l.next + n, state := if n == r then .draining else .dealing } }
        let s2 := s1.wakeCore core
        .next ((s2.putCore core { s2.core core with chunk := some (id, l.next, n) }).coreAcquire core l.ctx)
  | _ => .next s

/-- A team of a block at placement (R404, R121, R278, R434); the PC is a multiple of 4 (R32; log 105). -/
def State.placed (s : State) (core : Nat) (id : Nat) (l : Launch) (i : Nat) (ws : List Word) (role : Role) (block index
    leader pos : Nat) : Team :=
  let x : Card := l.dws
  let loader := role == .loader
  let w := if loader then 32 else x.width
  { uid := s.serial, ctx := l.ctx, part := (s.ctx l.ctx).part, launch := id, record := i, pos := pos, block := block
    leader := leader, role := role, level := 0, width := w, vdecl := x.vregs, pdecl := x.preds
    pc := match role with
      | .loader => x.dw 12 &&& ~~~3
      | .storer => x.dw 13 &&& ~~~3
      | _ => x.dw 1
    live := fullMask w, active := fullMask w
    sr := [(1, l.argbase + BitVec.ofNat 64 (i * x.recsize)), (2, BitVec.ofNat 64 i), (3, BitVec.ofNat 64 pos),
      (4, ws.getD 0 0), (5, ws.getD 1 0), (6, ws.getD 2 0), (7, ws.getD 3 0)]
    x := List.replicate 8 (BitVec.ofNat 16 (256 * (x.vregs % 256)))
    dsbase := Table.getD (s.ctx l.ctx).dspool core 0 + BitVec.ofNat 64 (index * 139264)
    trap := { entry := x.dw 6 &&& ~~~3 }
    window := (0, if role == .loader || role == .storer then 0 else x.acc)
    pself := (s.ctx l.ctx).psdef, stamp := s.clock }

/-- The key of the team that a pipe's role code names. -/
def roleKey (core : Nat) (at_ : List (Role × Nat)) (code : Nat) : Nat :=
  let want : Role := match code with
    | 1 => .loader
    | 3 => .storer
    | _ => .computer
  match at_.find? fun r => r.1 == want with
  | some r => 64 * core + r.2
  | none => 64 * core

/-- Places the block or group of a record whose argument record has been read (R258, R277, R404, R429). -/
def State.placeBlock (s : State) (core id : Nat) (l : Launch) (i : Nat) (ws : List Word) (at_ : List Nat) : State :=
  let x : Card := l.dws
  let roles : List Role := if x.group then
      [.computer] ++ (if x.loader then [.loader] else []) ++ (if x.storer then [.storer] else [])
    else at_.map fun _ => .alone
  let where_ := roles.zip at_
  let b := s.serial
  let block : Block :=
    { core := core, ctx := l.ctx, launch := id, record := i, scratchSize := x.scratch, accRows := x.acc
      first := at_.headD 0, count := if x.group then 0 else at_.length
      scratch := roles.eraseDups.foldl (fun (t : Table (Table Byte)) r => Table.put t r.part []) []
      pipes := x.bound.foldl (fun (t : Table Pipe) n =>
        Table.put t n { producer := roleKey core where_ (x.pipe n).1, consumer := roleKey core where_ (x.pipe n).2 }) [] }
  let s1 := { s with blocks := Table.put s.blocks b block, serial := s.serial + 1 }
  let s2 := where_.zipIdx.foldl (fun (a : State) e =>
    let t := a.placed core id l i ws e.1.1 b e.1.2 (if x.group then e.1.2 else at_.headD 0) (if x.group then 0 else e.2)
    { a with teams := Table.put a.teams (64 * core + e.1.2) t, serial := a.serial + 1 }) s1
  { s2 with launches := Table.adjust s2.launches id fun y => { y with blocks := y.blocks ++ [b] } }

/-- BLOCK_PLACEMENT (R404): the next record of a core's chunk becomes a block, once it fits and its record is read; a launch that
has failed deals no more of them. -/
def execBlockPlacement (s : State) : Host.Outcome State Fault Refusal :=
  match s.detail with
  | .place core _ =>
    match (s.core core).chunk with
    | some (id, first, n) =>
      match Table.find? s.launches id with
      | some l =>
        let x : Card := l.dws
        if l.cause != 0 then .next (s.putCore core { s.core core with chunk := none })
        else if n == 0 || l.waiting.contains core || !s.partRuns (s.partOf core) || (s.core core).power != .running || !s.room core x then
          .next s
        else
          let s1 := s.sweep
          match s1.places core x.needs.teams (!x.group) with
          | none => .next s
          | some at_ =>
            match s1.deviceRead l.ctx [0, 1, 4] (x.recsize / 8) (l.argbase + BitVec.ofNat 64 (first * x.recsize)) with
            | .error (c, a) => .next (s1.recordStop id core l c a)
            | .ok ws =>
              let s2 := s1.placeBlock core id l first ws at_
              .next (s2.putCore core { s2.core core with
                chunk := if n == 1 then none else some (id, first + 1, n - 1) })
      | none => .next s
    | none => .next s
  | _ => .next s

/-! ### The end of a launch (R220, R299, R401) -/

/-- Some team of a launch is resident or in a cellar. -/
def State.launchTeams (s : State) (id : Nat) : Bool :=
  s.teams.any (fun t => isCoreKey t.1 && t.2.launch == id) || s.cellars.any fun x => x.2.teams.any fun t => t.2.launch == id

/-- Every record of a launch is dealt and placed, every team retired, every operation complete (R252, R401). -/
def State.launchOver (s : State) (id : Nat) (l : Launch) : Bool :=
  l.state == .draining && l.miss.isNone && !s.launchTeams id && !(s.ops.any fun o => o.2.launch == id && o.2.cls != 4) &&
    !(s.cores.any fun x => match x.2.chunk with
      | some (n, _, _) => n == id
      | none => false) &&
    !(s.cellars.any fun x => x.2.cores.any fun y => match y.2.chunk with
      | some (n, _, _) => n == id
      | none => false)

/-- The kernel boundary of a context (R220, R299): its lines are written back and dropped on every core, its load-like
reuse entries cleared, and its QUIET names removed. -/
def State.boundary (s : State) (c : Nat) : State :=
  let cores := Table.keys s.cores
  let s1 := cores.foldl (fun (a : State) n => (a.clean n c fun _ => true).drop n c fun _ => true) s
  let s2 := s1.land fun f => f.ctx == c
  let s3 := { s2 with cores := Table.mapVals s2.cores fun _ x => { x with
    reuse := x.reuse.filter fun e => !(e.load && e.ctx == c) } }
  s3.putCtx c { s3.ctx c with dir := (s3.ctx c).dir.filter fun e => !e.quiet }

/-- The completion record (R401). -/
def Launch.record (l : Launch) : List Byte :=
  let st := if l.cause != 0 then 3 else if l.cancel then 2 else 1
  let f : Nat × Word := l.firstFail.getD (0, 0)
  toBytes 8 (st + 2 ^ 8 * l.cause + 2 ^ 32 * l.seq) ++ toBytes 8 l.next ++ toBytes 8 l.unrep ++
    toBytes 8 f.1 ++ toBytes 8 f.2.toNat ++ toBytes 24 0

/-- Ends a launch, in the order of R401; a completion record that cannot be written is left out, with its event. -/
def State.endLaunch (s : State) (id : Nat) (l : Launch) (at_ : Except Nat (Option Nat)) : State :=
  let s1 := if l.cause == 0 then s.boundary l.ctx else s
  let halt := fun (a : State) (c : Nat) =>
    (a.putQueue l.ctx l.queue { a.queue l.ctx l.queue with halted := true }).launchEvent l.ctx l.queue c l.seq
  let s2 := match at_ with
    | .ok (some pa) => s1.homeWriteRun pa l.record (some 0)
    | .ok none => s1
    | .error c => halt s1 c
  let s3 := if l.cause == 0 then s2 else halt s2 l.cause
  { s3 with launches := Table.put s3.launches id { l with
      state := if l.cause != 0 then .failed else if l.cancel then .cancelled else .done } }.sweep.track l.ctx

/-- The miss that the reading of a launch's card, or the writing of its completion record, waited for is over; one that the
supervisor could not serve fails the reading, or leaves the record out (R384, R399, R401). -/
def State.launchServed (s : State) (id : Nat) (fail : Bool) : State :=
  match Table.find? s.launches id with
  | none => s
  | some l =>
    let s1 := { s with launches := Table.put s.launches id { l with miss := none } }
    if !fail then s1.readCard id
    else if l.reading then s1.failLaunch id 16
    else s1.endLaunch id { l with miss := none } (.error 16)

/-- LAUNCH_END (R401). -/
def execLaunchEnd (s : State) : Host.Outcome State Fault Refusal :=
  match s.detail with
  | .place id _ =>
    match Table.find? s.launches id with
    | some l =>
      if !s.launchOver id l then .next s else
      let a := Card.dw l.dws 15
      if l.dws.isEmpty || a == 0 then .next (s.endLaunch id l (.ok none)) else
      match s.deviceAddr l.ctx a true [0, 4] with
      | .ok pa => .next (s.endLaunch id l (.ok (some pa)))
      | .error 16 =>
        let r := s.deviceMiss l.ctx a (.launch id) true
        .next { r.1 with launches := Table.put r.1.launches id { l with miss := some r.2 } }
      | .error c =>
        .next ((s.deviceBad l.ctx c a).endLaunch id l (.error c))
    | none => .next s
  | _ => .next s

/-! ### Doorbells and queue registers (R397, R411) -/

/-- A write of LQTAIL (R397, R411): the doorbell rings; a queue of device posts ignores it. -/
def State.writeTail (s : State) (c q : Nat) (v : Word) : State :=
  let x := s.queue c q
  if x.devpost || !(Nat.blt v.toNat x.size) then s else ((s.putQueue c q { x with tail := v.toNat }).track c).ring

/-- LQTAIL_DOORBELL (R397). -/
def execLqtailDoorbell (s : State) : Host.Outcome State Fault Refusal :=
  match s.detail with
  | .value c q v => .next (if Nat.blt q 64 then s.writeTail c q v else s)
  | _ => .next s

/-- A write of LQCTL (R411). What stands in a queue that is enabled counts as posted (R402). -/
def State.writeLqctl (s : State) (c q : Nat) (v : Word) : State :=
  let x := s.queue c q
  let s1 := s.putQueue c q { x with
    prio := bitsOf v 0 3, enable := v.getLsbD 3, serial := v.getLsbD 4, devpost := v.getLsbD 5
    halted := x.halted && !v.getLsbD 6 }
  if !x.enable && v.getLsbD 3 then s1.track c else s1

/-- LQCTL_WRITE (R411). -/
def execLqctlWrite (s : State) : Host.Outcome State Fault Refusal :=
  match s.detail with
  | .value c q v => .next (if Nat.blt q 64 then s.writeLqctl c q v else s)
  | _ => .next s

/-- A QPOST that may post: the entry is written and performed, and the tail advances (R409). -/
def State.post1 (s : State) (k : Nat) (t : Team) (f : FmtE) (c q : Nat) : Did :=
  let x := s.queue c q
  if !x.enable || x.halted || (x.tail + 1) % x.size == x.head then .done (s.modTeam k fun u => u.setS f.p 0) else
  let a := x.base + BitVec.ofNat 64 (32 * x.tail)
  match s.deviceAddr c a true [0] with
  | .error e => s.memFault k { t with ctx := c } 0 e a 2
  | .ok pa =>
    let seq := (s.queuedOf c scanBound x).2
    let s1 := s.homeWriteRun pa (toBytes 8 (1 + 2 ^ 32 * seq) ++ toBytes 8 (t.s f.q).toNat ++ toBytes 16 0) (some 0)
    .done ((((s1.putQueue c q { x with tail := (x.tail + 1) % x.size }).track c).modTeam k fun u =>
      u.setS f.p (BitVec.ofNat 64 seq)).ring)

/-- QPOST (R409). -/
def execQpost (f : FmtE) (s : State) : Host.Outcome State Fault Refusal :=
  run (.qpost f) s fun k t =>
    let q := bitsOf (t.s f.w) 0 6
    let c := s.ctxFor k t
    if isCoreKey k && !(s.queue c q).devpost then .trap 2 {} s
    else if bitsOf (t.s f.q) 0 6 != 0 then .trap 4 {} s
    else if isCoreKey k then afterRelease s k t 4 fun s1 => s1.post1 k t f c q
    else s.post1 k t f c q

/-! ### Task queues (R406, R410) -/

/-- The spill ring of a context on a die. -/
def State.ringOf (s : State) (c die : Nat) : SpillRing := Table.getD (s.ctx c).spill die {}

/-- Sets the spill ring of a context on a die. -/
def State.putRing (s : State) (c die : Nat) (x : SpillRing) : State :=
  s.putCtx c { s.ctx c with spill := Table.put (s.ctx c).spill die x }

/-- Where the record at a place of a spill ring stands in memory: TQSPILL is a physical address (R406; log 106). -/
def SpillRing.addr (x : SpillRing) (i : Nat) : Nat := x.base.toNat % 2 ^ 52 + 32 * ((x.head + i) % x.size)

/-- Appends a record to a spill ring, which has room (R406, R410). -/
def State.ringPush (s : State) (c die : Nat) (ws : List Word) : State :=
  let r := s.ringOf c die
  (s.homeWriteRun (r.addr r.count) (ws.flatMap fun w => toBytes 8 w.toNat) (some 0)).putRing c die { r with count := r.count + 1 }

/-- Takes the oldest record of a spill ring (R406, R410). -/
def State.ringTake (s : State) (c die : Nat) : Option (State × List Word) :=
  let r := s.ringOf c die
  if r.count == 0 then none
  else some (s.putRing c die { r with head := (r.head + 1) % r.size, count := r.count - 1 },
    (List.range 4).map fun i => s.dword (r.addr 0 + 8 * i))

/-- The four scalars of a task record. -/
def Team.task (t : Team) (p : BitVec 5) : List Word := [t.s p, t.s (p + 1), t.s (p + 2), t.s (p + 3)]

/-- TSPAWN (R406, R410). -/
def execTspawn (f : FmtE) (s : State) : Host.Outcome State Fault Refusal :=
  run (.tspawn f) s fun k t =>
    let core := coreOf k
    let full := Nat.ble 256 (s.core core).tasks.length
    let r := s.ringOf t.ctx (dieOf k)
    if full && (!(f.f.getLsbD 0) || Nat.ble r.size r.count) then .trap 100 {} s
    else afterRelease s k t 3 fun s1 =>
      if full then .done (s1.ringPush t.ctx (dieOf k) (t.task f.p))
      else .done (s1.putCore core { s1.core core with tasks := (s1.core core).tasks ++ [t.task f.p] })

/-- Of some cores the one with most task records, ties to the lowest; none where all are empty (R410). -/
def State.richest (s : State) (cs : List Nat) : Option Nat :=
  cs.foldl (fun (b : Option Nat) c =>
    let n := (s.core c).tasks.length
    match b with
    | none => if n == 0 then none else some c
    | some d => if Nat.blt (s.core d).tasks.length n then some c else b) none

/-- The record that TSTEAL finds, and the state without it (R410). -/
def State.steal (s : State) (k : Nat) (t : Team) : Option (State × List Word) :=
  let core := coreOf k
  let oldest := fun (c : Nat) => match (s.core c).tasks with
    | r :: rest => some (s.putCore c { s.core c with tasks := rest }, r)
    | [] => none
  match (s.core core).tasks.getLast? with
  | some r => some (s.putCore core { s.core core with tasks := (s.core core).tasks.dropLast }, r)
  | none =>
    let die := (s.coresOf t.part).filter fun c => c / 64 == core / 64
    match s.richest (die.filter fun c => c / 4 == core / 4) with
    | some c => oldest c
    | none =>
      match s.richest die with
      | some c => oldest c
      | none => s.ringTake t.ctx (dieOf k)

/-- TSTEAL (R406, R410). -/
def execTsteal (f : FmtE) (s : State) : Host.Outcome State Fault Refusal :=
  run (.tsteal f) s fun k t =>
    match s.steal k t with
    | none => .done (s.modTeam k fun u => u.setS f.q 0)
    | some (s1, r) =>
      let put := fun (u : Team) => ((((u.setS f.p (r.getD 0 0)).setS (f.p + 1) (r.getD 1 0)).setS (f.p + 2) (r.getD 2 0)).setS
        (f.p + 3) (r.getD 3 0)).setS f.q 1
      .done ((s1.modTeam k put).acquire k t 3)

end Sys2Proof.Machine
end

