-- ==== Sys2Proof/Machine/System.lean ====
section
/-! DEFINITION. Chapter 15: row 0x3C but the special registers, translation service, the event queue, contexts, partitions,
their cellars, and page ownership (R369 to R394). -/

namespace Sys2Proof.Machine

/-! ### Traps (R375, R376) -/

/-- TRAP (R375). -/
def execTrap (f : FmtE) (s : State) : Host.Outcome State Fault Refusal :=
  run (.trap f) s fun _ _ => .trap 5 { code := immOfE f } s

/-- BKPT (R375). -/
def execBkpt (f : FmtE) (s : State) : Host.Outcome State Fault Refusal :=
  run (.bkpt f) s fun _ _ => .trap 6 { code := immOfE f } s

/-- Words of the instruction at an address, as far as it can be seen (R52, R376). -/
def State.wordsAt (s : State) (k : Nat) (t : Team) (a : Word) : Nat :=
  match s.peek k t a with
  | some w => if isLiteralWord w then 2 else 1
  | none => 1

/-- The team back from its handler: at the faulting word and its pass, or past the word (R91, R376). -/
def Team.leaveTrap (t : Team) (next : Option Nat) : Team :=
  let u := { t with trap := { t.trap with inh := false } }
  match next with
  | some n => { u.transfer (t.trap.tpc + BitVec.ofNat 64 (4 * n)) with target := false }
  | none => { u.transfer t.trap.tpc with target := false, resume := t.trap.pass }

/-- RETT (R376). Where it goes to is an indirect target: one that is no multiple of 4 or not canonical raises cause 11, and
RETT has no effect (R33). -/
def execRett (f : FmtE) (s : State) : Host.Outcome State Fault Refusal :=
  run (.rett f) s fun k t =>
    if t.stack.length != t.trap.depth then .trap 7 {} s
    else
      let u := t.leaveTrap (if f.f.getLsbD 0 then some (s.wordsAt k t t.trap.tpc) else none)
      if targetAddrOk u.pc then .quit (((s.putTeam k u).issued k t (.rett f)).endOwnRun k) else .trap 11 {} s

/-! ### Translation service (R384, R385) -/

/-- Runs again an operation that acts before its completion event, once its miss is over (R309, R354). -/
def State.rerunOp (s : State) (id : Nat) : State :=
  match Table.find? s.ops id with
  | none => s
  | some o => match o.work with
    | .newRoot _ _ _ => s.newRootGo id
    | .putsig _ _ _ _ _ _ _ _ _ => s.putsigGo id
    | _ => s

/-- An operation whose miss is over: a QCONT to another package is sent for the first time now (R251, R364). -/
def Op.served (o : Op) (s : State) : Op :=
  match o.work with
  | .contribute _ dst _ _ => if (contributionPlace dst).1 == s.pkgnum then o else o.sentNow s.clock
  | _ => o

/-- Lets go what waited for a miss; where the supervisor could not serve it, with the failure (R384). -/
def State.release1 (s : State) (id : Nat) (fail : Bool) : Waiter → State
  | .team _ uid fetch a => s.modUid uid fun t =>
      if t.wait == .miss id then
        { t with
          wait := .ready, raised := if fail && !fetch then some (16, a) else t.raised
          lost := if fail && fetch then some a else t.lost }
      else t
  | .op n a => { s with ops := Table.adjust s.ops n fun o => { o.served s with
      miss := none, unserved := if fail then some (a.toNat / 65536) else o.unserved } }.rerunOp n
  | .launch n => s.launchServed n fail
  | .record n core => s.recordServed n core fail
  | .card c q seq => if fail then s.putQueue c q { s.queue c q with unserved := some seq } else s

/-- The supervisor's answer to a TMISS event (R384): the walk is made again, or has failed. Where it succeeds, the tracker can
read cards of the context that it could not (R402, log 69). -/
def State.serve (s : State) (v : Word) : State :=
  match Table.first? s.misses fun _ m => m.seq == some (bitsOf v 0 32) with
  | none => s
  | some (id, m) =>
    let gone := { s with misses := Table.del s.misses id }
    if v.getLsbD 32 then m.waiters.foldl (fun (a : State) w => a.release1 id true w) gone
    else if (s.ctx m.ctx).key.isSome && s.walk m.ctx (sig57 m.addr) == .miss then
      { s with misses := Table.put s.misses id { m with seq := none } }.post
        { kind := 1, cause := 16, ctx := m.ctx, addr := m.addr, data := BitVec.ofNat 64 m.kinds, source := m.source
          miss := some id }
    else (m.waiters.foldl (fun (a : State) w => a.release1 id false w) gone).track m.ctx

/-- FQDONE_WRITE (R384, R394): a value written to FQDONE. -/
def execFqdoneWrite (s : State) : Host.Outcome State Fault Refusal :=
  match s.detail with
  | .value _ _ v => .next (s.serve v)
  | _ => .next s

/-! ### Invalidation (R378, R379, R392) -/

/-- A line of 2^n bytes with this number lies, at least in part, in the 1 GiB block of an address: the largest page
that could hold it. -/
def inBlock (size line va : Nat) : Bool :=
  let lo := va / 0x40000000 * 0x40000000
  Nat.blt (size * line) (lo + 0x40000000) && Nat.blt lo (size * line + size)

/-- Writes back the lines of the reserved part of a core's L1 that a test names, and drops them (R72, R131, R378). -/
def State.cleanReserved (s : State) (core : Nat) (sel : Line → Bool) : State :=
  let s1 := ((s.core core).reserved.filter sel).foldl (fun (a : State) l => a.writeBack core l) s
  s1.putCore core { s1.core core with reserved := (s1.core core).reserved.filter fun l => !sel l }

/-- Writes back the dirty bytes of lines of a context on every core, performs them, and drops the lines (R378). -/
def State.flushLines (s : State) (c : Nat) (sel : Line → Bool) : State :=
  let cores := Table.keys s.cores
  let mine := fun (l : Line) => l.ctx == c && sel l
  let pas := cores.flatMap fun n => (((s.core n).lines ++ (s.core n).reserved).filter mine).map fun l => l.pa
  let s1 := cores.foldl (fun (a : State) n => ((a.clean n c sel).drop n c sel).cleanReserved n mine) s
  s1.land fun f => f.ctx == c && pas.contains f.pa

/-- What TLBINV does to a context: to one page, whose size is not known to the caches, or to all (R378). -/
def State.tlbInv (s : State) (c : Nat) (va : Option Nat) : State :=
  if !(s.ctx c).alive then s else
  let s1 := s.flushLines c fun l => match va with
    | some a => inBlock 64 l.va a
    | none => true
  { s1 with
    tlb := Table.mapVals s1.tlb fun _ es => es.filter fun e => !(e.ctx == c && match va with
      | some a => Nat.ble e.base a && Nat.blt a (e.base + e.size)
      | none => true)
    quads := Table.mapVals s1.quads fun _ q => { q with icache := q.icache.filter fun l => !(l.1 == c && match va with
      | some a => inBlock 192 l.2.1 a
      | none => true) }
    cores := Table.mapVals s1.cores fun _ x => { x with reuse := x.reuse.filter fun e => !(e.load && e.ctx == c) } }

/-- TLBINV (R378). -/
def execTlbinv (f : FmtE) (s : State) : Host.Outcome State Fault Refusal :=
  run (.tlbinv f) s fun _ t =>
    .done (s.tlbInv (bitsOf (t.s f.p) 0 8) (if f.f.getLsbD 0 then none else some (sig57 (t.s f.q))))

/-- Some team of the context is resident or in a cellar. -/
def State.hasTeams (s : State) (c : Nat) : Bool :=
  s.teams.any (fun t => t.2.ctx == c && isCoreKey t.1) || s.cellars.any fun x => x.2.teams.any fun t => t.2.ctx == c

/-- Destroys the key slot of a context (R379, R392, R315): with teams, the context is killed. -/
def State.keyKill (s : State) (c : Nat) : State :=
  if s.hasTeams c then s.kill c 121 121 0 (BitVec.ofNat 64 (65536 * (s.ctx c).part)) else
  let s1 := s.land fun f => f.ctx == c
  let s2 := s1.putCtx c { s1.ctx c with key := none, skey := [0, 0, 0, 0], dir := [] }
  { s2 with
    tlb := Table.mapVals s2.tlb fun _ es => es.filter fun e => e.ctx != c
    quads := Table.mapVals s2.quads fun _ q => { q with icache := q.icache.filter fun l => l.1 != c }
    cores := Table.mapVals s2.cores fun _ x => { x with
      lines := x.lines.filter fun l => l.ctx != c, reserved := x.reserved.filter fun l => l.ctx != c, reuse := x.reuse.filter fun e => e.ctx != c } }

/-- KEYKILL (R379). -/
def execKeykill (f : FmtE) (s : State) : Host.Outcome State Fault Refusal :=
  run (.keykill f) s fun _ t => .done (s.keyKill (bitsOf (t.s f.p) 0 8))

/-! ### Contexts (R390, R392, R394) -/

/-- Creates a context as the live context of a stopped partition that has none (R390, R392, R394). -/
def State.create (s : State) (c p : Nat) : State :=
  let x := s.part p
  if c == 0 || p == 0 || (s.ctx c).alive || !x.stopped || x.swapping || x.live != 0 || x.phase != 0 then s else
  { s with serial := s.serial + 1, launches := Table.keep s.launches fun _ l => l.ctx != c }.putPart p { x with live := c }
    |>.putCtx c
    { s.ctx c with alive := true, killed := false, key := some s.serial, part := p }

/-- A write of CTXCTL (R394): 01 create, 10 kill. -/
def State.writeCtxctl (s : State) (c p : Nat) (v : Word) : State :=
  match bitsOf v 0 2 with
  | 1 => s.create c p
  | 2 => s.kill c 120 120 0 (BitVec.ofNat 64 (65536 * (s.ctx c).part))
  | _ => s

/-- CTXCTL_CREATE (R390, R392): a context and a partition. -/
def execCtxctlCreate (s : State) : Host.Outcome State Fault Refusal :=
  match s.detail with
  | .place c p => .next (s.create c p)
  | _ => .next s

/-- CTXCTL_KILL (R388, R389). -/
def execCtxctlKill (s : State) : Host.Outcome State Fault Refusal :=
  match s.detail with
  | .place c _ => .next (s.writeCtxctl c 0 2)
  | _ => .next s

/-- A write of CTXGID (R347): not while the context has a resident team. -/
def State.writeGid (s : State) (c : Nat) (v : Word) : State :=
  let g := bitsOf v 0 32
  if s.teams.any (fun t => t.2.ctx == c && isCoreKey t.1) ||
      (g != 0 && (s.ctx c).live && s.ctxs.any fun x => x.1 != c && x.2.live && x.2.gid == g) then s
  else s.putCtx c { s.ctx c with gid := g }

/-- CTXGID_WRITE (R347). -/
def execCtxgidWrite (s : State) : Host.Outcome State Fault Refusal :=
  match s.detail with
  | .value c _ v => .next (s.writeGid c v)
  | _ => .next s

/-- A write of PGOWN (R393, R394): the new owner of a page of device memory. -/
def State.writePgown (s : State) (v : Word) : State :=
  let page := bitsOf v 0 36
  if bitsOf v 36 12 != 0 || bitsOf v 56 8 != 0 || !(isDevice (65536 * page) || isReserved (65536 * page)) then s else
  { s with
    pgown := page, moved := Table.del s.moved page
    owners := if bitsOf v 48 8 == 0 then Table.del s.owners page else Table.put s.owners page (bitsOf v 48 8) }

/-- PGOWN_WRITE (R393). -/
def execPgownWrite (s : State) : Host.Outcome State Fault Refusal :=
  match s.detail with
  | .value _ _ v => .next (s.writePgown v)
  | _ => .next s

/-- A write of EVQHEAD (R386, R387): events that wait for room are written. -/
def State.writeEvqHead (s : State) (v : Word) : State :=
  if Nat.blt v.toNat s.evq.size then { s with evq := { s.evq with head := v.toNat } }.drainEvents else s

/-- EVQHEAD_WRITE (R387). -/
def execEvqheadWrite (s : State) : Host.Outcome State Fault Refusal :=
  match s.detail with
  | .value _ _ v => .next (s.writeEvqHead v)
  | _ => .next s

/-- MACHINE_CHECK (R388): a unit, and the contexts whose state it held. -/
def execMachineCheck (s : State) : Host.Outcome State Fault Refusal :=
  match s.detail with
  | .numbers (die :: cs) =>
    let s1 := s.post { kind := 4, cause := 112, ctx := 0, addr := 0, data := 0, source := BitVec.ofNat 64 (die % 4) }
    .next (cs.foldl (fun (a : State) c => a.kill c 112 112 0 (BitVec.ofNat 64 (65536 * (a.ctx c).part))) s1)
  | _ => .next s

/-! ### Partitions and cellars (R380, R390, R391) -/

/-- HALT.stop and HALT.swap of a partition (R380): the control core waits until the partition is halted, or exchanged. -/
def State.haltPart (s : State) (k : Nat) (t : Team) (p : Nat) (swap : Bool) : Did :=
  let x := s.part p
  let begun := fun (y : Partition) => Did.park (.halt p) ((s.putPart p y).modTeam k fun u => { u with phase := 1 })
  if t.phase == 1 then .done s
  else if x.phase != 0 then .park (.halt p) s
  else if !x.stopped then begun { x with phase := if swap then 2 else 1, wasRunning := true }
  else if swap then begun { x with phase := 3, swapping := true, wasRunning := false }
  else .done s

/-- The partition that a HALT names, checked (R380). -/
def haltCause (w : Word) : Bool := bitsOf w 4 60 != 0 || bitsOf w 0 4 == 0

/-- HALT.idle (R380): until an event is written or a doorbell rings; the control core's other thread does not issue either. -/
def execHaltIdle (s : State) : Host.Outcome State Fault Refusal :=
  run .haltIdle s fun k t =>
    if t.phase == 1 then .done s else .park .doorbell (s.modTeam k fun u => { u with phase := 1 })

/-- HALT.stop (R380). -/
def execHaltStop (f : FmtE) (s : State) : Host.Outcome State Fault Refusal :=
  run (.haltStop f) s fun k t =>
    if haltCause (t.s f.q) then .trap 4 {} s else s.haltPart k t (bitsOf (t.s f.q) 0 4) false

/-- Wakes of the gated cores of a partition (R426). -/
def State.wakeCores (s : State) (p : Nat) : State := (s.coresOf p).foldl (fun (a : State) c => a.wakeCore c) s

/-- HALT.swap (R380, R391). -/
def execHaltSwap (f : FmtE) (s : State) : Host.Outcome State Fault Refusal :=
  run (.haltSwap f) s fun k t =>
    if haltCause (t.s f.q) then .trap 4 {} s
    else (if t.phase == 1 then s else s.wakeCores (bitsOf (t.s f.q) 0 4)).haltPart k t (bitsOf (t.s f.q) 0 4) true

/-- HALT.go (R380): restarts a stopped partition. -/
def execHaltGo (f : FmtE) (s : State) : Host.Outcome State Fault Refusal :=
  run (.haltGo f) s fun _ t =>
    let p := bitsOf (t.s f.q) 0 4
    if haltCause (t.s f.q) then .trap 4 {} s
    else if (s.part p).phase != 0 then .park (.halt p) s
    else .done ((s.putPart p { s.part p with stopped := false }).wakeCores p)

/-- The team stands at a packet boundary (R40), or is parked, and then its event may come while it sits in the cellar
(R24, R391; log 8). -/
def Team.halted (t : Team) : Bool := !t.inPacket || t.wait.parks

/-- Nothing of a halting partition is left to drain (R27, R391, R315, R325, R357): teams stand at packet boundaries,
no value is on its way to a register, and no operation of the content store or the version records is open. -/
def State.drained (s : State) (c : Nat) : Bool :=
  !(s.teams.any fun t => t.2.ctx == c && isCoreKey t.1 && !t.2.halted) &&
  !(s.pendings.any fun p => s.teams.any fun t => t.2.ctx == c && t.2.uid == p.2.team) &&
  !(s.ops.any fun o => o.2.ctx == c && (o.2.cls == 4 || (o.2.cls == 3 && match o.2.work with
    | .contribute _ _ _ _ => false
    | _ => true)))

/-- Dirty bytes of a context's lines on the cores of a partition are written back and performed (R391 step 2), those of the
reserved parts included (R131). -/
def State.cleanPart (s : State) (c p : Nat) : State :=
  ((s.coresOf p).foldl (fun (a : State) n => (a.clean n c fun _ => true).cleanReserved n fun _ => true) s).land fun f =>
    f.ctx == c || f.ctx == 0

/-- The threads that halt a partition go on. -/
def State.haltOver (s : State) (p : Nat) : State := s.wake fun _ t => t.wait == .halt p

/-- PARTITION_DRAIN_COMPLETE (R27, R391): a halting partition has drained; it is stopped, or its exchange begins. -/
def execPartitionDrainComplete (s : State) : Host.Outcome State Fault Refusal :=
  match s.detail with
  | .place p _ =>
    let c := (s.part p).live
    if !s.drained c then .next s else
    match (s.part p).phase with
    | 1 =>
      let s1 := s.cleanPart c p
      .next ((s1.putPart p { s1.part p with phase := 0, stopped := true }).haltOver p)
    | 2 =>
      let s1 := s.cleanPart c p
      .next (s1.putPart p { s1.part p with phase := 3, swapping := true })
    | _ => .next s
  | _ => .next s

/-- A team that its cellar gives back: what it waits for is looked at again (R27, R391). DESIGN CHOICE: an LDV that had resolved
before, and waits for its lines, keeps the version that it holds (R225, R323, log 116). -/
def Team.restored (t : Team) : Team :=
  match t.wait with
  | .batch _ _ | .close _ _ | .acks _ | .fabric | .engine | .ops _ | .pipe _ | .version _ _ | .step | .line _ => { t with wait := .ready }
  | _ => t

/-- What a core's cellar holds of it. -/
def Core.shadow (x : Core) : CoreShadow :=
  { bars := x.bars, latches := x.latches, tasks := x.tasks, chunk := x.chunk, matrixQueue := x.matrixQueue
    matrixRun := x.matrixRun, slices := x.slices, names := x.names }

/-- A core after the exchange with its cellar; its reuse entries are gone (R131, R391). -/
def Core.exchange (x : Core) (y : CoreShadow) : Core :=
  { x with
    bars := y.bars, latches := y.latches, tasks := y.tasks, chunk := y.chunk, matrixQueue := y.matrixQueue
    matrixRun := y.matrixRun, slices := y.slices, names := y.names, reuse := [], runTeam := none, runCount := 0
    affineTeam := none, affineCount := 0 }

/-- A cellar's part for one core; empty where it holds none. -/
def Cellar.shadow (x : Cellar) (n : Nat) : CoreShadow :=
  Table.getD x.cores n {}

/-- The entries of two tables; the second's stand where both have a key. -/
def Table.join {α : Type} (a b : Table α) : Table α := b.foldl (fun t e => Table.put t e.1 e.2) a

/-- Exchanges a partition with its cellar (R26, R391); the issue runs of its cores end first (R62, R63). -/
def State.exchange (s : State) (p : Nat) : State :=
  let x := s.part p
  let cores := s.coresOf p
  let old := Table.getD s.cellars p {}
  let mine := fun (k : Nat) => isCoreKey k && cores.contains (coreOf k)
  let s := cores.foldl (fun (a : State) n => (a.endRun n false).endRun n true) s
  let s1 := { s with
    teams := Table.join (s.teams.filter fun e => !(mine e.1)) (Table.mapVals old.teams fun _ t => t.restored)
    blocks := Table.join (s.blocks.filter fun b => !(cores.contains b.2.core)) old.blocks
    cellars := Table.put s.cellars p
      { teams := s.teams.filter fun e => mine e.1
        blocks := s.blocks.filter fun b => cores.contains b.2.core
        cores := cores.foldl (fun (t : Table CoreShadow) n => Table.put t n (s.core n).shadow) [] } }
  let s2 := cores.foldl (fun (a : State) n => a.putCore n ((a.core n).exchange (old.shadow n))) s1
  (s2.putPart p { x with
    live := x.cellar, cellar := x.live, stopped := !x.cellarRunning, swapping := false, phase := 0
    cellarRunning := x.wasRunning, wasRunning := false }).haltOver p

/-- SWAP_EXCHANGE_COMPLETE (R388, R391): the arrays have exchanged; data of a context that could not be corrected kills
it. -/
def execSwapExchangeComplete (s : State) : Host.Outcome State Fault Refusal :=
  match s.detail with
  | .place p c =>
    let x := s.part p
    if x.phase != 3 then .next s else
    let s1 := if c != 0 && (c == x.live || c == x.cellar) then
        s.kill c 113 113 0 (BitVec.ofNat 64 (65536 * p))
      else s
    .next (s1.exchange p)
  | _ => .next s

end Sys2Proof.Machine
end

