-- ==== Sys2Proof/Machine/Device.lean ====
section
/-! DEFINITION. The device as system software meets it: image slots and the live update, the mailbox, checkpoints, host
memory accesses, resets, power gating, health counters and errors of stored lines (R412, R413, R417 to R427, R438,
R439, R443). -/

namespace Sys2Proof.Machine

/-! ### The mailbox (R421) -/

/-- A command enters the mailbox: nothing where GO is set, since the command is then ignored, or where the host port is held in
its error state (R412). -/
def State.command (s : State) (code : Nat) (args : List Word) : Option State :=
  if s.mailbox.cmd.getLsbD 8 || s.update.fault then none
  else some { s with mailbox := { s.mailbox with cmd := BitVec.ofNat 64 (code + 256), stat := 1, args := args } }

/-- An argument of the command. -/
def State.mbArg (s : State) (i : Nat) : Word := s.mailbox.args.getD i 0

/-- MBSTAT as the host reads it: the status and UPDSTAT's state. -/
def State.mbstat (s : State) : Word := s.mailbox.stat + BitVec.ofNat 64 (256 * s.update.state)

/-! ### Images and the live update (R412, R413, R417, R419, R438, R439) -/

/-- Sets an image slot. -/
def State.putSlotImage (s : State) (n : Nat) (x : ImageSlot) : State :=
  if n == 0 then { s with imageA := x } else { s with imageB := x }

/-- M of a slot's image (R412). -/
def ImageSlot.measure (x : ImageSlot) : List Byte := shake256 ((List.range x.size).map fun i => Table.getD x.bytes i 0) 32

/-- The loader puts an image where it runs, and the four system threads start it for a reason (R439). -/
def State.startImage (s : State) (n reason : Nat) : State :=
  let x := s.slot n
  let s1 := s.homeWriteRun x.entry ((List.range x.size).map fun i => Table.getD x.bytes i 0) (some 0)
  { s1 with
    teams := Table.mapVals s1.teams fun _ t =>
      if t.role == .system then
        { Team.thread t.uid .system 2 .ready with pc := BitVec.ofNat 64 x.entry, sr := [(2, BitVec.ofNat 64 reason)] }
      else t
    update := { s1.update with halted := [false, false, false, false] } }

/-- Data as the mailbox's 4 KiB window holds it. -/
def window4k (bs : List Byte) : List Byte := (List.range 4096).map fun i => bs.getD i 0

/-- The command IMGWRITE (R417, R421): 4 KiB of the image go into the inactive slot, which is then STAGED. -/
def State.imgwrite (s : State) : State :=
  if Nat.ble 2 s.update.state then s.answered 1 else
  let off := (s.mbArg 0).toNat
  let n := 1 - s.update.active
  let old : ImageSlot := if s.update.state == 0 then {} else s.slot n
  let x := { old with
    bytes := (window4k s.mailbox.data).zipIdx.foldl (fun (t : Table Byte) b => Memory.setByte t (off + b.2) b.1) old.bytes
    size := Nat.max old.size (off + 4096), verified := false }
  ({ s.putSlotImage n x with update := { s.update with state := 1, stgver := 0 } }).answered 0

/-- IMGWRITE (R417, R421): an offset, and what MBDATA holds. -/
def execImgwrite (s : State) : Host.Outcome State Fault Refusal :=
  match s.detail with
  | .bytes off _ data =>
    match s.command 1 [BitVec.ofNat 64 off, 0, 0, 0] with
    | none => .next s
    | some s1 => .next { s1 with mailbox := { s1.mailbox with data := window4k data } }.imgwrite
  | _ => .next s

/-- A slot with what the loader has found of its image (R412, R413); the security version has 32 bits. -/
def ImageSlot.checked (x : ImageSlot) (v : ImageCheck) : ImageSlot :=
  { x with verified := v.signed, secver := v.secver % 2 ^ 32, entry := v.entry, sup := v.sup }

/-- IMAGE_VERIFY (R412, R413, R417): the loader's verdict on the staged image. -/
def execImageVerify (s : State) : Host.Outcome State Fault Refusal :=
  match s.detail with
  | .image v =>
    if s.update.state != 1 then .next s else
    let n := 1 - s.update.active
    let x := (s.slot n).checked v
    if v.signed && Nat.ble s.rollback x.secver then
      .next { s.putSlotImage n x with update := { s.update with stgver := BitVec.ofNat 64 x.secver } }
    else .next ({ s with update := { s.update with state := 0, stgver := 0 } }.answeredFor 1 3)
  | _ => .next s

/-- The command UPDATE (R417, R421, R438). -/
def State.updateCommand (s : State) : State :=
  if s.update.state == 1 && (s.slot (1 - s.update.active)).verified && s.leased then
    { s with update := { s.update with state := 2, halted := (List.range 4).map fun d => d != s.lease.holder } }
  else s.answered 5

/-- UPDATE (R417, R421, R438). -/
def execUpdate (s : State) : Host.Outcome State Fault Refusal :=
  match s.command 2 [0, 0, 0, 0] with
  | none => .next s
  | some s1 => .next s1.updateCommand

/-- Every system thread is halted at a packet boundary, or stands in a HALT, which has stopped its issue (R40, R380, R417;
log 8). -/
def State.threadsQuiet (s : State) : Bool :=
  !(s.teams.any fun t => t.2.role == .system && t.2.inPacket && match t.2.wait with
    | .doorbell | .halt _ => false
    | _ => true)

/-- HBTO has passed since the new image's first instruction fetch, and it has written no heartbeat (R417). -/
def State.hbtoOver (s : State) : Bool :=
  s.update.state == 3 && match s.update.since with
    | some n => Nat.ble s.update.hbto.toNat (s.fclk - n)
    | none => false

/-- The first instruction fetch of the new image, on any of the four control cores, starts the count of HBTO (R417). -/
def State.beginImage (s : State) (t : Team) : State :=
  if s.update.state == 3 && t.role == .system && s.update.since.isNone then
    { s with update := { s.update with since := some s.fclk } }
  else s

/-- HANDOVER (R417, R439): the four threads have halted; the new image starts on them. -/
def execHandover (s : State) : Host.Outcome State Fault Refusal :=
  if s.update.state == 2 && s.update.halted.all (fun h => h) && s.threadsQuiet then
    .next ({ s with update := { s.update with state := 3, since := none } }.startImage (1 - s.update.active) 1)
  else .next s

/-- A write of HBEAT (R417, R439): the heartbeat commits the update. -/
def State.heartbeat (s : State) : State :=
  if s.update.state != 3 || s.hbtoOver then s else
  let n := 1 - s.update.active
  ({ s with
    update := { s.update with state := 0, active := n, stgver := 0 }
    rollback := Nat.max s.rollback (s.slot n).secver }.answeredFor 2 0).tally 0

/-- HBEAT_WRITE (R417). -/
def execHbeatWrite (s : State) : Host.Outcome State Fault Refusal := .next s.heartbeat

/-- HBTO_EXPIRY (R417, R439): no heartbeat came; the old image restarts and the lease is forced free. -/
def execHbtoExpiry (s : State) : Host.Outcome State Fault Refusal :=
  if s.hbtoOver && s.threadsQuiet then
    .next (({ s with
      update := { s.update with state := 5 }
      lease := { s.lease with held := false } }.startImage s.update.active 2).tally 1)
  else .next s

/-! ### Host accesses (R421) -/

/-- The physical address of an offset in the host's range of device memory. -/
def hdmAddr (h : Nat) : Nat :=
  if Nat.blt h 0x3000000000 then h / 0xC00000000 * dieWindow + h % 0xC00000000 else 0x10000000000 + (h - 0x3000000000)

/-- The host may access a page (R392, R421): a live context whose key is not destroyed owns it. -/
def State.hostMay (s : State) (pa : Nat) : Bool :=
  isDevice pa && s.owner pa != 0 && (s.ctx (s.owner pa)).alive && (s.ctx (s.owner pa)).key.isSome

/-- The completion of a host access. -/
def State.reply (s : State) (r : HostReply) : State := { s with hostReply := r }

/-- An access of n bytes of one line is completed and not refused: the host port is not in its error state (R412, R421). -/
def State.hostReaches (s : State) (h n : Nat) : Bool :=
  Nat.ble 1 n && Nat.ble (h % 64 + n) 64 && s.hostMay (hdmAddr h) && !s.update.fault

/-- A host access of device memory, at the home under the key of the page's owner (R393, R421); uncorrectable data is an
error to its reader (R443). -/
def State.hostAccess (s : State) (h n : Nat) (data : Option (List Byte)) : State :=
  if !s.hostReaches h n then s.reply .failed else
  match data with
  | some bs => (s.homeWriteRun (hdmAddr h) bs (some 0)).reply .done
  | none => s.reply (if s.badRun (hdmAddr h) n then .failed else .data (s.bytes (hdmAddr h) n))

/-! ### Checkpoints (R423, R424) -/

/-- Every partition of a context is stopped (R423, R425). -/
def State.allStopped (s : State) (c : Nat) : Bool :=
  let p := s.part (s.ctx c).part
  (s.ctx c).alive && (s.ctx c).key.isSome && p.stopped && !p.swapping && p.phase == 0

/-- The schedules of a context's checkpoint key (R423). -/
def Context.pair (x : Context) : AesPair :=
  let input := x.skey.flatMap (fun w => toBytes 8 w.toNat) ++
    ([0x63, 0x68, 0x65, 0x63, 0x6B, 0x70, 0x6F, 0x69, 0x6E, 0x74] : List Byte)
  aPair ((shake256 input 64).map fun b => b.toNat)

/-- The arena address that a physical page of a context's store stands at, if it is one. -/
def State.arenaPage (s : State) (c page : Nat) : Option Nat :=
  let x := s.ctx c
  ((List.range x.csSize.toNat).map fun i => x.csArena.toNat + 65536 * i).find? fun a =>
    match s.walk c (a % 2 ^ 57) with
    | .leaf base _ e => let p := leafPage e base (a % 2 ^ 57); p.cls == 1 && p.pa == 65536 * page
    | _ => false

/-- A name list (R424): names with the addresses of their content records. -/
def State.nameList (s : State) (at_ : Nat) : List (Word × Nat) :=
  if at_ == 0 then [] else
  (List.range (s.dword at_).toNat).map fun i => (s.dword (at_ + 8 + 16 * i), (s.dword (at_ + 16 + 16 * i)).toNat)

/-- A piece of an image: its bytes, and whether they are encrypted. -/
abbrev Piece := Bool × List Byte

/-- A doubleword as a piece. -/
def plain (n : Nat) : Piece := (false, toBytes 8 n)

/-- The page record of a page that is no page of the store (R424). -/
def State.ordRecord (s : State) (page : Nat) : List Piece :=
  [plain page, plain 0, plain 67584, (false, toBytes 40 0),
    (false, (List.range 1024).flatMap fun i => toBytes 2 (s.desc (65536 * page + 64 * i)).toNat),
    (true, s.bytes (65536 * page) 65536)]

/-- The page record of a page of the store (R423, R424): a name that the list holds is sent alone. -/
def State.casRecord (s : State) (c page base : Nat) (skip : List Word) : List Piece :=
  let entries := (List.range 1024).map fun i => (i, (s.ctx c).dir.find? fun e => e.loc == base + 64 * i)
  let sent := entries.filter fun x => match x.2 with
    | some e => !(skip.contains e.name)
    | none => false
  [plain page, plain 1, plain (16384 + 64 * sent.length), (false, toBytes 40 0),
    (false, entries.flatMap fun x => match x.2 with
      | some e => toBytes 8 e.name.toNat ++ toBytes 8 ((s.desc (65536 * page + 64 * x.1)).toNat +
          (if skip.contains e.name then 0 else 2 ^ 16) + (if e.quiet then 2 ^ 17 else 0) + 2 ^ 32 * e.count)
      | none => toBytes 16 0)] ++
  sent.map fun x => (true, s.bytes (65536 * page + 64 * x.1) 64)

/-- A version record (R424). -/
def versionPiece (page : Nat) (v : VersionRecord) : Piece :=
  (false, toBytes 8 page ++ toBytes 8 v.entries.length ++
    ((List.range 8).flatMap fun i => match v.entries[i]? with
      | some e => toBytes 8 (e.step + 2 ^ 32 * e.pins) ++ toBytes 8 e.root.toNat
      | none => toBytes 16 0) ++ toBytes 48 0)

/-- The bytes of pieces that stand one after another from an address (R423). -/
def placePieces (k : AesPair) : Nat → List Piece → List Byte
  | _, [] => []
  | a, (enc, bs) :: rest => (if enc then k.run false a bs else bs) ++ placePieces k (a + bs.length) rest

/-- The pages that a context owns, in ascending order. -/
def State.ownedPages (s : State) (c : Nat) : List Nat := (s.owners.filter fun o => o.2 == c).map Prod.fst

/-- The image of a context, as it stands at an address (R423, R424). -/
def State.image (s : State) (c at_ : Nat) (skip : List Word) : List Byte :=
  let pages := s.ownedPages c
  let records := pages.flatMap fun p => match s.arenaPage c p with
    | some base => s.casRecord c p base skip
    | none => s.ordRecord p
  let versions := ((s.ctx c).versions.filter fun v => v.2.home).map fun v => versionPiece (v.1 % 2 ^ 24) v.2
  let total := 64 + (records ++ versions).foldl (fun n x => n + x.2.length) 0
  let header := (false, toBytes 8 (1 + 2 ^ 32 * (s.ctx c).gid) ++ toBytes 8 pages.length ++ toBytes 8 versions.length ++
    toBytes 8 total ++ toBytes 8 s.pkgnum ++ toBytes 24 0)
  placePieces (s.ctx c).pair at_ (header :: records ++ versions)

/-- The commands CKPT and RESTORE (R421, R423, R425): the work begins, or its conditions do not hold. -/
def State.transferCommand (s : State) (restore : Bool) : State :=
  let c := (s.mbArg 0).toNat
  let addr := (s.mbArg 1).toNat
  let names := s.mbArg 3
  if s.allStopped c && addr % 64 == 0 && isCxl addr && (names == 0 || isCxl names.toNat) then
    { s with transfer := some (
      { restore := restore, ctx := c, addr := addr, flags := if restore then 0 else s.mbArg 2, names := names } : Transfer) }
  else s.answered 5

/-- CKPT (R421, R423). -/
def execCkpt (s : State) : Host.Outcome State Fault Refusal :=
  match s.detail with
  | .values c addr flags names =>
    match s.command 3 [BitVec.ofNat 64 c, addr, flags, names] with
    | none => .next s
    | some s1 => .next (s1.transferCommand false)
  | _ => .next s

/-- CKPT_COMPLETE (R423, R424): the image stands in CXL memory. -/
def execCkptComplete (s : State) : Host.Outcome State Fault Refusal :=
  match s.transfer with
  | some x =>
    if x.restore then .next s else
    let s1 := { s with transfer := none }
    if !s.allStopped x.ctx || (s.ownedPages x.ctx).any fun p => s.badRun (65536 * p) 65536 then .next (s1.answered 5) else
    let skip := if x.flags.getLsbD 0 then (s.nameList x.names.toNat).map Prod.fst else []
    .next ((s1.homeWriteRun x.addr (s.image x.ctx x.addr skip) (some 0)).answered 0)
  | none => .next s

/-! ### Restoring (R425) -/

/-- Bytes of an image that stand encrypted at an address. -/
def State.decrypted (s : State) (k : AesPair) (a n : Nat) : List Byte := k.run true a (s.bytes a n)

/-- Writes a whole line with its descriptor at its home. -/
def State.restoreLine (s : State) (pa : Nat) (data : List Byte) (d : BitVec 16) : State :=
  s.homeWrite (pa / 64) (BitVec.ofNat 64 (2 ^ 64 - 1)) (lineOf data) (some d)

/-- The page of an ordinary page record. -/
def State.restoreOrd (s : State) (k : AesPair) (page body : Nat) : State :=
  let bytes := s.decrypted k (body + 2048) 65536
  (List.range 1024).foldl (fun (a : State) i =>
    a.restoreLine (65536 * page + 64 * i) ((bytes.drop (64 * i)).take 64)
      (BitVec.ofNat 16 (ofBytes (s.bytes (body + 2 * i) 2)))) s

/-- A line of the store as an image gives it: its place in the page, contents, descriptor and directory entry. -/
structure Restored where
  line : Nat
  data : List Byte
  desc : BitVec 16
  entry : DirEntry

/-- The lines of a page record of the store (R424, R425): entries still to come, the number of contents already read;
nothing where a name is missing from the list, or a content does not give its recorded name, its kind and its fingerprint
(R292, R293). -/
def State.casLines (s : State) (c : Nat) (k : AesPair) (body base : Nat) (names : List (Word × Nat)) :
    List Nat → Nat → Option (List Restored)
  | [], _ => some []
  | i :: rest, sent =>
    let n := s.dword (body + 16 * i)
    let w := s.dword (body + 16 * i + 8)
    if n == 0 then s.casLines c k body base names rest sent else
    let here := w.getLsbD 16
    let found := if here then some (s.decrypted k (body + 16384 + 64 * sent) 64)
      else ((names.find? fun x => x.1 == n).map fun x => s.decrypted k x.2 64)
    match found with
    | none => none
    | some data =>
      let d : BitVec 16 := w.extractLsb' 0 16
      if nameKind n != (if d == nodeDesc then 1 else 0) || fingerprint (s.ctx c).skey d (lineOf data) != bitsOf n 8 54 then none
      else
      match s.casLines c k body base names rest (if here then sent + 1 else sent) with
      | none => none
      | some rs => some ({ line := i, data := data, desc := d
                           entry := { name := n, loc := base + 64 * i, count := bitsOf w 32 32, quiet := w.getLsbD 17
                                      node := nameKind n == 1 } } :: rs)

/-- The page of a page record of the store; nothing where it cannot be restored. -/
def State.restoreCas (s : State) (c : Nat) (k : AesPair) (page body : Nat) (names : List (Word × Nat)) : Option State :=
  match s.arenaPage c page with
  | none => none
  | some base =>
    match s.casLines c k body base names (List.range 1024) 0 with
    | none => none
    | some rs =>
      let s1 := rs.foldl (fun (a : State) r => a.restoreLine (65536 * page + 64 * r.line) r.data r.desc) s
      some (s1.putCtx c { s1.ctx c with
        dir := ((s1.ctx c).dir.filter fun e => !(Nat.ble base e.loc && Nat.blt e.loc (base + 65536))) ++ rs.map fun r => r.entry })

/-- Page records one after another from an address: the state, and the address past them unless one failed (R425). -/
def State.restorePages (s : State) (c : Nat) (k : AesPair) (names : List (Word × Nat)) : Nat → Nat → State × Option Nat
  | 0, a => (s, some a)
  | n + 1, a =>
    let page := bitsOf (s.dword a) 0 36
    let len := (s.dword (a + 16)).toNat
    if s.owner (65536 * page) != c then (s, none) else
    match bitsOf (s.dword (a + 8)) 0 3 with
    | 0 => (s.restoreOrd k page (a + 64)).restorePages c k names n (a + 64 + len)
    | 1 => match s.restoreCas c k page (a + 64) names with
      | some s1 => s1.restorePages c k names n (a + 64 + len)
      | none => (s, none)
    | _ => (s, none)

/-- A version record of an image, as a home record of this package (R424, R425). -/
def State.versionAt (s : State) (a : Nat) : VersionRecord :=
  { home := true
    entries := (List.range (bitsOf (s.dword (a + 8)) 0 4)).map fun i =>
      { step := bitsOf (s.dword (a + 16 + 16 * i)) 0 32, pins := bitsOf (s.dword (a + 16 + 16 * i)) 32 4
        root := s.dword (a + 24 + 16 * i) } }

/-- RESTORE (R421, R425). -/
def execRestore (s : State) : Host.Outcome State Fault Refusal :=
  match s.detail with
  | .values c addr _ names =>
    match s.command 6 [BitVec.ofNat 64 c, addr, 0, names] with
    | none => .next s
    | some s1 => .next (s1.transferCommand true)
  | _ => .next s

/-- RESTORE_COMPLETE (R425): the image is back in device memory, as far as no record failed. -/
def execRestoreComplete (s : State) : Host.Outcome State Fault Refusal :=
  match s.transfer with
  | some x =>
    if !x.restore then .next s else
    let s1 := { s with transfer := none }
    let h := s1.dword x.addr
    if !s1.allStopped x.ctx || bitsOf h 0 16 != 1 || bitsOf h 16 16 != 0 || bitsOf h 32 32 != (s1.ctx x.ctx).gid then
      .next (s1.answered 5)
    else
      let pages := (s1.dword (x.addr + 8)).toNat
      let vrecs := (s1.dword (x.addr + 16)).toNat
      match s1.restorePages x.ctx (s1.ctx x.ctx).pair (s1.nameList x.names.toNat) pages (x.addr + 64) with
      | (s2, none) => .next (s2.answered 5)
      | (s2, some a) =>
        let s3 := (List.range vrecs).foldl (fun (b : State) i =>
          let r := a + 192 * i
          b.putCtx x.ctx { b.ctx x.ctx with
            versions := Table.put (b.ctx x.ctx).versions (versionKey b.pkgnum (bitsOf (s2.dword r) 0 24)) (s2.versionAt r) }) s2
        .next (s3.answered 0)
  | none => .next s

/-! ### Health (R427) -/

/-- Doublewords of a group of the health counters. -/
def groupSize : Nat → Nat
  | 0 => 65
  | 1 => 7
  | 2 => 8
  | 3 => 2
  | 4 => 1
  | _ => 4

/-- A group as HEALTH returns it. -/
def Health.group (h : Health) (g : Nat) : List Word := (List.range (groupSize g)).map fun i => (Table.getD h.groups g []).getD i 0

/-- The command HEALTH (R421, R427). -/
def State.healthCommand (s : State) : State :=
  let g := (s.mbArg 0).toNat
  if Nat.blt 5 g then s.answered 2 else
  { s with mailbox := { s.mailbox with
      data := window4k ((s.health.group g).flatMap fun (w : Word) => toBytes 8 w.toNat) } }.answered 0

/-- HEALTH (R421, R427). -/
def execHealth (s : State) : Host.Outcome State Fault Refusal :=
  match s.detail with
  | .place g _ =>
    match s.command 4 [BitVec.ofNat 64 g, 0, 0, 0] with
    | none => .next s
    | some s1 => .next s1.healthCommand
  | _ => .next s

/-- Sum of SLIPS over all cores. -/
def State.slipSum (s : State) : Word := s.cores.foldl (fun n c => n + c.2.slips) 0

/-- The bucket of a temperature in degrees (R427). -/
def bucket (t : Nat) : Nat := Nat.min 15 ((t - 20) / 5)

/-- Adds to the doublewords of a group. -/
def addTo (g : List Word) (xs : List Word) : List Word := g.zipIdx.map fun e => e.1 + xs.getD e.2 0

/-- Poisoned slices that nothing has read, of all teams since reset (R205, R427). -/
def State.neverRead (s : State) : Nat :=
  let sum := fun (n : Nat) (ts : Table Team) => ts.foldl (fun m t => m + t.2.neverRead false) n
  s.cellars.foldl (fun n c => sum n c.2.teams) (sum s.health.unread s.teams)

/-- The counters are updated from the device's registers; temperatures of the dies, then errors corrected and errors not
corrected since the last update, come from their sensors where they are given (R427). An interval counts with its sample. -/
def State.updateHealth (s : State) (xs : List Nat) : State :=
  let h := s.health
  let w := fun (i : Nat) => BitVec.ofNat 64 (xs.getD i 0)
  let now := [s.linkrt, s.fabreplay, s.slipSum, BitVec.ofNat 64 s.neverRead]
  let diff := fun i => now.getD i 0 - h.seen.getD i 0
  let hot := (List.range 64).map fun i => if Nat.blt (i / 16) xs.length && i % 16 == bucket (xs.getD (i / 16) 0) then (1 : Word) else 0
  let g1 := Table.put h.groups 0 (addTo (h.group 0) (hot ++ [if Nat.ble 4 xs.length then 1 else 0]))
  let g2 := Table.put g1 1 (addTo (h.group 1) ((List.range 7).map fun i => w (4 + i)))
  let g3 := Table.put g2 2 (addTo (h.group 2) ((List.range 7).map (fun i => w (11 + i)) ++ [diff 3]))
  let g4 := Table.put g3 3 (addTo (h.group 3) [diff 0, diff 1])
  let g5 := Table.put g4 4 (addTo (h.group 4) [diff 2])
  { s with health :=
      { h with groups := Table.put g5 5 (addTo (h.group 5) h.tally), updatedAt := s.clock, seen := now, tally := [0, 0, 0, 0] } }

/-- HEALTH_COUNTER_UPDATE (R427): every 1.2 x 10^9 FCLK. -/
def execHealthCounterUpdate (s : State) : Host.Outcome State Fault Refusal :=
  match s.detail with
  | .numbers xs => .next (if Nat.ble 1200000000 (2 * (s.clock - s.health.updatedAt)) then s.updateHealth xs else s)
  | _ => .next s

/-! ### Resets (R386, R393, R412, R422) -/

/-- The slot that boots (R412, R413): the active one if it verifies, else the other. -/
def State.bootSlot (s : State) : Option Nat :=
  let ok := fun (n : Nat) => (s.slot n).verified && Nat.ble s.rollback (s.slot n).secver
  if ok s.update.active then some s.update.active
  else if ok (1 - s.update.active) then some (1 - s.update.active) else none

/-- What a reset leaves besides what it keeps in nonvolatile storage: everything at its reset value (R422, R427). -/
def State.restart (s : State) : State :=
  { State.reset with
    agenda := s.agenda, detail := s.detail, fresh := s.fresh, serial := s.serial
    update := { active := s.update.active }
    imageA := s.imageA, imageB := s.imageB, rollback := s.rollback, pkgnum := s.pkgnum
    health := { s.health with updatedAt := 0, seen := [0, 0, 0, 0], unread := 0, tally := [0, 0, 0, 0], counted := [] } }

/-- No layer that may run is left: nothing runs, and the host port is held in its error state (R412). -/
def State.noBoot (s : State) : State :=
  { s with
    update := { s.update with fault := true }
    mailbox := { s.mailbox with stat := 5 }
    teams := Table.mapVals s.teams fun _ t => { t with wait := .idle } }

/-- Layer 2 starts on the control cores from the slot that boots (R412). -/
def State.boot (s : State) : State :=
  match s.bootSlot with
  | some n => { s with update := { s.update with active := n } }.startImage n 0
  | none => s.noBoot

/-- The layers boot after power is applied: layer 0 verifies the firmware loader, and the loader reads both slots (R412, R413);
where the step does not say what they find, the slots stand as they were found last. -/
def State.bootLayers (s : State) : State :=
  match s.detail with
  | .boot a b layer1 =>
    let s1 := { s with imageA := s.imageA.checked a, imageB := s.imageB.checked b }
    if layer1 then s1.boot else s1.noBoot
  | _ => s.boot

/-- Every key is destroyed: what the supervisor's key encrypted reads as bytes without meaning under its successor
(R393, R422). -/
def State.newKeys (s : State) : State :=
  { s with keyTags := Table.mapVals s.keyTags fun _ k => if k == 0 then s.serial else k, serial := s.serial + 1 }

/-- What the sensors say at an orderly reset (R427): the operands of the step where it has them, else free values (log 6). -/
def State.samples (s : State) : List Nat :=
  match s.detail with
  | .numbers xs => xs
  | _ => (List.range 18).map fun i => (Config.freeWord (s.fresh + i)).toNat

/-- A warm reset (R386, R393, R422, R427): an orderly one, so the counters are updated first. -/
def State.warmReset (s : State) : State :=
  let s1 := s.ctxs.foldl (fun (a : State) x =>
    a.kill x.1 120 120 0 (BitVec.ofNat 64 (65536 * (a.ctx x.1).part))) ({ s with fresh := s.fresh + 18 }.updateHealth s.samples)
  { s1.restart with
    mem := s1.mem, descs := s1.descs, bad := s1.bad, keyTags := s1.keyTags
    ctxs := (s1.ctxs.filter fun (x : Nat × Context) => x.2.killed).map fun (x : Nat × Context) => (x.1, { killed := true })
    : State }.newKeys.boot

/-- RESET_WARM (R421, R422): RESET 1, with what the sensors say. -/
def execResetWarm (s : State) : Host.Outcome State Fault Refusal :=
  match s.command 5 [1, 0, 0, 0] with
  | none => .next s
  | some s0 => .next s0.warmReset

/-- COLD_RESET (R412, R413, R422): power is applied. -/
def execColdReset (s : State) : Host.Outcome State Fault Refusal := .next s.restart.bootLayers

/-- POWER_LOSS (R427): what is not in nonvolatile storage is lost, and nothing runs until power is applied. -/
def execPowerLoss (s : State) : Host.Outcome State Fault Refusal :=
  let s1 := s.restart
  .next { s1 with teams := Table.mapVals s1.teams fun _ t => { t with wait := .idle } }

/-- The mailbox after a port reset (R422). -/
def State.portReset (s : State) : State :=
  { s with
    mailbox := { stat := if s.transfer.isSome then 5 else 0 }
    transfer := none }

/-- PORT_RESET (R422): a CXL link reset. -/
def execPortReset (s : State) : Host.Outcome State Fault Refusal := .next s.portReset

/-- RESET_PORT (R421, R422): RESET 2. -/
def execResetPort (s : State) : Host.Outcome State Fault Refusal :=
  match s.command 5 [2, 0, 0, 0] with
  | none => .next s
  | some s1 => .next s1.portReset

/-! ### The register block of BAR0 (R421) -/

/-- The command RESET (R421, R422): kind 1 warm, kind 2 port, any other no command. -/
def State.resetCommand (s : State) : State :=
  match (s.mbArg 0).toNat with
  | 1 => s.warmReset
  | 2 => s.portReset
  | _ => s.answered 2

/-- Runs the command that MBCMD names (R421); an unknown code ends with BADCMD. -/
def State.runCommand (s : State) (code : Nat) : State :=
  match code with
  | 1 => s.imgwrite
  | 2 => s.updateCommand
  | 3 => s.transferCommand false
  | 4 => s.healthCommand
  | 5 => s.resetCommand
  | 6 => s.transferCommand true
  | _ => s.answered 2

/-- What the host reads at an offset of BAR0; an offset that names no register reads zero (log 107). -/
def State.mbRead (s : State) (o : Nat) : Word :=
  if o == 0 then s.mailbox.cmd
  else if o == 8 then s.mbstat
  else if Nat.ble 0x10 o && Nat.ble o 0x28 then s.mbArg ((o - 0x10) / 8)
  else if Nat.ble 0x1000 o && Nat.ble o 0x1FFF then
    BitVec.ofNat 64 (ofBytes (((window4k s.mailbox.data).drop ((o - 0x1000) / 8 * 8)).take 8))
  else 0

/-- A write of the host at an offset of BAR0 (R421): GO with a command starts it with the arguments and the data that stand in
the block. -/
def State.mbWrite (s : State) (o : Nat) (v : Word) : State :=
  let box := fun (x : Mailbox) => { s with mailbox := x }
  if o == 0 then
    if !v.getLsbD 8 then (if s.mailbox.cmd.getLsbD 8 then s else box { s.mailbox with cmd := v &&& 0xFF })
    else match s.command (bitsOf v 0 8) s.mailbox.args with
      | none => s
      | some s1 => s1.runCommand (bitsOf v 0 8)
  else if Nat.ble 0x10 o && Nat.ble o 0x28 then box { s.mailbox with args := s.mailbox.args.set ((o - 0x10) / 8) v }
  else if Nat.ble 0x1000 o && Nat.ble o 0x1FFF then
    let at_ := (o - 0x1000) / 8 * 8
    let d := window4k s.mailbox.data
    box { s.mailbox with data := d.take at_ ++ toBytes 8 v.toNat ++ d.drop (at_ + 8) }
  else s

/-- HOST_MEM_ACCESS (R393, R421). -/
def execHostMemAccess (s : State) : Host.Outcome State Fault Refusal :=
  match s.detail with
  | .host (.read h n) => .next (s.hostAccess h n none)
  | .host (.write h data) => .next (s.hostAccess h data.length (some data))
  | .host (.readRegister o) => .next (s.reply (.data (toBytes 8 (s.mbRead o).toNat)))
  | .host (.writeRegister o v) => .next ((s.mbWrite o v).reply .done)
  | .host (.writeHostMemory a data) =>
    .next (if isCxl a && isCxl (a + data.length - 1) then s.homeWriteRun a data (some 0) else s)
  | _ => .next s

/-! ### Power gating (R426) -/

/-- POWER_GATE_ENTRY (R426): REQ, then COMMIT in the following ACLK. -/
def execPowerGateEntry (s : State) : Host.Outcome State Fault Refusal :=
  match s.detail with
  | .place c _ =>
    let x := s.core c
    match x.power with
    | .running =>
      if s.teams.any (fun t => isCoreKey t.1 && coreOf t.1 == c) || (s.part (s.partOf c)).cellar != 0 || !x.tasks.isEmpty ||
          x.chunk.isSome then .next s
      else .next (s.putCore c { x with power := .request })
    | .request => .next ((s.putCore c { x with power := .gated }).tally 2)
    | .gated => .next s
  | _ => .next s

/-- CORE_WAKE (R426). -/
def execCoreWake (s : State) : Host.Outcome State Fault Refusal :=
  match s.detail with
  | .place c _ => .next (s.wakeCore c)
  | _ => .next s

/-- CORE_POWER_UP (R426): a core whose wake is held is up again. -/
def execCorePowerUp (s : State) : Host.Outcome State Fault Refusal :=
  match s.detail with
  | .place c _ =>
    let x := s.core c
    if x.power == .gated && x.wakeHeld then .next (s.putCore c { x with power := .running, wakeHeld := false }) else .next s
  | _ => .next s

/-! ### Errors of stored lines (R427, R442, R443) -/

/-- UNCORRECTABLE_ERROR (R442, R443): a line's data (1), its descriptor (2) or both (3) become uncorrectable. -/
def execUncorrectableError (s : State) : Host.Outcome State Fault Refusal :=
  match s.detail with
  | .place pa what =>
    let old := Table.getD s.bad (pa / 64) (false, false)
    let new := (old.1 || what % 2 == 1, old.2 || (what / 2 % 2 == 1 && !isCxl pa))
    .next (if isPopulated pa && (new.1 || new.2) then { s with bad := Table.put s.bad (pa / 64) new } else s)
  | _ => .next s

/-- Marked lines that have not been counted yet, of near DRAM and of far memory. -/
def State.marked (s : State) : Nat × Nat :=
  let new := (Table.keys s.bad).filter fun n => !(s.health.counted.contains n) && !(isCxl (64 * n))
  let far := new.filter fun n => isFar (64 * n)
  (new.length - far.length, far.length)

/-- SCRUBBING (R427, R443): correctable errors of near DRAM and far memory are corrected and counted, and the marked
lines, whose marks stay, are counted. -/
def execScrubbing (s : State) : Host.Outcome State Fault Refusal :=
  match s.detail with
  | .numbers [near, far] =>
    let h := s.health
    let g1 := Table.put h.groups 1 (addTo (h.group 1) [0, BitVec.ofNat 64 near, BitVec.ofNat 64 far])
    let g2 := Table.put g1 2 (addTo (h.group 2) [0, BitVec.ofNat 64 s.marked.1, BitVec.ofNat 64 s.marked.2])
    .next { s with health := { h with groups := g2, counted := Table.keys s.bad } }
  | _ => .next s

end Sys2Proof.Machine
end

