-- ==== Sys2Proof/Machine/Integer.lean ====
section
/-! DEFINITION. Rows 0x04, 0x05, 0x06 and 0x09: integer work on sub-elements, immediates, bit fields, selection, and forms
with a scalar (R100 to R113). -/

namespace Sys2Proof.Machine

/-- IADD (R105): sum, wrapping. -/
def execIadd (f : FmtV) (s : State) : Host.Outcome State Fault Refusal :=
  vectorForm (.iadd f) f [f.a.toNat, f.b.toNat] s fun _ x y => each2 (widthOf f.t) (fun a b => a + b) x y

/-- ISUB (R105): difference, wrapping. -/
def execIsub (f : FmtV) (s : State) : Host.Outcome State Fault Refusal :=
  let w := widthOf f.t
  vectorForm (.isub f) f [f.a.toNat, f.b.toNat] s fun _ x y => each2 w (fun a b => a + 2 ^ w - b) x y

/-- IMUL (R105): low bits of the product. -/
def execImul (f : FmtV) (s : State) : Host.Outcome State Fault Refusal :=
  vectorForm (.imul f) f [f.a.toNat, f.b.toNat] s fun _ x y => each2 (widthOf f.t) (fun a b => a * b) x y

/-- IMULH (R105): high bits of the signed product. -/
def execImulh (f : FmtV) (s : State) : Host.Outcome State Fault Refusal :=
  let w := widthOf f.t
  vectorForm (.imulh f) f [f.a.toNat, f.b.toNat] s fun _ x y => each2 w (fun a b => low w (sgn w a * sgn w b / Int.ofNat (2 ^ w))) x y

/-- IMAC (R105): d + a x b, low bits; D is read before it is written. -/
def execImac (f : FmtV) (s : State) : Host.Outcome State Fault Refusal :=
  vectorForm (.imac f) f [f.d.toNat, f.a.toNat, f.b.toNat] s fun d a b =>
    each3 (widthOf f.t) (fun x y z => x + y * z) d a b

/-- IMIN (R105): the smaller, signed. -/
def execImin (f : FmtV) (s : State) : Host.Outcome State Fault Refusal :=
  let w := widthOf f.t
  vectorForm (.imin f) f [f.a.toNat, f.b.toNat] s fun _ x y => each2 w (fun a b => if sgn w a ≤ sgn w b then a else b) x y

/-- IMAX (R105): the larger, signed. -/
def execImax (f : FmtV) (s : State) : Host.Outcome State Fault Refusal :=
  let w := widthOf f.t
  vectorForm (.imax f) f [f.a.toNat, f.b.toNat] s fun _ x y => each2 w (fun a b => if sgn w a ≤ sgn w b then b else a) x y

/-- UMIN (R105): the smaller, unsigned. -/
def execUmin (f : FmtV) (s : State) : Host.Outcome State Fault Refusal :=
  vectorForm (.umin f) f [f.a.toNat, f.b.toNat] s fun _ x y => each2 (widthOf f.t) (fun a b => Nat.min a b) x y

/-- UMAX (R105): the larger, unsigned. -/
def execUmax (f : FmtV) (s : State) : Host.Outcome State Fault Refusal :=
  vectorForm (.umax f) f [f.a.toNat, f.b.toNat] s fun _ x y => each2 (widthOf f.t) (fun a b => Nat.max a b) x y

/-- AND (R105): bitwise and. -/
def execAnd (f : FmtV) (s : State) : Host.Outcome State Fault Refusal :=
  vectorForm (.and f) f [f.a.toNat, f.b.toNat] s fun _ x y => each2 (widthOf f.t) (fun a b => a &&& b) x y

/-- OR (R105): bitwise or. -/
def execOr (f : FmtV) (s : State) : Host.Outcome State Fault Refusal :=
  vectorForm (.or f) f [f.a.toNat, f.b.toNat] s fun _ x y => each2 (widthOf f.t) (fun a b => a ||| b) x y

/-- XOR (R105): bitwise xor. -/
def execXor (f : FmtV) (s : State) : Host.Outcome State Fault Refusal :=
  vectorForm (.xor f) f [f.a.toNat, f.b.toNat] s fun _ x y => each2 (widthOf f.t) (fun a b => a ^^^ b) x y

/-- ANDN (R105): a and not b. -/
def execAndn (f : FmtV) (s : State) : Host.Outcome State Fault Refusal :=
  let w := widthOf f.t
  vectorForm (.andn f) f [f.a.toNat, f.b.toNat] s fun _ x y => each2 w (fun a b => a &&& (2 ^ w - 1 - b)) x y

/-- SHL (R105): left shift by b mod w. -/
def execShl (f : FmtV) (s : State) : Host.Outcome State Fault Refusal :=
  let w := widthOf f.t
  vectorForm (.shl f) f [f.a.toNat, f.b.toNat] s fun _ x y => each2 w (fun a b => a * 2 ^ (b % w)) x y

/-- SHR (R105): right shift by b mod w, zeros enter. -/
def execShr (f : FmtV) (s : State) : Host.Outcome State Fault Refusal :=
  let w := widthOf f.t
  vectorForm (.shr f) f [f.a.toNat, f.b.toNat] s fun _ x y => each2 w (fun a b => a / 2 ^ (b % w)) x y

/-- SAR (R105): right shift by b mod w, the sign enters. -/
def execSar (f : FmtV) (s : State) : Host.Outcome State Fault Refusal :=
  let w := widthOf f.t
  vectorForm (.sar f) f [f.a.toNat, f.b.toNat] s fun _ x y => each2 w (fun a b => sarE w a (b % w)) x y

/-- A form of VI: two 32-bit sub-elements and an immediate (R106). -/
def immediateForm (i : Instr) (f : FmtVI) (s : State) (op : Nat → Nat) : Host.Outcome State Fault Refusal :=
  run i s fun k t =>
    vectorPasses s k t { word := keyWord i, sources := [f.a.toNat], dest := f.d.toNat, guard := f.g } true (t.takers f.g)
      fun l => (pack 32 fun e => op (elem 32 (t.lane f.a.toNat l) e), 0)

/-- The immediate, sign-extended to 32 bits (R106). -/
def imm32 (f : FmtVI) : Nat := (f.imm.signExtend 32).toNat

/-- IADDI (R106): a + i, wrapping. -/
def execIaddi (f : FmtVI) (s : State) : Host.Outcome State Fault Refusal :=
  immediateForm (.iaddi f) f s fun a => a + imm32 f

/-- IMULI (R106): low 32 bits of a x i. -/
def execImuli (f : FmtVI) (s : State) : Host.Outcome State Fault Refusal :=
  immediateForm (.imuli f) f s fun a => a * imm32 f

/-- ANDI (R106): a and i. -/
def execAndi (f : FmtVI) (s : State) : Host.Outcome State Fault Refusal :=
  immediateForm (.andi f) f s fun a => a &&& imm32 f

/-- ORI (R106): a or i. -/
def execOri (f : FmtVI) (s : State) : Host.Outcome State Fault Refusal :=
  immediateForm (.ori f) f s fun a => a ||| imm32 f

/-- XORI (R106): a xor i. -/
def execXori (f : FmtVI) (s : State) : Host.Outcome State Fault Refusal :=
  immediateForm (.xori f) f s fun a => a ^^^ imm32 f

/-- SHLI (R106): left shift. -/
def execShli (f : FmtVI) (s : State) : Host.Outcome State Fault Refusal :=
  immediateForm (.shli f) f s fun a => a * 2 ^ f.imm.toNat

/-- SHRI (R106): right shift, zeros enter. -/
def execShri (f : FmtVI) (s : State) : Host.Outcome State Fault Refusal :=
  immediateForm (.shri f) f s fun a => a / 2 ^ f.imm.toNat

/-- SARI (R106): right shift, the sign enters. -/
def execSari (f : FmtVI) (s : State) : Host.Outcome State Fault Refusal :=
  immediateForm (.sari f) f s fun a => sarE 32 a f.imm.toNat

/-- POPC (R107): number of 1 bits. -/
def execPopc (f : FmtV) (s : State) : Host.Outcome State Fault Refusal :=
  let w := widthOf f.t
  vectorForm (.popc f) f [f.a.toNat] s fun _ a b => each2 w (fun x _ => popcount x w) a b

/-- CLZ (R107): zeros above the highest 1 bit. -/
def execClz (f : FmtV) (s : State) : Host.Outcome State Fault Refusal :=
  let w := widthOf f.t
  vectorForm (.clz f) f [f.a.toNat] s fun _ a b => each2 w (fun x _ => leadingZeros x w) a b

/-- BREV (R107): bits in reverse order. -/
def execBrev (f : FmtV) (s : State) : Host.Outcome State Fault Refusal :=
  let w := widthOf f.t
  vectorForm (.brev f) f [f.a.toNat] s fun _ a b => each2 w (fun x _ => reverseBits w x) a b

/-- BFX (R108): field extract. -/
def execBfx (f : FmtV) (s : State) : Host.Outcome State Fault Refusal :=
  vectorForm (.bfx f) f [f.a.toNat, f.b.toNat] s fun _ a b => each2 (widthOf f.t) (bfxE (widthOf f.t)) a b

/-- BFI (R108): field insert into D. -/
def execBfi (f : FmtV) (s : State) : Host.Outcome State Fault Refusal :=
  vectorForm (.bfi f) f [f.d.toNat, f.a.toNat, f.b.toNat] s fun d a b =>
    each3 (widthOf f.t) (bfiE (widthOf f.t)) d a b

/-- IADDS (R107): signed saturating sum; sets SAT. -/
def execIadds (f : FmtV) (s : State) : Host.Outcome State Fault Refusal :=
  let w := widthOf f.t
  vectorForm (.iadds f) f [f.a.toNat, f.b.toNat] s fun _ a b => eachSat w (fun x y => clampS w (sgn w x + sgn w y)) a b

/-- ISUBS (R107): signed saturating difference; sets SAT. -/
def execIsubs (f : FmtV) (s : State) : Host.Outcome State Fault Refusal :=
  let w := widthOf f.t
  vectorForm (.isubs f) f [f.a.toNat, f.b.toNat] s fun _ a b => eachSat w (fun x y => clampS w (sgn w x - sgn w y)) a b

/-- UADDS (R107): unsigned saturating sum; sets SAT. -/
def execUadds (f : FmtV) (s : State) : Host.Outcome State Fault Refusal :=
  let w := widthOf f.t
  vectorForm (.uadds f) f [f.a.toNat, f.b.toNat] s fun _ a b => eachSat w (fun x y => clampU w (Int.ofNat x + Int.ofNat y)) a b

/-- USUBS (R107): unsigned saturating difference; sets SAT. -/
def execUsubs (f : FmtV) (s : State) : Host.Outcome State Fault Refusal :=
  let w := widthOf f.t
  vectorForm (.usubs f) f [f.a.toNat, f.b.toNat] s fun _ a b => eachSat w (fun x y => clampU w (Int.ofNat x - Int.ofNat y)) a b

/-- SEL (R109): every active lane is written; a guard-true lane takes A, any other B. -/
def execSel (f : FmtV) (s : State) : Host.Outcome State Fault Refusal :=
  run (.sel f) s fun k t =>
    vectorPasses s k t
      { word := keyWord (.sel f), sources := [f.a.toNat, f.b.toNat], dest := f.d.toNat, guard := f.g } true t.active
      fun l => (if (t.guard f.g).getLsbD l then t.lane f.a.toNat l else t.lane f.b.toNat l, 0)

/-- A form of VS: one scalar operand, read at issue, for every written lane (R112). -/
def scalarForm (i : Instr) (f : FmtVS) (srcs : List Nat) (s : State) (op : Word → Word → Word) :
    Host.Outcome State Fault Refusal :=
  run i s fun k t =>
    vectorPasses s k t
      { word := keyWord i, sources := srcs, dest := f.d.toNat, guard := f.g, scalars := [t.s f.s] } true (t.takers f.g)
      fun l => (op (t.lane f.a.toNat l) (t.s f.s), 0)

/-- Each sub-element of a lane with the low bits of a scalar (R112). -/
def eachS (w : Nat) (op : Nat → Nat → Nat) (a x : Word) : Word := pack w fun e => op (elem w a e) (elem w x 0)

/-- ADDS (R112): a + t, wrapping. -/
def execAdds (f : FmtVS) (s : State) : Host.Outcome State Fault Refusal :=
  scalarForm (.adds f) f [f.a.toNat] s fun x y => eachS (widthOf f.t) (fun a t => a + t) x y

/-- SUBS (R112): a - t, wrapping. -/
def execSubs (f : FmtVS) (s : State) : Host.Outcome State Fault Refusal :=
  let w := widthOf f.t
  scalarForm (.subs f) f [f.a.toNat] s fun x y => eachS w (fun a t => a + 2 ^ w - t) x y

/-- MULS (R112): low bits of a x t. -/
def execMuls (f : FmtVS) (s : State) : Host.Outcome State Fault Refusal :=
  scalarForm (.muls f) f [f.a.toNat] s fun x y => eachS (widthOf f.t) (fun a t => a * t) x y

/-- SHLS (R112): left shift by s mod w. -/
def execShls (f : FmtVS) (s : State) : Host.Outcome State Fault Refusal :=
  let w := widthOf f.t
  scalarForm (.shls f) f [f.a.toNat] s fun x y => eachS w (fun a t => a * 2 ^ (t % w)) x y

/-- ANDS (R112): a and t. -/
def execAnds (f : FmtVS) (s : State) : Host.Outcome State Fault Refusal :=
  scalarForm (.ands f) f [f.a.toNat] s fun x y => eachS (widthOf f.t) (fun a t => a &&& t) x y

/-- BCAST (R112): the scalar's low bits in every sub-element. -/
def execBcast (f : FmtVS) (s : State) : Host.Outcome State Fault Refusal :=
  scalarForm (.bcast f) f [] s fun x y => eachS (widthOf f.t) (fun _ t => t) x y

/-- LEA (R113): a base and a sign-extended 32-bit index scaled by 2^k; T is the scale. -/
def execLea (f : FmtVS) (s : State) : Host.Outcome State Fault Refusal :=
  scalarForm (.lea f) f [f.a.toNat] s fun a x => x + ((a.extractLsb' 0 32).signExtend 64 <<< f.t.toNat)

end Sys2Proof.Machine
end

