-- ==== Sys2Proof/Machine/Matrix.lean ====
section
/-! DEFINITION. Row 0x2C: operand maps, gangs, windows, the array and the accumulator store (R270 to R291). -/

namespace Sys2Proof.Machine

/-! ### Maps -/

/-- Elements of a line of width b (R164). -/
def perLine (b : Nat) : Nat := 512 / b

/-- MAPSET (R273, R274): a fault leaves the map invalid. -/
def execMapset (f : FmtE) (s : State) : Host.Outcome State Fault Refusal :=
  run (.mapset f) s fun k t =>
    let w := t.s f.p
    let m := (f.w.extractLsb' 0 3).toNat
    let b := if f.f.getLsbD 3 then 1 else 2 ^ (f.f.extractLsb' 0 3).toNat
    let role := if f.f.getLsbD 4 then 1 else 0
    let rows := bitsOf w 40 8 + 1
    let kk := 128 * bitsOf w 48 16
    let size := s.scratchSize t
    let dropped := s.putTeam k { t with maps := Table.del t.maps m }
    if kk == 0 || Nat.blt 128 rows || (role == 1 && rows != 128) then .trap 54 {} dropped
    else if kk % perLine b != 0 then .trap 53 {} dropped
    else if Nat.blt size (bitsOf w 0 20 + b * rows * kk / 8) || Nat.blt size (bitsOf w 20 20 + rows * kk / perLine b) then
      .trap 48 {} dropped
    else
      let x : OperandMap := { role := role, pbase := bitsOf w 0 20, sbase := bitsOf w 20 20, rows := rows, ksize := kk
                              width := b, binary := f.f.getLsbD 3 }
      .done (s.putTeam k { t with maps := Table.put t.maps m x })

/-! ### The product (R270, R275) -/

/-- Bit q of element k of row i of an operand in a scratchpad (R270). -/
def planeBit (sp : Nat → Byte) (m : OperandMap) (i k q : Nat) : Bool :=
  (sp (m.pbase + q * m.rows * m.ksize / 8 + i * m.ksize / 8 + k / 8)).getLsbD (k % 8)

/-- The integer value of element k of row i (R270). -/
def planeValue (sp : Nat → Byte) (m : OperandMap) (i k : Nat) : Int :=
  if m.binary then (if planeBit sp m i k 0 then -1 else 1)
  else sgn m.width ((List.range m.width).foldl (fun v q => v + if planeBit sp m i k q then 2 ^ q else 0) 0)

/-- The scale code that governs element k of row i (R270). -/
def planeScale (sp : Nat → Byte) (m : OperandMap) (i k : Nat) : Nat :=
  (sp (m.sbase + i * (m.ksize / perLine m.width) + k / perLine m.width)).toNat

/-- One K-block added to an output: the two roundings and their flags (R275). -/
def addBlock (sp : Nat → Byte) (a b : OperandMap) (i j nb : Nat) (acc : Nat × BitVec 6) (t : Nat) : Nat × BitVec 6 :=
  let d := (List.range nb).foldl (fun (z : Int) x => z + planeValue sp a i (t * nb + x) * planeValue sp b j (t * nb + x)) 0
  let ca := planeScale sp a i (t * nb)
  let cb := planeScale sp b j (t * nb)
  let p := if ca == 255 || cb == 255 then (fp32.nan, flNV)
    else fp32.roundInt .rne d (Int.ofNat (ca + cb) - 254) false
  let r := fp32.add acc.1 p.1
  (r.1, acc.2 ||| p.2 ||| r.2)

/-- An output after the first n K-blocks of an operation (R275). -/
def outputAfter (sp : Nat → Byte) (zero : Bool) (a b : OperandMap) (i j n : Nat) (old : Nat) : Nat × BitVec 6 :=
  let nb := Nat.min (perLine a.width) (perLine b.width)
  (List.range (Nat.min n (a.ksize / nb))).foldl (addBlock sp a b i j nb) (if zero then 0 else old, 0)

/-! ### The accumulator store (R277) -/

/-- An accumulator element of a block; one not listed is +0.0. -/
def Block.accAt (b : Block) (row col : Nat) : BitVec 32 := Table.getD b.acc (128 * row + col) 0

/-- Sets an accumulator element. -/
def Block.setAcc (b : Block) (row col : Nat) (v : BitVec 32) : Block :=
  { b with acc := if v == 0 then Table.del b.acc (128 * row + col) else Table.put b.acc (128 * row + col) v }

/-- The rows of the block that an operation writes. -/
def Work.rows : Work → Nat × Nat
  | .matrix _ a _ row _ => (row, a.rows)
  | .clearRows row n _ => (row, n)
  | _ => (0, 0)

/-- The number of the array's operation. -/
def Work.number : Work → Option Nat
  | .matrix _ _ _ _ n => some n
  | .clearRows _ _ n => some n
  | _ => none

/-- Some incomplete operation of a team writes a row from lo on and below hi (R281). -/
def State.rowsBusy (s : State) (uid lo hi : Nat) : Bool :=
  s.ops.any fun o => o.2.uid == uid && o.2.cls == 1 &&
    Nat.blt o.2.work.rows.1 hi && Nat.blt lo (o.2.work.rows.1 + o.2.work.rows.2)

/-- A team has matrix operations that are not complete (R150, R278). -/
def State.matrixBusy (s : State) (uid : Nat) : Bool := s.ops.any fun o => o.2.uid == uid && o.2.cls == 1

/-- The array's queue of a core is full (R287). -/
def State.matrixFull (s : State) (core : Nat) : Bool := Nat.ble 8 (s.core core).matrixQueue.length

/-- Accepts an operation of the array whose parts have been begun under a number (R285, R287, R291). -/
def State.accept (s : State) (core number : Nat) (counts : Bool) : State :=
  s.putCore core { s.core core with
    matrixQueue := (s.core core).matrixQueue ++ [number]
    mmaops := if counts then (s.core core).mmaops + 1 else (s.core core).mmaops }

/-- The next number for an operation of the array. -/
def State.nextNumber (s : State) : State × Nat := ({ s with serial := s.serial + 1 }, s.serial)

/-! ### Gangs (R284, R285) -/

/-- GANG (R284). -/
def execGang (f : FmtE) (s : State) : Host.Outcome State Fault Refusal :=
  run (.gang f) s fun k t =>
    let w := t.s f.p
    let n := bitsOf w 0 3
    let ms := (List.range n).map fun i => bitsOf w (8 * i + 8) 6
    let team := fun i => match s.team? (64 * coreOf k + i) with
      | some u => if t.mates u then some u.uid else none
      | none => none
    if n == 0 || n == 7 then .trap 4 {} s
    else if ms.eraseDups != ms || !ms.contains (indexOf k) || ms.any (fun i => (team i).isNone) then .trap 50 {} s
    else .done (s.putTeam k { t with gang := some { members := ms.map fun i => (i, (team i).getD 0) } })

/-- The gang register of a team: at placement itself alone (R284). -/
def Team.gangList (t : Team) (k : Nat) : List (Nat × Nat) :=
  match t.gang with
  | some g => g.members
  | none => [(indexOf k, t.uid)]

/-- Starts the operation of a gang whose members have all arrived (R286): each member's M batch holds its part. -/
def State.startGang (s : State) (core : Nat) (b : OperandMap) (arrived : List Arrival) (order : List Nat) : State :=
  let r := s.nextNumber
  let s1 := order.foldl (fun (a : State) i =>
    match arrived.find? fun x => x.index == i, a.team? (64 * core + i) with
    | some x, some t => a.begin (64 * core + i) t 1 (.matrix x.zero x.a b x.row r.2)
    | _, _ => a) r.1
  s1.accept core r.2 true

/-- Raises a cause at the MMA of every member that has arrived at a latch, and frees it (R285). -/
def State.failLatch (s : State) (core n c : Nat) : State :=
  match Table.find? (s.core core).latches n with
  | none => s
  | some l =>
    (s.wakeWith (l.arrived.map fun x => 64 * core + x.index) (some (c, 0))).putCore core
      { s.core core with latches := Table.del (s.core core).latches n }

/-- The arrival of a member at a rendezvous (R285). -/
def State.arriveLatch (s : State) (k : Nat) (t : Team) (x : Arrival) (b : OperandMap) : Did :=
  let core := coreOf k
  let mine := (t.gangList k).map Prod.fst
  let gone := (t.gangList k).any fun m => (s.team? (64 * core + m.1)).all fun u => u.uid != m.2
  let met := (s.core core).latches.filter fun e => e.2.members.any fun i => mine.contains i
  match met with
  | [] =>
    if gone then .trap 51 {} s else
    let n := ((List.range 32).find? fun i => (Table.find? (s.core core).latches i).isNone).getD 32
    .park (.latch n) (s.putCore core { s.core core with
      latches := Table.put (s.core core).latches n { members := mine, b := b, arrived := [x] } })
  | [(n, l)] =>
    if l.members == mine && l.b == b then
      if gone then .trap 51 {} (s.failLatch core n 51)
      else if Nat.blt (l.arrived.length + 1) mine.length then
        .park (.latch n) (s.putCore core { s.core core with
          latches := Table.put (s.core core).latches n { l with arrived := l.arrived ++ [x] } })
      else if s.matrixFull core then .park .engine s
      else
        let s1 := s.startGang core b (l.arrived ++ [x]) mine
        let s2 := s1.putCore core { s1.core core with latches := Table.del (s1.core core).latches n }
        .done (l.arrived.foldl (fun (a : State) y =>
          a.modTeam (64 * core + y.index) fun u => { u with wait := .ready, phase := 1 }) s2)
    else .trap 50 {} (s.failLatch core n 50)
  | ls => .trap 50 {} (ls.foldl (fun (a : State) e => a.failLatch core e.1 50) s)

/-- MMA and MMAZ (R275, R276, R285, R287). -/
def matrixForm (i : Instr) (f : FmtE) (zero : Bool) (s : State) : Host.Outcome State Fault Refusal :=
  run i s fun k t =>
    if t.phase == 1 then .done s else
    match Table.find? t.maps (f.p.extractLsb' 0 3).toNat, Table.find? t.maps (f.q.extractLsb' 0 3).toNat with
    | some a, some b =>
      let ob := (t.s f.w).toNat
      if a.role != 0 || b.role != 1 || a.ksize != b.ksize then .trap 54 {} s
      else if Nat.blt t.window.2 (ob + a.rows) then .trap 49 {} s
      else if Nat.ble (t.gangList k).length 1 then
        if s.matrixFull (coreOf k) then .park .engine s else
        let r := s.nextNumber
        .done ((r.1.begin k t 1 (.matrix zero a b (t.window.1 + ob) r.2)).accept (coreOf k) r.2 true)
      else s.arriveLatch k t { index := indexOf k, zero := zero, a := a, row := t.window.1 + ob } b
    | _, _ => .trap 54 {} s

/-- MMA (R275). -/
def execMma (f : FmtE) (s : State) : Host.Outcome State Fault Refusal := matrixForm (.mma f) f false s

/-- MMAZ (R275). -/
def execMmaz (f : FmtE) (s : State) : Host.Outcome State Fault Refusal := matrixForm (.mmaz f) f true s

/-! ### Accumulator instructions (R278 to R281) -/

/-- ACCZ (R279): a block without rows gives every accumulator instruction cause 49 (R277). -/
def execAccz (f : FmtE) (s : State) : Host.Outcome State Fault Refusal :=
  run (.accz f) s fun k t =>
    if s.accRows t == 0 then .trap 49 {} s
    else if s.matrixFull (coreOf k) then .park .engine s
    else
      let r := s.nextNumber
      .done ((r.1.begin k t 1 (.clearRows t.window.1 t.window.2 r.2)).accept (coreOf k) r.2 false)

/-- Row of the block and first column of a pass of ACCRD and ACCWR (R280). -/
def accPlace (t : Team) (r row : Nat) : Nat × Nat := (t.window.1 + r + row / 2, 64 * (row % 2))

/-- Every row of every executed pass lies in the window (R280). -/
def accInside (t : Team) (r : Nat) : Bool := t.passes.all fun row => Nat.blt (r + row / 2) t.window.2

/-- The rows that ACCRD or ACCWR touches are still to be written by an operation of the team (R281). -/
def State.accWaits (s : State) (t : Team) (r : Nat) : Bool :=
  t.passes.any fun row => s.rowsBusy t.uid (accPlace t r row).1 ((accPlace t r row).1 + 1)

/-- ACCRD (R280, R281). -/
def execAccrd (f : FmtE) (s : State) : Host.Outcome State Fault Refusal :=
  run (.accrd f) s fun k t =>
    let r := (t.s f.q).toNat
    match s.block? t.block with
    | none => .trap 49 {} s
    | some b =>
      if s.accRows t == 0 || !accInside t r then .trap 49 {} s
      else if s.accWaits t r then .park .engine s
      else
        let value := fun l =>
          let p := accPlace t r (l / 32)
          BitVec.ofNat 64 ((b.accAt p.1 (p.2 + 2 * (l % 32))).toNat + 2 ^ 32 * (b.accAt p.1 (p.2 + 2 * (l % 32) + 1)).toNat)
        passLoop k (fun s u row =>
          s.writePass k row (u.writeV f.p.toNat (t.active &&& rowsMask row (row + 1)) value) [(f.p.toNat, row)]) t.passesLeft s

/-- ACCWR (R280, R281): a matrix-class operation, complete once it has issued. -/
def execAccwr (f : FmtE) (s : State) : Host.Outcome State Fault Refusal :=
  run (.accwr f) s fun _ t =>
    let r := (t.s f.q).toNat
    match s.block? t.block with
    | none => .trap 49 {} s
    | some b =>
      if s.accRows t == 0 || !accInside t r then .trap 49 {} s
      else match t.poisonStop [f.p.toNat] with
        | some (row, q) => .trap q.cause (q.info row) s
        | none =>
          if s.accWaits t r then .park .engine s else
          .done (s.putBlock t.block ((lanesOf t.active t.width).foldl (fun (x : Block) l =>
            let p := accPlace t r (l / 32)
            let w := t.lane f.p.toNat l
            (x.setAcc p.1 (p.2 + 2 * (l % 32)) (w.extractLsb' 0 32)).setAcc p.1 (p.2 + 2 * (l % 32) + 1)
              (w.extractLsb' 32 32)) b))

/-- The operations of the array that a team has issued and that are not complete (R278). -/
def State.matrixOps (s : State) (uid : Nat) : List Nat := (s.ops.filter fun o => o.2.uid == uid && o.2.cls == 1).map Prod.fst

/-- WINSET (R278): it completes once every operation that the target issued before it is complete, and writes the window
then. -/
def execWinset (f : FmtE) (s : State) : Host.Outcome State Fault Refusal :=
  run (.winset f) s fun k t =>
    let w := t.s f.p
    let target := 64 * coreOf k + bitsOf w 0 6
    let base := bitsOf w 16 10
    let rows := bitsOf w 32 10
    let write := s.modTeam target fun x => { x with window := (base, rows) }
    if t.phase == 1 then .done write else
    match s.team? target with
    | none => .trap 50 {} s
    | some u =>
      if t.leader != indexOf k || !t.mates u then .trap 50 {} s
      else if Nat.blt (s.accRows t) (base + rows) then .trap 49 {} s
      else if (s.matrixOps u.uid).isEmpty then .done write
      else .park (.ops (s.matrixOps u.uid)) (s.modTeam k fun x => { x with phase := 1 })

/-! ### The array (R282, R286 to R289) -/

/-- MATRIX_OP_START (R287): the array of a core takes the next accepted operation, which frees a place of its queue. -/
def execMatrixOpStart (s : State) : Host.Outcome State Fault Refusal :=
  match s.detail with
  | .place core _ =>
    let x := s.core core
    if s.away (s.part (s.partOf core)).live then .next s else
    match x.matrixRun, x.matrixQueue with
    | none, n :: rest =>
      .next ((s.putCore core { x with matrixRun := some n, matrixQueue := rest }).wake fun k t =>
        isCoreKey k && coreOf k == core && t.wait == .engine)
    | _, _ => .next s
  | _ => .next s

/-- Performs one member's part, as far as n K-blocks (R275, R286, R289). DESIGN CHOICE: uncorrectable data stops every output
after the same n, an output of MMAZ that has none is +0.0, and the flags of the n blocks count (log 120). -/
def State.matrixAct (s : State) (o : Op) (n : Nat) : State :=
  match s.block? o.block with
  | none => s
  | some blk =>
    match o.work with
    | .matrix zero a b row _ =>
      let sp := fun i => Table.getD (Table.getD blk.scratch o.part []) i 0
      let cells := (List.range a.rows).flatMap fun i => (List.range 128).map fun j =>
        (row + i, j, outputAfter sp zero a b i j n (blk.accAt (row + i) j).toNat)
      let blk' := cells.foldl (fun (x : Block) c => x.setAcc c.1 c.2.1 (BitVec.ofNat 32 c.2.2.1)) blk
      let fl := cells.foldl (fun (g : BitVec 6) c => g ||| c.2.2.2) 0
      (s.putBlock o.block blk').modUid o.uid fun t => t.flag fl
    | .clearRows row rows _ =>
      s.putBlock o.block { blk with acc := blk.acc.filter fun e => !(Nat.ble (128 * row) e.1 && Nat.blt e.1 (128 * (row + rows))) }
    | _ => s

/-- MATRIX_OP_COMPLETE (R282): the array ends its operation in every member; or uncorrectable data stops it after some
K-blocks and fails its batch in every member (R289). -/
def execMatrixOpComplete (s : State) : Host.Outcome State Fault Refusal :=
  let stop := fun (core : Nat) (fail : Option Nat) =>
    if s.away (s.part (s.partOf core)).live then s else
    match (s.core core).matrixRun with
    | none => s
    | some n =>
      let parts := s.ops.filter fun o => o.2.core == core && o.2.cls == 1 && o.2.work.number == some n
      parts.foldl (fun (a : State) o =>
        (a.matrixAct o.2 (fail.getD 1048576)).endOp o.1 (fail.map fun _ => (21, 0)))
        (s.putCore core { s.core core with matrixRun := none })
  match s.detail with
  | .place core _ => .next (stop core none)
  | .numbers [core, blocks] => .next (stop core (some blocks))
  | _ => .next s

end Sys2Proof.Machine
end

