-- ==== Sys2Proof/Machine/Moves.lean ====
section
/-! DEFINITION. Row 0x10: register moves, index registers and the controls of the reuse table (R122, R123, R138 to R142). -/

namespace Sys2Proof.Machine

/-- BASE and limit of an index register (R122). -/
def Team.xBase (t : Team) (n : Nat) : Nat := ((t.x.getD n 0).extractLsb' 0 8).toNat
def Team.xLimit (t : Team) (n : Nat) : Nat :=
  match ((t.x.getD n 0).extractLsb' 8 8).toNat with
  | 0 => 256
  | c => c

/-- Copies whole lanes of register src to register d (R139). -/
def copyLanes (s : State) (k : Nat) (t : Team) (i : Instr) (g : BitVec 4) (d src : Nat) : Did :=
  vectorPasses s k t { word := keyWord i, sources := [src], dest := d, guard := g } false (t.takers g)
    fun l => (t.lane src l, 0)

/-- The checks of an indexed register number (R123). -/
def indexCause (t : Team) (x i : Nat) : Option Nat :=
  if Nat.ble (t.xLimit x) i then some 40 else if Nat.ble t.vdecl i then some 41 else none

/-- MOV (R139). -/
def execMov (f : FmtV) (s : State) : Host.Outcome State Fault Refusal :=
  run (.mov f) s fun k t => copyLanes s k t (.mov f) f.g f.d.toNat f.a.toNat

/-- XRD (R123, R139). -/
def execXrd (f : FmtV) (s : State) : Host.Outcome State Fault Refusal :=
  run (.xrd f) s fun k t =>
    let i := t.xBase f.a.toNat + f.b.toNat
    match indexCause t f.a.toNat i with
    | some c => .trap c {} s
    | none => copyLanes s k t (.xrd f) f.g f.d.toNat i

/-- XWR (R123, R139). -/
def execXwr (f : FmtV) (s : State) : Host.Outcome State Fault Refusal :=
  run (.xwr f) s fun k t =>
    let i := t.xBase f.d.toNat + f.b.toNat
    match indexCause t f.d.toNat i with
    | some c => .trap c {} s
    | none => copyLanes s k t (.xwr f) f.g i f.a.toNat

/-- XSET (R140). -/
def execXset (f : FmtV) (s : State) : Host.Outcome State Fault Refusal :=
  run (.xset f) s fun k t => .done (s.putTeam k { t with x := t.x.set f.d.toNat ((t.s f.a).extractLsb' 0 16) })

/-- XADD (R140): BASE moves modulo 256, LCODE stays. -/
def execXadd (f : FmtV) (s : State) : Host.Outcome State Fault Refusal :=
  run (.xadd f) s fun k t =>
    let x := t.x.getD f.d.toNat 0
    .done (s.putTeam k { t with
      x := t.x.set f.d.toNat (x.extractLsb' 8 8 ++ (x.extractLsb' 0 8 + (t.s f.a).extractLsb' 0 8)) })

/-- XGET (R140). -/
def execXget (f : FmtV) (s : State) : Host.Outcome State Fault Refusal :=
  run (.xget f) s fun k t => .done (s.putTeam k (t.setS f.d ((t.x.getD f.a.toNat 0).setWidth 64)))

/-- RUSE (R141). -/
def execRuse (f : FmtV) (s : State) : Host.Outcome State Fault Refusal :=
  run (.ruse f) s fun k t => .done (s.putTeam k { t with policy := f.t.toNat })

/-- RCLR (R142): the team's entries, the context's load-like entries and its read-only marked lines leave the core. -/
def execRclr (f : FmtV) (s : State) : Host.Outcome State Fault Refusal :=
  run (.rclr f) s fun k t =>
    let c := coreOf k
    .done (s.putCore c { s.core c with
      reuse := (s.core c).reuse.filter fun e => !(e.team == t.uid || (e.load && e.ctx == t.ctx))
      lines := (s.core c).lines.filter fun l => !(l.ctx == t.ctx && l.ro) })

end Sys2Proof.Machine
end

