-- ==== Sys2Proof/Machine/Numeric.lean ====
section
/-! DEFINITION. Rows 0x11 to 0x14: floating-point arithmetic, special functions, conversions and dot products (R152 to
R163). -/

namespace Sys2Proof.Machine

/-- Applies an FP operation to each sub-element of a destination and two sources (R152). -/
def eachFp (f : FpFmt) (op : Nat → Nat → Nat → Nat × BitVec 6) (d a b : Word) : Word × BitVec 6 :=
  let w := f.width
  (pack w fun e => (op (elem w d e) (elem w a e) (elem w b e)).1,
   (List.range (64 / w)).foldl (fun fl e => fl ||| (op (elem w d e) (elem w a e) (elem w b e)).2) 0)

/-- FADD (R152): round(a + b). -/
def execFadd (f : FmtV) (s : State) : Host.Outcome State Fault Refusal :=
  vectorForm (.fadd f) f [f.a.toNat, f.b.toNat] s (eachFp (fpOf f.t) fun _ a b => (fpOf f.t).add a b)

/-- FSUB (R152): round(a - b). -/
def execFsub (f : FmtV) (s : State) : Host.Outcome State Fault Refusal :=
  vectorForm (.fsub f) f [f.a.toNat, f.b.toNat] s (eachFp (fpOf f.t) fun _ a b => (fpOf f.t).sub a b)

/-- FMUL (R152): round(a x b). -/
def execFmul (f : FmtV) (s : State) : Host.Outcome State Fault Refusal :=
  vectorForm (.fmul f) f [f.a.toNat, f.b.toNat] s (eachFp (fpOf f.t) fun _ a b => (fpOf f.t).mul a b)

/-- FMAC (R152): round(d + a x b), one rounding. -/
def execFmac (f : FmtV) (s : State) : Host.Outcome State Fault Refusal :=
  vectorForm (.fmac f) f [f.d.toNat, f.a.toNat, f.b.toNat] s (eachFp (fpOf f.t) fun d a b => (fpOf f.t).mac d a b)

/-- FNMAC (R152): round(d - a x b), one rounding. -/
def execFnmac (f : FmtV) (s : State) : Host.Outcome State Fault Refusal :=
  vectorForm (.fnmac f) f [f.d.toNat, f.a.toNat, f.b.toNat] s (eachFp (fpOf f.t) fun d a b => (fpOf f.t).nmac d a b)

/-- FMIN (R153): minimumNumber. -/
def execFmin (f : FmtV) (s : State) : Host.Outcome State Fault Refusal :=
  vectorForm (.fmin f) f [f.a.toNat, f.b.toNat] s (eachFp (fpOf f.t) fun _ a b => (fpOf f.t).minMax false a b)

/-- FMAX (R153): maximumNumber. -/
def execFmax (f : FmtV) (s : State) : Host.Outcome State Fault Refusal :=
  vectorForm (.fmax f) f [f.a.toNat, f.b.toNat] s (eachFp (fpOf f.t) fun _ a b => (fpOf f.t).minMax true a b)

/-- FABS (R153): the sign bit cleared. -/
def execFabs (f : FmtV) (s : State) : Host.Outcome State Fault Refusal :=
  vectorForm (.fabs f) f [f.a.toNat] s (eachFp (fpOf f.t) fun _ a _ => (a % 2 ^ ((fpOf f.t).width - 1), 0))

/-- FNEG (R153): the sign bit inverted. -/
def execFneg (f : FmtV) (s : State) : Host.Outcome State Fault Refusal :=
  vectorForm (.fneg f) f [f.a.toNat] s (eachFp (fpOf f.t) fun _ a _ => (a ^^^ 2 ^ ((fpOf f.t).width - 1), 0))

/-- FCPYS (R153): magnitude bits of a with the sign of b. -/
def execFcpys (f : FmtV) (s : State) : Host.Outcome State Fault Refusal :=
  vectorForm (.fcpys f) f [f.a.toNat, f.b.toNat] s (eachFp (fpOf f.t) fun _ a b => (a % 2 ^ ((fpOf f.t).width - 1) + b / 2 ^ ((fpOf f.t).width - 1) * 2 ^ ((fpOf f.t).width - 1), 0))

/-- FRCP (R154): 1 / a. -/
def execFrcp (f : FmtV) (s : State) : Host.Outcome State Fault Refusal :=
  vectorForm (.frcp f) f [f.a.toNat] s (eachFp (fpOf f.t) fun _ a _ => (fpOf f.t).special 0 a)

/-- FRSQ (R154): 1 / sqrt a. -/
def execFrsq (f : FmtV) (s : State) : Host.Outcome State Fault Refusal :=
  vectorForm (.frsq f) f [f.a.toNat] s (eachFp (fpOf f.t) fun _ a _ => (fpOf f.t).special 1 a)

/-- FSQRT (R154): sqrt a. -/
def execFsqrt (f : FmtV) (s : State) : Host.Outcome State Fault Refusal :=
  vectorForm (.fsqrt f) f [f.a.toNat] s (eachFp (fpOf f.t) fun _ a _ => (fpOf f.t).special 2 a)

/-- FEXP2 (R154): 2^a. -/
def execFexp2 (f : FmtV) (s : State) : Host.Outcome State Fault Refusal :=
  vectorForm (.fexp2 f) f [f.a.toNat] s (eachFp (fpOf f.t) fun _ a _ => (fpOf f.t).special 3 a)

/-- FLOG2 (R154): log2 a. -/
def execFlog2 (f : FmtV) (s : State) : Host.Outcome State Fault Refusal :=
  vectorForm (.flog2 f) f [f.a.toNat] s (eachFp (fpOf f.t) fun _ a _ => (fpOf f.t).special 4 a)

/-- FSIN (R154): sin(pi a). -/
def execFsin (f : FmtV) (s : State) : Host.Outcome State Fault Refusal :=
  vectorForm (.fsin f) f [f.a.toNat] s (eachFp (fpOf f.t) fun _ a _ => (fpOf f.t).special 5 a)

/-- FCOS (R154): cos(pi a). -/
def execFcos (f : FmtV) (s : State) : Host.Outcome State Fault Refusal :=
  vectorForm (.fcos f) f [f.a.toNat] s (eachFp (fpOf f.t) fun _ a _ => (fpOf f.t).special 6 a)

/-- FTANH (R154): tanh a. -/
def execFtanh (f : FmtV) (s : State) : Host.Outcome State Fault Refusal :=
  vectorForm (.ftanh f) f [f.a.toNat] s (eachFp (fpOf f.t) fun _ a _ => (fpOf f.t).special 7 a)

/-- Width of an integer type of row 0x13, and whether it is signed (R157). -/
def intOf (t : BitVec 2) : Nat × Bool :=
  match t.toNat with
  | 0 => (32, true)
  | 1 => (16, true)
  | 2 => (8, true)
  | _ => (8, false)

/-- An integer of a type, as its bits give it. -/
def readInt (t : Nat × Bool) (x : Nat) : Int := if t.2 then sgn t.1 x else Int.ofNat x

/-- The range of an integer type (R160). -/
def rangeOf (t : Nat × Bool) : Int × Int :=
  if t.2 then (-(Int.ofNat (2 ^ (t.1 - 1))), Int.ofNat (2 ^ (t.1 - 1)) - 1) else (0, Int.ofNat (2 ^ t.1) - 1)

/-- An exact integer clamped to a type, with SAT (R160, R161). -/
def clampTo (t : Nat × Bool) (z : Int) : Nat × BitVec 6 :=
  let r := clamp z (rangeOf t).1 (rangeOf t).2
  (low t.1 r.1, satFlag r.2)

/-- FP to integer (R160). -/
def convertFI (src : FpFmt) (t : Nat × Bool) (rm : Rm) (x : Nat) : Nat × BitVec 6 :=
  match src.decode x with
  | .nan _ => (0, flNV)
  | .inf n => (low t.1 (if n then (rangeOf t).1 else (rangeOf t).2), flSAT)
  | .fin n m e =>
    let z := toInteger rm n m e
    let r := clampTo t z.1
    (r.1, if r.2 == 0 && z.2 then flNX else r.2)

/-- A conversion of each pair of sub-elements; the rest of the destination is cleared (R158). -/
def eachConvert (ws wd : Nat) (op : Nat → Nat × BitVec 6) (a : Word) : Word × BitVec 6 :=
  let n := Nat.min (64 / ws) (64 / wd)
  (pack wd fun e => if Nat.blt e n then (op (elem ws a e)).1 else 0,
   (List.range n).foldl (fun fl e => fl ||| (op (elem ws a e)).2) 0)

/-- A form of row 0x13 (R157, R158). -/
def convertForm (i : Instr) (f : FmtCv) (s : State) (op : Word → Word × BitVec 6) : Host.Outcome State Fault Refusal :=
  run i s fun k t =>
    vectorPasses s k t { word := keyWord i, sources := [f.a.toNat], dest := f.d.toNat, guard := f.g } true (t.takers f.g)
      fun l => op (t.lane f.a.toNat l)

/-- CVTFF (R159). -/
def execCvtff (f : FmtCv) (s : State) : Host.Outcome State Fault Refusal :=
  convertForm (.cvtff f) f s
    (eachConvert (fpOf f.st).width (fpOf f.t).width (convertFF (fpOf f.st) (fpOf f.t) (rmOf f.rm)))

/-- CVTFI (R160). -/
def execCvtfi (f : FmtCv) (s : State) : Host.Outcome State Fault Refusal :=
  convertForm (.cvtfi f) f s (eachConvert (fpOf f.st).width (intOf f.t).1 (convertFI (fpOf f.st) (intOf f.t) (rmOf f.rm)))

/-- CVTIF (R159). -/
def execCvtif (f : FmtCv) (s : State) : Host.Outcome State Fault Refusal :=
  convertForm (.cvtif f) f s
    (eachConvert (intOf f.st).1 (fpOf f.t).width fun x =>
      (fpOf f.t).roundInt (rmOf f.rm) (readInt (intOf f.st) x) 0 false)

/-- CVTII (R161). -/
def execCvtii (f : FmtCv) (s : State) : Host.Outcome State Fault Refusal :=
  convertForm (.cvtii f) f s
    (eachConvert (intOf f.st).1 (intOf f.t).1 fun x => clampTo (intOf f.t) (readInt (intOf f.st) x))

/-- The exact sum of products of the sub-elements of two lanes, each operand signed or not (R162). -/
def dotInt (w : Nat) (t : BitVec 2) (a b : Word) : Int :=
  (List.range (64 / w)).foldl (fun z e =>
    z + (if t == 1 then Int.ofNat (elem w a e) else sgn w (elem w a e)) *
      (if t == 0 then sgn w (elem w b e) else Int.ofNat (elem w b e))) 0

/-- A dot product added to bits [31:0] of the destination; bits [63:32] stay (R162). -/
def dotForm (w : Nat) (t : BitVec 2) (d a b : Word) : Word × BitVec 6 :=
  (pack 32 fun e => if e == 0 then low 32 (Int.ofNat (elem 32 d 0) + dotInt w t a b) else elem 32 d 1, 0)

/-- IDOT4 (R162): products of 4-bit sub-elements, wrapping. -/
def execIdot4 (f : FmtV) (s : State) : Host.Outcome State Fault Refusal :=
  vectorForm (.idot4 f) f [f.d.toNat, f.a.toNat, f.b.toNat] s (dotForm 4 f.t)

/-- IDOT8 (R162): products of 8-bit sub-elements, wrapping. -/
def execIdot8 (f : FmtV) (s : State) : Host.Outcome State Fault Refusal :=
  vectorForm (.idot8 f) f [f.d.toNat, f.a.toNat, f.b.toNat] s (dotForm 8 f.t)

/-- IDOT16 (R162): products of 16-bit sub-elements, wrapping. -/
def execIdot16 (f : FmtV) (s : State) : Host.Outcome State Fault Refusal :=
  vectorForm (.idot16 f) f [f.d.toNat, f.a.toNat, f.b.toNat] s (dotForm 16 f.t)

/-- FDOTB (R163): FP32 sub-element 0 of D plus four BF16 products, rounded once. -/
def execFdotb (f : FmtV) (s : State) : Host.Outcome State Fault Refusal :=
  vectorForm (.fdotb f) f [f.d.toNat, f.a.toNat, f.b.toNat] s fun d a b =>
    let r := dotB (elem 32 d 0) ((List.range 4).map (elem 16 a)) ((List.range 4).map (elem 16 b))
    (pack 32 fun e => if e == 0 then r.1 else elem 32 d 1, r.2)

end Sys2Proof.Machine
end

