-- ==== Sys2Proof/Machine/Registers.lean ====
section
/-! DEFINITION. SRD and SWR and every special register (R99, R145, R245, R291, R317, R345, R368, R373, R377, R394, R411,
R428, R434, R437, R440), and the digest unit (R440). -/

namespace Sys2Proof.Machine

/-! ### What an access addresses (R377, R394) -/

/-- The units that an access of SRD or SWR addresses: team key, core, die, context, partition and queue. -/
structure RegPlace where
  key : Nat
  core : Nat
  die : Nat
  ctx : Nat
  part : Nat
  queue : Nat
  /-- The control core that issues, for what belongs to it alone. -/
  own : Nat
  deriving DecidableEq, Repr

/-- A core addresses the issuing team's units; a control core those that SYSSEL and LQSEL select (R377). -/
def State.placeOf (s : State) (k : Nat) (t : Team) : RegPlace :=
  if isCoreKey k then
    { key := k, core := coreOf k, die := dieOf k, ctx := t.ctx, part := t.part, queue := 0, own := dieOf k }
  else
    let w := s.sel (dieOf k)
    let core := 64 * bitsOf w 8 2 + bitsOf w 10 6
    { key := 64 * core + bitsOf w 16 6, core := core, die := bitsOf w 8 2, ctx := bitsOf w 0 8, part := bitsOf w 22 4
      queue := s.lqsel.getD (dieOf k) 0, own := dieOf k }

/-! ### The digest unit (R440) -/

/-- The digest unit of a die's control core. -/
def State.digest (s : State) (die : Nat) : Digest := s.digests.getD die {}

/-- Sets the digest unit of a die's control core. -/
def State.putDigest (s : State) (die : Nat) (x : Digest) : State := { s with digests := s.digests.set die x }

/-- A write of DGLEN: the digest of the bytes from DGADDR starts, afresh where one runs. -/
def State.writeDglen (s : State) (die : Nat) (v : Word) : State :=
  (s.putDigest die { s.digest die with
    len := v &&& 0xFFFFF, start := (s.digest die).addr, out := [], reads := 0, running := true }).wake fun k t =>
    k == sysKey die && t.wait == Wait.digest

/-- DGLEN_WRITE (R440). -/
def execDglenWrite (s : State) : Host.Outcome State Fault Refusal :=
  match s.detail with
  | .value die _ v => .next (if Nat.blt die 4 then s.writeDglen die v else s)
  | _ => .next s

/-- Every byte of a run lies in a populated range, and none in a line marked uncorrectable. -/
def State.readable (s : State) (a n : Nat) : Bool :=
  (List.range n).all fun i => isPopulated (a + i) && !(s.badData (a + i))

/-- The output of the unit over its bytes at their homes; over bytes that cannot be read, four free doublewords. -/
def State.digestOut (s : State) (x : Digest) : List Word :=
  let a := x.start.toNat
  let n := x.len.toNat
  if s.readable a n then
    let bs := shake256 (s.bytes a n) 32
    (List.range 4).map fun i => BitVec.ofNat 64 (ofBytes ((bs.drop (8 * i)).take 8))
  else (List.range 4).map fun i => Config.freeWord (s.fresh + i)

/-- DIGEST_COMPLETE (R440). -/
def execDigestComplete (s : State) : Host.Outcome State Fault Refusal :=
  match s.detail with
  | .place die _ =>
    let x := s.digest die
    if !x.running || !(Nat.blt die 4) then .next s else
    let s1 := s.putDigest die { x with out := s.digestOut x, running := false }
    .next ({ s1 with fresh := s1.fresh + 4 }.wake fun k t => k == sysKey die && t.wait == Wait.digest)
  | _ => .next s

/-- A read of DGOUT once the digest is complete: its next doubleword. -/
def State.readDgout (s : State) (die : Nat) : State × Word :=
  let x := s.digest die
  (s.putDigest die { x with reads := x.reads + 1 }, x.out.getD (x.reads % 4) 0)

/-- DGOUT_READ (R440). -/
def execDgoutRead (s : State) : Host.Outcome State Fault Refusal :=
  match s.detail with
  | .place die _ => .next (if (s.digest die).running then s else (s.readDgout die).1)
  | _ => .next s

/-! ### Reading -/

/-- A register of a team, or of a thread (R99, R145, R291, R345, R373). -/
def Team.reg (t : Team) (k n : Nat) : Option Word :=
  let w := fun (x : Nat) => some (BitVec.ofNat 64 x)
  let lc := fun i => w ((t.loops.reverse.map fun l => l.count).getD i 0)
  match n with
  | 0x010 => lc 0
  | 0x011 => lc 1
  | 0x012 => lc 2
  | 0x013 => w t.loops.length
  | 0x014 => w t.stack.length
  | 0x015 => some t.dsbase
  | 0x022 => w t.policy
  | 0x023 => w t.vdecl
  | 0x030 => some (t.nflags.setWidth 64)
  | 0x050 => w (indexOf k + 256 * t.leader)
  | 0x051 => match t.gang with
    | some g => w (g.members.length + (g.members.zipIdx.foldl (fun a m => a + m.1.1 * 2 ^ (8 * m.2 + 8)) 0))
    | none => w (1 + 256 * indexOf k)
  | 0x052 => w (t.window.1 + 65536 * t.window.2)
  | 0x053 => w (t.maps.foldl (fun a m => a + 2 ^ m.1) 0)
  | 0x070 => some t.ldvlim
  | 0x071 => some t.pself
  | 0x090 => some t.trap.entry
  | 0x091 => w (t.trap.cause + if t.trap.inh then 256 else 0)
  | 0x092 => some t.trap.tpc
  | 0x093 => some t.trap.addr
  | 0x094 => w (t.trap.pass + (if t.trap.eng then 32 + 64 * t.trap.cls else 0) + 65536 * t.trap.code)
  | 0x095 => some t.trap.issue
  | 0x096 => some t.trap.batch
  | 0x097 => some t.trap.scratch
  | _ => none

/-- The level of the issuer (R369). -/
def levelWord (t : Team) : Word := BitVec.ofNat 64 t.level

/-- A register of a core (R99, R145, R291, R394, R411, R437). -/
def State.coreReg (s : State) (core n : Nat) : Option Word :=
  let x := s.core core
  match n with
  | 0x001 => some (BitVec.ofNat 64 s.clock)
  | 0x003 => some (BitVec.ofNat 64 core)
  | 0x016 => some x.slips
  | 0x020 => some x.ruhits
  | 0x021 => some x.rulook
  | 0x024 => some (BitVec.ofNat 64 (sliceRoom - (s.core core).resident))
  | 0x025 => some x.slspill
  | 0x026 => some x.slbase
  | 0x027 => some (BitVec.ofNat 64 x.spillres)
  | 0x054 => some x.mmaops
  | 0x0BC => some (BitVec.ofNat 64 x.tasks.length)
  | _ => none

/-- A register of a context, of a context and core, of a context and die, or of a queue (R99, R245, R317, R345, R368,
R394, R411, R434). -/
def State.ctxReg (s : State) (p : RegPlace) (n : Nat) : Option Word :=
  let x := s.ctx p.ctx
  let q := s.queue p.ctx p.queue
  let w := fun (i : Nat) => some (BitVec.ofNat 64 i)
  match n with
  | 0x017 => some (Table.getD x.dspool p.core 0)
  | 0x040 => some x.bargrant
  | 0x060 => some x.csArena
  | 0x061 => some x.csSize
  | 0x062 => w (x.dir.filter fun e => !e.quiet).length
  | 0x063 => w (x.dir.filter fun e => e.quiet).length
  | 0x072 => some x.pgBase
  | 0x073 => w x.pgSize
  | 0x074 => some x.psilent
  | 0x076 => w (if x.pautox then 1 else 0)
  | 0x077 => some (Table.getD x.qgrant p.die 0)
  | 0x078 => some x.psdef
  | 0x085 => some x.fwdcnt
  | 0x086 => w x.gid
  | 0x0A2 => some x.ptroot
  | 0x0A3 => w ((if x.alive then 1 else 0) + (if x.key.isSome then 2 else 0) + (if x.killed then 4 else 0))
  | 0x0B1 => some q.base
  | 0x0B2 => w q.size
  | 0x0B3 => w q.head
  | 0x0B4 => w q.tail
  | 0x0B5 => w q.seq
  | 0x0B6 => w (q.prio + (if q.enable then 8 else 0) + (if q.serial then 16 else 0) + (if q.devpost then 32 else 0) +
      (if q.halted then 64 else 0))
  | 0x0BA => some (s.ringOf p.ctx p.die).base
  | 0x0BB => w (s.ringOf p.ctx p.die).size
  | _ => none

/-- State of a partition as PARTSTAT codes it (R394). -/
def Partition.word (x : Partition) : Nat :=
  x.live + 256 * x.cellar + 65536 * (if x.swapping || x.phase == 2 then 2 else if x.stopped then 1 else 0)

/-- A register of a die, of a control core, of a partition or of the package (R317, R345, R368, R394, R396, R411, R428,
R440). -/
def State.packageReg (s : State) (p : RegPlace) (n : Nat) : Option Word :=
  let w := fun (i : Nat) => some (BitVec.ofNat 64 i)
  match n with
  | 0x002 => w s.fclk
  | 0x064 => some s.cscoll
  | 0x075 => some s.pbeat
  | 0x080 => w s.pkgnum
  | 0x081 => some s.fabto
  | 0x082 => w (s.links.foldl (fun a l => a + if l.2.up then 2 ^ l.1 else 0) 0)
  | 0x083 => some s.linkrt
  | 0x084 => some s.fabreplay
  | 0x098 => w (s.pgown + 2 ^ 48 * s.owner (65536 * s.pgown))
  | 0x0A0 => some (s.sel p.own)
  | 0x0A8 => some s.evq.base
  | 0x0A9 => w s.evq.size
  | 0x0AA => w s.evq.head
  | 0x0AB => w s.evq.tail
  | 0x0AC => some s.evq.lost
  | 0x0AE => w ((List.range 16).foldl (fun a q => a + (s.quad (16 * p.die + q)).part * 2 ^ (4 * q)) 0)
  | 0x0AF => w (s.part p.part).word
  | 0x0B0 => w (s.lqsel.getD p.own 0)
  | 0x0B8 => w (s.lease.holder + (if s.leased then 4 else 0) + (if s.lease.ok.getD p.own false then 8 else 0) +
      2 ^ 32 * s.lease.term)
  | 0x0B9 => w s.lease.length
  | 0x0C0 => w (s.update.state + 16 * s.update.active)
  | 0x0C2 => some s.update.hbto
  | 0x0C3 => some s.update.tbaddr
  | 0x0C4 => w ((List.range 64).foldl (fun a c => a + if (s.core (64 * p.die + c)).power == .gated then 2 ^ c else 0) 0)
  | 0x0C5 => some (s.digest p.own).addr
  | 0x0C6 => some (s.digest p.own).len
  | 0x0C8 => some s.update.stgver
  | _ => none

/-- The value of a register (R377): registers of a team that is not there read zero, and so does a register that is only
written. -/
def State.readReg (s : State) (t : Team) (p : RegPlace) (n : Nat) : Word :=
  if n == 0x0A1 then levelWord t else
  let team := match s.team? p.key with
    | some u => u.reg p.key n
    | none => none
  (((team.or (s.coreReg p.core n)).or (s.ctxReg p n)).or (s.packageReg p n)).getD 0

/-! ### Writing -/

/-- Writes a register of a team (R99, R345, R373); a write at a time when it is not writable is ignored. -/
def Team.putReg (t : Team) (n : Nat) (v : Word) : Team :=
  match n with
  | 0x015 => if t.spilled != 0 then t else { t with dsbase := v &&& ~~~7 }
  | 0x030 => { t with nflags := v.extractLsb' 0 6 }
  | 0x070 => { t with ldvlim := v }
  | 0x071 => { t with pself := v &&& 0xFFF }
  | 0x090 => { t with trap := { t.trap with entry := v &&& ~~~3 } }
  | 0x097 => { t with trap := { t.trap with scratch := v } }
  | _ => t

/-- A power of two from one to another (R377). -/
def powerIn (lo hi n : Nat) : Bool := Nat.ble lo n && Nat.ble n hi && (List.range 17).any fun i => 2 ^ i == n

/-- Writes back and drops the lines that an L1 of a smaller size has no room for (R130). -/
def State.trimL1 (s : State) (core : Nat) : State :=
  let x := s.core core
  let s1 := (x.lines.drop x.l1Room).foldl (fun (a : State) l => a.writeBack core l) s
  s1.putCore core { s1.core core with lines := x.lines.take x.l1Room }

/-- No team is resident on the core; none of a context, where one is given. -/
def State.coreEmpty (s : State) (core : Nat) (c : Option Nat) : Bool :=
  !(s.teams.any fun t => isCoreKey t.1 && coreOf t.1 == core && match c with
    | some x => t.2.ctx == x
    | none => true)

/-- Writes a register of a core (R145). -/
def State.putCoreReg (s : State) (core n : Nat) (v : Word) : State :=
  match n with
  | 0x026 => s.putCore core { s.core core with slbase := v &&& ~~~0xFFF }
  | 0x027 =>
    if s.coreEmpty core none then
      (s.putCore core { s.core core with spillres := Nat.min 16 v.toNat }).trimL1 core
    else s
  | _ => s

/-- A write of QGRANT (R333, R340, R345): the DROPS count of a slot that is granted anew starts at 0. -/
def State.writeQgrant (s : State) (c die : Nat) (v : Word) : State :=
  let old := Table.getD (s.ctx c).qgrant die 0
  let s1 := s.putCtx c { s.ctx c with qgrant := Table.put (s.ctx c).qgrant die v }
  { s1 with slots := Table.mapVals s1.slots fun k x =>
      if k / 64 == die && v.getLsbD (k % 64) && !(old.getLsbD (k % 64)) then { x with drops := 0 } else x }

/-- Writes a register of a context or of a queue (R99, R245, R317, R345, R394, R411, R434). -/
def State.putCtxReg (s : State) (p : RegPlace) (n : Nat) (v : Word) : State :=
  let c := p.ctx
  let x := s.ctx c
  let q := s.queue c p.queue
  let r := s.ringOf c p.die
  match n with
  | 0x017 =>
    if s.coreEmpty p.core (some c) && !(s.cellars.any fun y => y.2.teams.any fun t => coreOf t.1 == p.core && t.2.ctx == c) then
      s.putCtx c { x with dspool := Table.put x.dspool p.core (v &&& ~~~0xFFF) }
    else s
  | 0x040 => s.putCtx c { x with bargrant := v &&& 0xFFFFFFFF }
  | 0x060 => s.putCtx c { x with csArena := v &&& ~~~0xFFFF }
  | 0x061 => if x.dir.isEmpty then s.putCtx c { x with csSize := v } else s
  | 0x072 => s.putCtx c { x with pgBase := v &&& ~~~7 }
  | 0x073 => s.writePgsize c v
  | 0x074 => s.putCtx c { x with psilent := v }
  | 0x076 => s.putCtx c { x with pautox := v.getLsbD 0 }
  | 0x077 => s.writeQgrant c p.die v
  | 0x078 => s.putCtx c { x with psdef := v &&& 0xFFF }
  | 0x086 => s.writeGid c v
  | 0x0A2 => s.putCtx c { x with ptroot := v &&& ~~~0xFFF }
  | 0x0A3 => s.writeCtxctl c p.part v
  | 0x0A4 | 0x0A5 | 0x0A6 | 0x0A7 => if x.alive then s else s.putCtx c { x with skey := x.skey.set (n - 0x0A4) v }
  | 0x0B1 => s.putQueue c p.queue { q with base := v &&& ~~~31 }
  | 0x0B2 => if !q.enable && powerIn 16 65536 v.toNat then s.putQueue c p.queue { q with size := v.toNat } else s
  | 0x0B4 => s.writeTail c p.queue v
  | 0x0B6 => s.writeLqctl c p.queue v
  | 0x0BA => s.putRing c p.die { r with base := v &&& ~~~0xFFF }
  | 0x0BB =>
    if r.count == 0 && (v == 0 || powerIn 1 65536 v.toNat) then s.putRing c p.die { r with size := v.toNat } else s
  | _ => s

/-- A write of PARTQ (R390, R394): the quads of a die, each only while its partition is stopped and holds no context. -/
def State.writePartq (s : State) (die : Nat) (v : Word) : State :=
  (List.range 16).foldl (fun (a : State) i =>
    let q := 16 * die + i
    let old := a.part (a.quad q).part
    if (a.quad q).part == 0 || (old.stopped && old.live == 0 && old.cellar == 0 && old.phase == 0) then
      a.putQuad q { a.quad q with part := bitsOf v (4 * i) 4 }
    else a) s

/-- Writes a register of a control core or of the package (R345, R368, R394, R396, R411, R417, R428, R440). -/
def State.putPackageReg (s : State) (p : RegPlace) (n : Nat) (v : Word) : State :=
  match n with
  | 0x075 => { s with pbeat := v }
  | 0x081 => { s with fabto := if v == 0 then 1 else v }
  | 0x098 => s.writePgown v
  | 0x0A0 => { s with syssel := s.syssel.set p.own (v &&& 0x3FFFFFF) }
  | 0x0A8 => { s with evq := { s.evq with base := v &&& ~~~31 } }
  | 0x0A9 =>
    if s.evq.head == s.evq.tail && powerIn 64 65536 v.toNat then { s with evq := { s.evq with size := v.toNat } } else s
  | 0x0AA => s.writeEvqHead v
  | 0x0AD => s.serve v
  | 0x0AE => s.writePartq p.die v
  | 0x0B0 => { s with lqsel := s.lqsel.set p.own (bitsOf v 0 6) }
  | 0x0B8 => s.writeLease p.own v
  | 0x0B9 => { s with lease := { s.lease with length := v.toNat } }
  | 0x0C1 => s.heartbeat
  | 0x0C2 => { s with update := { s.update with hbto := v } }
  | 0x0C3 => { s with update := { s.update with tbaddr := v &&& ~~~63 } }
  | 0x0C5 => s.putDigest p.own { s.digest p.own with addr := v }
  | 0x0C6 => s.writeDglen p.own v
  | _ => s

/-- Registers that belong to each team. -/
def teamRegs : List Nat := [0x015, 0x030, 0x070, 0x071, 0x090, 0x097]

/-- Registers whose write is addressed to a core (R426). -/
def atCore (n : Nat) : Bool := teamRegs.contains n || n == 0x017 || n == 0x026 || n == 0x027

/-- Writes a register (R377). -/
def State.writeReg (s : State) (p : RegPlace) (n : Nat) (v : Word) : State :=
  if teamRegs.contains n then s.modTeam p.key fun u => u.putReg n v
  else ((s.putCoreReg p.core n v).putCtxReg p n v).putPackageReg p n v

/-! ### SRD and SWR (R377) -/

/-- Matrix operations that set the team's flags are outstanding (R150, R377). -/
def State.flagsBusy (s : State) (k : Nat) (t : Team) (n : Nat) : Bool := isCoreKey k && n == 0x030 && s.matrixBusy t.uid

/-- SRD (R377). -/
def execSrd (f : FmtE) (s : State) : Host.Outcome State Fault Refusal :=
  run (.srd f) s fun k t =>
    let n := immOfE f
    let p := s.placeOf k t
    if (regLevel n).isNone then .trap 4 {} s
    else if s.flagsBusy k t n then .park .engine s
    else if n == 0x0C7 then
      if (s.digest p.own).running then .park .digest s
      else
        let r := s.readDgout p.own
        .done (r.1.modTeam k fun u => u.setS f.p r.2)
    else .done (s.modTeam k fun u => u.setS f.p (s.readReg t p n))

/-- A write addressed to a core: it wakes a gated core and waits for it, and it waits for the end of a packet of another
team (R377, R426). -/
def State.writeWaits (s : State) (k : Nat) (p : RegPlace) (n : Nat) : Bool :=
  !isCoreKey k && atCore n && ((s.core p.core).power == .gated || (teamRegs.contains n && match s.team? p.key with
    | some u => u.inPacket
    | none => false))

/-- SWR (R377). -/
def execSwr (f : FmtE) (s : State) : Host.Outcome State Fault Refusal :=
  run (.swr f) s fun k t =>
    let n := immOfE f
    let p := s.placeOf k t
    if !regWritable n then .trap 4 {} s
    else if s.flagsBusy k t n then .park .engine s
    else
      let s1 := if !isCoreKey k && atCore n then s.wakeCore p.core else s
      if s.writeWaits k p n then .quit s1 else .done (s1.writeReg p n (t.s f.q))

end Sys2Proof.Machine
end

