-- ==== Sys2Proof/Machine/Scalar.lean ====
section
/-! DEFINITION. Rows 0x07 and 0x08: scalar arithmetic, immediates and literals (R110, R111, R52). -/

namespace Sys2Proof.Machine

/-- A form of row 0x07: s[SD] := op(s[SA], s[SB]) (R110). -/
def scalarOp (i : Instr) (f : FmtS) (s : State) (op : Word → Word → Word) : Host.Outcome State Fault Refusal :=
  run i s fun k t => .done (s.putTeam k (t.setS f.sd (op (t.s f.sa) (t.s f.sb))))

/-- A form of row 0x08: s[SD] := op(s[SA]) (R111). -/
def scalarImm (i : Instr) (f : FmtSI) (s : State) (op : Word → Word) : Host.Outcome State Fault Refusal :=
  run i s fun k t => .done (s.putTeam k (t.setS f.sd (op (t.s f.sa))))

/-- Bits [127:64] of a product, signed or unsigned (R110). -/
def mulHigh (u : Bool) (a b : Word) : Word :=
  if u then BitVec.ofNat 64 (a.toNat * b.toNat / 2 ^ 64) else BitVec.ofInt 64 (a.toInt * b.toInt / Int.ofNat (2 ^ 64))

/-- a is at most b, signed or unsigned. -/
def atMost (u : Bool) (a b : Word) : Bool := if u then a.ule b else a.sle b

/-- SADD (R110): sum. -/
def execSadd (f : FmtS) (s : State) : Host.Outcome State Fault Refusal :=
  scalarOp (.sadd f) f s fun a b => a + b

/-- SSUB (R110): difference. -/
def execSsub (f : FmtS) (s : State) : Host.Outcome State Fault Refusal :=
  scalarOp (.ssub f) f s fun a b => a - b

/-- SMUL (R110): low 64 bits of the product. -/
def execSmul (f : FmtS) (s : State) : Host.Outcome State Fault Refusal :=
  scalarOp (.smul f) f s fun a b => a * b

/-- SMULH (R110): high 64 bits of the product. -/
def execSmulh (f : FmtS) (s : State) : Host.Outcome State Fault Refusal :=
  scalarOp (.smulh f) f s fun a b => mulHigh (f.f == 1) a b

/-- SAND (R110): bitwise and. -/
def execSand (f : FmtS) (s : State) : Host.Outcome State Fault Refusal :=
  scalarOp (.sand f) f s fun a b => a &&& b

/-- SOR (R110): bitwise or. -/
def execSor (f : FmtS) (s : State) : Host.Outcome State Fault Refusal :=
  scalarOp (.sor f) f s fun a b => a ||| b

/-- SXOR (R110): bitwise xor. -/
def execSxor (f : FmtS) (s : State) : Host.Outcome State Fault Refusal :=
  scalarOp (.sxor f) f s fun a b => a ^^^ b

/-- SSHL (R110): left shift by b[5:0]. -/
def execSshl (f : FmtS) (s : State) : Host.Outcome State Fault Refusal :=
  scalarOp (.sshl f) f s fun a b => a <<< (b.toNat % 64)

/-- SSHR (R110): right shift by b[5:0], zeros enter. -/
def execSshr (f : FmtS) (s : State) : Host.Outcome State Fault Refusal :=
  scalarOp (.sshr f) f s fun a b => a >>> (b.toNat % 64)

/-- SSAR (R110): right shift by b[5:0], bit 63 enters. -/
def execSsar (f : FmtS) (s : State) : Host.Outcome State Fault Refusal :=
  scalarOp (.ssar f) f s fun a b => a.sshiftRight (b.toNat % 64)

/-- SMIN (R110): the smaller. -/
def execSmin (f : FmtS) (s : State) : Host.Outcome State Fault Refusal :=
  scalarOp (.smin f) f s fun a b => if atMost (f.f == 1) a b then a else b

/-- SMAX (R110): the larger. -/
def execSmax (f : FmtS) (s : State) : Host.Outcome State Fault Refusal :=
  scalarOp (.smax f) f s fun a b => if atMost (f.f == 1) a b then b else a

/-- SMOV (R110): copy. -/
def execSmov (f : FmtS) (s : State) : Host.Outcome State Fault Refusal :=
  scalarOp (.smov f) f s fun a _ => a

/-- SADDI (R111): sum with the immediate. -/
def execSaddi (f : FmtSI) (s : State) : Host.Outcome State Fault Refusal :=
  scalarImm (.saddi f) f s fun a => a + f.imm.signExtend 64

/-- SANDI (R111): and with the immediate. -/
def execSandi (f : FmtSI) (s : State) : Host.Outcome State Fault Refusal :=
  scalarImm (.sandi f) f s fun a => a &&& f.imm.signExtend 64

/-- SORI (R111): or with the immediate. -/
def execSori (f : FmtSI) (s : State) : Host.Outcome State Fault Refusal :=
  scalarImm (.sori f) f s fun a => a ||| f.imm.signExtend 64

/-- SXORI (R111): xor with the immediate. -/
def execSxori (f : FmtSI) (s : State) : Host.Outcome State Fault Refusal :=
  scalarImm (.sxori f) f s fun a => a ^^^ f.imm.signExtend 64

/-- SSHLI (R111): left shift by 0 to 63. -/
def execSshli (f : FmtSI) (s : State) : Host.Outcome State Fault Refusal :=
  scalarImm (.sshli f) f s fun a => a <<< f.imm.toNat

/-- SSHRI (R111): right shift by 0 to 63, zeros enter. -/
def execSshri (f : FmtSI) (s : State) : Host.Outcome State Fault Refusal :=
  scalarImm (.sshri f) f s fun a => a >>> f.imm.toNat

/-- SLDI (R111): the immediate. -/
def execSldi (f : FmtSI) (s : State) : Host.Outcome State Fault Refusal :=
  scalarImm (.sldi f) f s fun _ => f.imm.signExtend 64

/-- The literal lies beyond the end of an open loop body (R90). -/
def literalBeyond (t : Team) : Bool := !t.trap.inh && t.loops.any fun l => l.last == t.pc

/-- SLIT (R111): the literal word, sign-extended. -/
def execSlit (f : FmtSI) (lit : Code) (s : State) : Host.Outcome State Fault Refusal :=
  run (.slit f lit) s fun k t =>
    if literalBeyond t then .trap 8 {} s else .done (s.putTeam k (t.setS f.sd (lit.signExtend 64)))

/-- SLITH (R111): the literal word into bits [63:32]; bits [31:0] stay. -/
def execSlith (f : FmtSI) (lit : Code) (s : State) : Host.Outcome State Fault Refusal :=
  run (.slith f lit) s fun k t =>
    if literalBeyond t then .trap 8 {} s
    else .done (s.putTeam k (t.setS f.sd (lit ++ (t.s f.sd).extractLsb' 0 32)))

end Sys2Proof.Machine
end

