-- ==== Sys2Proof/Machine/Spdm.lean ====
section
/-! DEFINITION. The secrets and certificates of the boot layers, and the SPDM responder (R412, R414 to R416, R420): its requests
arrive as steps without an encoding; what it answers is kept as far as the manual gives its contents (log 25). -/

namespace Sys2Proof.Machine

/-! ### The boot layers (R412) -/

/-- M of a layer: of layer 1 as layer 0 measured it, of layer 2 the image of a slot. -/
def State.layerMeasure (s : State) (slot layer : Nat) : List Byte :=
  if layer == 1 then (List.range 32).map fun i => Config.identityByte 0 i else (s.slot slot).measure

/-- The secret CDI of a layer: each layer's is made from the last one's and the layer's M. State holds none: a layer's secret is
erased before the next layer runs. -/
def State.layerSecret (s : State) (slot : Nat) : Nat → List Byte
  | 0 => (List.range 32).map fun i => Config.identityByte 1 i
  | n + 1 => shake256 (s.layerSecret slot n ++ s.layerMeasure slot (n + 1)) 32

/-- The seed from which a layer's key pair is made. -/
def State.layerSeed (s : State) (slot layer : Nat) : List Byte :=
  shake256 (s.layerSecret slot layer ++ Config.layerLabel layer) 32

/-- The chain of certificate slot 0 (R414): DeviceID by Kyzoka, Alias1 by DeviceID, Alias2 by Alias1. -/
def State.certChain (s : State) : List Byte :=
  let seed := s.layerSeed s.runningSlot
  Config.certificate [] (seed 0) ++ Config.certificate (seed 0) (seed 1) ++ Config.certificate (seed 1) (seed 2)

/-! ### Responses -/

/-- Sends a response: its code and contents. -/
def State.respond (s : State) (code : Nat) (bs : List Byte) : State :=
  { s with spdm := { s.spdm with sent := s.spdm.sent ++ [(code, bs)] } }

/-- The error response. -/
def State.spdmError (s : State) : State := s.respond 0x7F []

/-- A response that is signed waits for an image that holds the lease (R420). -/
def State.toSign (s : State) (u : Unsigned) : State :=
  { s with spdm := { s.spdm with unsigned := s.spdm.unsigned ++ [u] } }

/-- A message of the connection, as far as the manual gives its contents (log 25): version, code, two parameters, contents. -/
def spdmMessage (code : Nat) (bs : List Byte) : List Byte := [0x13, BitVec.ofNat 8 code, 0, 0] ++ bs

/-! ### The key schedule (R415, log 108) -/

/-- HMAC with SHAKE256 as its hash (R415): blocks of 136 bytes, 32 bytes of output. -/
def hmac (key msg : List Byte) : List Byte :=
  let pad := fun (x : Byte) => (List.range 136).map fun i => key.getD i 0 ^^^ x
  shake256 (pad 0x5C ++ shake256 (pad 0x36 ++ msg) 32) 32

/-- n bytes, at most 32, derived from a secret: for a label, and with a context. The text of the version is "spdm1.3 ". -/
def derive (secret : List Byte) (n : Nat) (label context : List Byte) : List Byte :=
  (hmac secret (toBytes 2 n ++ [0x73, 0x70, 0x64, 0x6D, 0x31, 0x2E, 0x33, 0x20] ++ label ++ context ++ [1])).take n

/-- The label of a direction's secret: "req" or "rsp", then " hs data" or " app data". -/
def directionLabel (request app : Bool) : List Byte :=
  (if request then [0x72, 0x65, 0x71] else [0x72, 0x73, 0x70]) ++
    (if app then [0x20, 0x61, 0x70, 0x70] else [0x20, 0x68, 0x73]) ++ [0x20, 0x64, 0x61, 0x74, 0x61]

/-- The master secret of a session, from its handshake secret: the label is "derived". -/
def masterSecret (secret : List Byte) : List Byte :=
  hmac (derive secret 32 [0x64, 0x65, 0x72, 0x69, 0x76, 0x65, 0x64] []) (List.replicate 32 0)

/-- The secret of a direction of a session: of its handshake, or of its data once it is made. -/
def Spdm.direction (x : Spdm) (request : Bool) : List Byte :=
  if x.finished then derive (masterSecret x.secret) 32 (directionLabel request true) x.th2
  else derive x.secret 32 (directionLabel request false) x.th1

/-- The verify data of a side over a transcript's hash: the label of its key is "finished". -/
def Spdm.verify (x : Spdm) (request : Bool) (hash : List Byte) : List Byte :=
  hmac (derive (x.direction request) 32 [0x66, 0x69, 0x6E, 0x69, 0x73, 0x68, 0x65, 0x64] []) hash

/-- AES-256-GCM for message n of a direction, of a length (R414, R415): a key of 32 bytes and an initialisation vector of 12, to
which the number is added; the labels are "key" and "iv". The session and the length of the sealed message are authenticated. -/
def Spdm.cipher (x : Spdm) (request : Bool) (n len : Nat) : Gcm :=
  let secret := x.direction request
  let nats := fun (bs : List Byte) => bs.map fun (b : Byte) => b.toNat
  { key := nats (derive secret 32 [0x6B, 0x65, 0x79] [])
    iv := aXor (nats (derive secret 12 [0x69, 0x76] [])) (nats (toBytes 12 n))
    aad := nats (toBytes 4 x.session ++ toBytes 2 (len + 16)) }

/-- Sends a response inside the session, sealed with AES-256-GCM and its tag of 16 bytes (R414, R415). -/
def State.respondSealed (s : State) (code : Nat) (bs : List Byte) : State :=
  let x := s.spdm
  let msg := spdmMessage code bs
  ({ s with spdm := { x with sealed := x.sealed + 1 } }).respond code
    (((x.cipher false x.sealed msg.length).seal (msg.map fun (b : Byte) => b.toNat)).map fun n => BitVec.ofNat 8 n)

/-- A request that arrived inside the session is opened: it has this code, and its parameters and contents follow. -/
def State.openSealed (s : State) (code session : Nat) (data : List Byte) : Option (State × List Byte) :=
  let x := s.spdm
  if x.session == 0 || x.th1.isEmpty || session != x.session then none else
  match (x.cipher true x.opened (data.length - 16)).unseal (data.map fun b => b.toNat) with
  | none => none
  | some ns =>
    let msg : List Byte := ns.map fun n => BitVec.ofNat 8 n
    if msg.take 2 == [0x13, BitVec.ofNat 8 code] && Nat.ble 4 msg.length then
      some ({ s with spdm := { x with opened := x.opened + 1 } }, msg.drop 2)
    else none

/-- Answers a request where it came: in the clear, or in the session. -/
def State.respondIn (s : State) (session code : Nat) (bs : List Byte) : State :=
  if session == 0 then s.respond code bs else s.respondSealed code bs

/-- A request (R414): in the clear with its operands, or in a session that is made, where they follow the request's code in what
was sealed. What cannot be opened receives an error. -/
def State.asked (s : State) (code : Nat) (operands : List Byte → List Nat) (go : State → Nat → List Nat → State) :
    Host.Outcome State Fault Refusal :=
  match s.detail with
  | .sealed session data =>
    match (if s.spdm.finished then s.openSealed code session data else none) with
    | some (s1, bs) => .next (go s1 session (operands bs))
    | none => .next s.spdmError
  | .place a b => .next (go s 0 [a, b])
  | _ => .next (go s 0 [])

/-- A little-endian field of a request's bytes. -/
def fieldAt (bs : List Byte) (o n : Nat) : Nat :=
  ((bs.drop o).take n).foldr (fun b v => b.toNat + 256 * v) 0

/-! ### The connection (R414, R415) -/

/-- Notes a request and its answer among the messages of the connection. -/
def State.exchanged (s : State) (request : Nat) (asked : List Byte) (code : Nat) (bs : List Byte) : State :=
  ({ s with spdm := { s.spdm with vca := s.spdm.vca ++ spdmMessage request asked ++ spdmMessage code bs } }).respond code bs

/-- GET_VERSION (R414): begins the connection afresh. -/
def execGetVersion (s : State) : Host.Outcome State Fault Refusal :=
  .next (({ s with spdm := { version := true, sent := s.spdm.sent } }).exchanged 0x84 [] 0x04 [0x13])

/-- GET_CAPABILITIES (R414). -/
def execGetCapabilities (s : State) : Host.Outcome State Fault Refusal :=
  .next (if s.spdm.version then ({ s with spdm := { s.spdm with caps := true } }).exchanged 0xE1 [] 0x61 [] else s.spdmError)

/-- The extended algorithms that the device negotiates (R415): the registry of the PCI-SIG (log 108), and their IDs. -/
def algorithmIds : List (Nat × Nat) := [(3, 0x0101), (3, 0x0201), (3, 0x0301)]

/-- The structure of an extended algorithm (R415): the registry, a reserved byte, the algorithm ID. -/
def extAlgorithm (a : Nat × Nat) : List Byte := toBytes 1 a.1 ++ [0] ++ toBytes 2 a.2

/-- What ALGORITHMS selects (R415; its order and its base bits log 108): measurements as a raw bit stream, no base asymmetric
algorithm and no base hash, one extended algorithm for signatures, one for hashes and one for the key exchange, AES-256-GCM, and
the SPDM key schedule. -/
def algorithmsSelected : List Byte :=
  toBytes 4 1 ++ toBytes 4 0 ++ toBytes 4 0 ++ algorithmIds.flatMap extAlgorithm ++ toBytes 2 2 ++ toBytes 2 1

/-- NEGOTIATE_ALGORITHMS (R414, R415): a requester that offers none of a kind the device has receives an error, and the
connection is not made. -/
def execNegotiateAlgorithms (s : State) : Host.Outcome State Fault Refusal :=
  let refused := ({ s with spdm := { s.spdm with algs := false } }).spdmError
  match s.detail with
  | .offer ext aead schedule =>
    if s.spdm.caps && aead && schedule && algorithmIds.all (fun a => ext.contains a) then
      .next (({ s with spdm := { s.spdm with algs := true } }).exchanged 0xE3
        (ext.flatMap extAlgorithm ++ toBytes 2 2 ++ toBytes 2 1) 0x63 algorithmsSelected)
    else .next refused
  | _ => .next refused

/-- GET_DIGESTS (R414, R415): the digest of the chain of certificate slot 0. -/
def execGetDigests (s : State) : Host.Outcome State Fault Refusal :=
  s.asked 0x81 (fun _ => []) fun s1 n _ =>
    if s1.spdm.algs then s1.respondIn n 0x01 (shake256 s1.certChain 32) else s1.respondIn n 0x7F []

/-- GET_CERTIFICATE (R414): a stretch of the chain of slot 0. -/
def execGetCertificate (s : State) : Host.Outcome State Fault Refusal :=
  s.asked 0x82 (fun bs => [fieldAt bs 2 2, fieldAt bs 4 2]) fun s1 n xs =>
    match xs with
    | [offset, len] => if s1.spdm.algs then s1.respondIn n 0x02 ((s1.certChain.drop offset).take len) else s1.respondIn n 0x7F []
    | _ => s1.respondIn n 0x7F []

/-- CHALLENGE (R414, R420): a signed response; SPDM has none inside a session (log 25). -/
def execChallenge (s : State) : Host.Outcome State Fault Refusal :=
  s.asked 0x83 (fun _ => []) fun s1 n _ =>
    if s1.spdm.algs && n == 0 then s1.toSign { code := 0x03 } else s1.respondIn n 0x7F []

/-- GET_MEASUREMENTS (R416, R420): a signed response. Operation 0 asks for the number of blocks, 255 for all of them, another for
the block of that index. -/
def execGetMeasurements (s : State) : Host.Outcome State Fault Refusal :=
  s.asked 0xE0 (fun bs => [fieldAt bs 1 1, 0]) fun s1 n xs =>
    match xs with
    | op :: _ =>
      if s1.spdm.algs && (Nat.ble op 4 || op == 255) then s1.toSign { code := 0x60, op := op, session := n } else s1.respondIn n 0x7F []
    | [] => s1.respondIn n 0x7F []

/-! ### Sessions (R414, R415) -/

/-- KEY_EXCHANGE (R414, R415, R420): the requester's encapsulation key of 1,184 bytes begins a session of a new number. The
response holds the ciphertext of 1,088 bytes and is signed; the shared secret of 32 bytes takes the place of the DHE secret in
the SPDM key schedule, whose first step gives the handshake secret. -/
def execKeyExchange (s : State) : Host.Outcome State Fault Refusal :=
  match s.detail with
  | .bytes _ _ key =>
    if s.spdm.algs && key.length == 1184 then
      let shared := (List.range 32).map fun i => Config.kemSecret key s.fresh i
      .next (({ s with
        spdm := { s.spdm with
          session := s.serial, finished := false, sealed := 0, opened := 0, secret := hmac (List.replicate 32 0) shared
          transcript := s.spdm.vca ++ shake256 s.certChain 32 ++ spdmMessage 0xE4 key, th1 := [], th2 := [] }
        serial := s.serial + 1, fresh := s.fresh + 1 }).toSign
          { code := 0x64, first := (List.range 1088).map fun i => Config.kemCiphertext key s.fresh i, session := s.serial })
    else .next s.spdmError
  | _ => .next s.spdmError

/-- A session whose handshake has ended (R415): its messages count afresh, under the keys of its data, once FINISH_RSP is sent. -/
def State.sessionMade (s : State) (finish : List Byte) : State :=
  let r := s.respondSealed 0x65 []
  { r with spdm := { r.spdm with
      finished := true, sealed := 0, opened := 0
      th2 := shake256 (s.spdm.transcript ++ finish ++ spdmMessage 0x65 []) 32 } }

/-- FINISH (R414, R415): sealed in the handshake; the session is made where its verify data, an HMAC over the transcript, is
right. -/
def execFinish (s : State) : Host.Outcome State Fault Refusal :=
  match s.detail with
  | .sealed session data =>
    match (if s.spdm.finished then none else s.openSealed 0xE5 session data) with
    | none => .next s.spdmError
    | some (s1, bs) =>
      let head : List Byte := [0x13, 0xE5] ++ bs.take 2
      if bs.drop 2 == s1.spdm.verify true (shake256 (s1.spdm.transcript ++ head) 32) then
        .next (s1.sessionMade (head ++ bs.drop 2))
      else .next (s1.respondSealed 0x7F [])
  | _ => .next s.spdmError

/-- HEARTBEAT of a session (R414). -/
def execSpdmHeartbeat (s : State) : Host.Outcome State Fault Refusal :=
  s.asked 0xE8 (fun _ => []) fun s1 n _ => s1.respondIn n (if n == 0 then 0x7F else 0x68) []

/-- END_SESSION (R414): the session's keys are gone, and its responses that wait. -/
def execEndSession (s : State) : Host.Outcome State Fault Refusal :=
  s.asked 0xEC (fun _ => []) fun s1 n _ =>
    if n == 0 then s1.spdmError else
    let r := s1.respondSealed 0x6C []
    { r with spdm := { r.spdm with
        session := 0, secret := [], transcript := [], th1 := [], th2 := [], sealed := 0, opened := 0, finished := false
        unsigned := r.spdm.unsigned.filter fun u => u.session != n } }

/-! ### Measurements and signatures (R416, R420) -/

/-- A block of GET_MEASUREMENTS (R416), as the image of a slot signs it: a value of 32 bytes (R415), to which block 2 adds the
slot and the security version. -/
def State.measurement (s : State) (slot block : Nat) : List Byte :=
  let x := s.slot slot
  match block with
  | 1 => s.layerMeasure slot 1
  | 2 => x.measure ++ toBytes 1 slot ++ toBytes 4 x.secver
  | 3 => if s.update.state == 2 || s.update.state == 3 then (s.slot (1 - slot)).measure else List.replicate 32 0
  | 4 => toBytes 32 s.rollback
  | _ => []

/-- The blocks that an operation of GET_MEASUREMENTS asks for (R416). -/
def blocksAsked (op : Nat) : List Nat :=
  if op == 255 then [1, 2, 3, 4] else if Nat.ble 1 op && Nat.ble op 4 then [op] else []

/-- A block in the record of a response: its index, the kind of the value, a raw bit stream, and its length (R415, log 108). -/
def measurementBlock (index : Nat) (v : List Byte) : List Byte :=
  [BitVec.ofNat 8 index, 1] ++ toBytes 2 (v.length + 3) ++ [if index == 4 then 0x87 else 0x81] ++ toBytes 2 v.length ++ v

/-- The contents of MEASUREMENTS (R416): the number of blocks where that was asked, the blocks that follow, their length. -/
def State.measurements (s : State) (slot op : Nat) : List Byte :=
  let bs := blocksAsked op
  let record := bs.flatMap fun i => measurementBlock i (s.measurement slot i)
  [if op == 0 then 4 else 0, BitVec.ofNat 8 bs.length] ++ toBytes 3 record.length ++ record

/-- KEY_EXCHANGE_RSP is signed (R415): its hash ends TH1, its verify data follows, and the keys of the handshake hold. -/
def State.exchangeSigned (s : State) (bs : List Byte) : State :=
  let sent := s.spdm.transcript ++ spdmMessage 0x64 bs
  let x := { s.spdm with th1 := shake256 sent 32 }
  let proof := x.verify false x.th1
  ({ s with spdm := { x with transcript := sent ++ proof } }).respond 0x64 (bs ++ proof)

/-- SPDM_RESPONSE_SIGN (R420): the image that holds the lease signs the oldest response that waits; one of a session that is no
more is not sent (log 25). -/
def execSpdmResponseSign (s : State) : Host.Outcome State Fault Refusal :=
  match s.spdm.unsigned with
  | u :: rest =>
    if !s.leased then .next s else
    let s1 := { s with spdm := { s.spdm with unsigned := rest }, fresh := s.fresh + 1 }
    let contents := u.first ++ (if u.code == 0x60 then s.measurements s.runningSlot u.op else []) ++
      (List.range 3309).map fun i => Config.signatureByte s.fresh i
    .next (if u.session != 0 && u.session != s.spdm.session then s1
      else if u.code == 0x64 then s1.exchangeSigned contents
      else s1.respondIn u.session u.code contents)
  | [] => .next s

end Sys2Proof.Machine
end

