-- ==== Sys2Proof/Machine/Dispatch.lean ====
section
/-! DEFINITION. The meaning of every instruction: one arm for each constructor. -/

namespace Sys2Proof.Machine

/-- Executes an instruction for the acting team, or makes a step that has no encoding. -/
def exec (i : Instr) (s : State) : Host.Outcome State Fault Refusal :=
  match i with
  | .bra f => Sys2Proof.Machine.execBra f s
  | .bany f => Sys2Proof.Machine.execBany f s
  | .ball f => Sys2Proof.Machine.execBall f s
  | .call f => Sys2Proof.Machine.execCall f s
  | .mark f => Sys2Proof.Machine.execMark f s
  | .ipf f => Sys2Proof.Machine.execIpf f s
  | .bri f => Sys2Proof.Machine.execBri f s
  | .calli f => Sys2Proof.Machine.execCalli f s
  | .ret f => Sys2Proof.Machine.execRet f s
  | .yield f => Sys2Proof.Machine.execYield f s
  | .nop f => Sys2Proof.Machine.execNop f s
  | .loop f => Sys2Proof.Machine.execLoop f s
  | .loopi f => Sys2Proof.Machine.execLoopi f s
  | .lbrk f => Sys2Proof.Machine.execLbrk f s
  | .iadd f => Sys2Proof.Machine.execIadd f s
  | .isub f => Sys2Proof.Machine.execIsub f s
  | .imul f => Sys2Proof.Machine.execImul f s
  | .imulh f => Sys2Proof.Machine.execImulh f s
  | .imac f => Sys2Proof.Machine.execImac f s
  | .imin f => Sys2Proof.Machine.execImin f s
  | .imax f => Sys2Proof.Machine.execImax f s
  | .umin f => Sys2Proof.Machine.execUmin f s
  | .umax f => Sys2Proof.Machine.execUmax f s
  | .and f => Sys2Proof.Machine.execAnd f s
  | .or f => Sys2Proof.Machine.execOr f s
  | .xor f => Sys2Proof.Machine.execXor f s
  | .andn f => Sys2Proof.Machine.execAndn f s
  | .shl f => Sys2Proof.Machine.execShl f s
  | .shr f => Sys2Proof.Machine.execShr f s
  | .sar f => Sys2Proof.Machine.execSar f s
  | .iaddi f => Sys2Proof.Machine.execIaddi f s
  | .imuli f => Sys2Proof.Machine.execImuli f s
  | .andi f => Sys2Proof.Machine.execAndi f s
  | .ori f => Sys2Proof.Machine.execOri f s
  | .xori f => Sys2Proof.Machine.execXori f s
  | .shli f => Sys2Proof.Machine.execShli f s
  | .shri f => Sys2Proof.Machine.execShri f s
  | .sari f => Sys2Proof.Machine.execSari f s
  | .popc f => Sys2Proof.Machine.execPopc f s
  | .clz f => Sys2Proof.Machine.execClz f s
  | .brev f => Sys2Proof.Machine.execBrev f s
  | .bfx f => Sys2Proof.Machine.execBfx f s
  | .bfi f => Sys2Proof.Machine.execBfi f s
  | .iadds f => Sys2Proof.Machine.execIadds f s
  | .isubs f => Sys2Proof.Machine.execIsubs f s
  | .uadds f => Sys2Proof.Machine.execUadds f s
  | .usubs f => Sys2Proof.Machine.execUsubs f s
  | .sel f => Sys2Proof.Machine.execSel f s
  | .sadd f => Sys2Proof.Machine.execSadd f s
  | .ssub f => Sys2Proof.Machine.execSsub f s
  | .smul f => Sys2Proof.Machine.execSmul f s
  | .smulh f => Sys2Proof.Machine.execSmulh f s
  | .sand f => Sys2Proof.Machine.execSand f s
  | .sor f => Sys2Proof.Machine.execSor f s
  | .sxor f => Sys2Proof.Machine.execSxor f s
  | .sshl f => Sys2Proof.Machine.execSshl f s
  | .sshr f => Sys2Proof.Machine.execSshr f s
  | .ssar f => Sys2Proof.Machine.execSsar f s
  | .smin f => Sys2Proof.Machine.execSmin f s
  | .smax f => Sys2Proof.Machine.execSmax f s
  | .smov f => Sys2Proof.Machine.execSmov f s
  | .saddi f => Sys2Proof.Machine.execSaddi f s
  | .sandi f => Sys2Proof.Machine.execSandi f s
  | .sori f => Sys2Proof.Machine.execSori f s
  | .sxori f => Sys2Proof.Machine.execSxori f s
  | .sshli f => Sys2Proof.Machine.execSshli f s
  | .sshri f => Sys2Proof.Machine.execSshri f s
  | .sldi f => Sys2Proof.Machine.execSldi f s
  | .slit f lit => Sys2Proof.Machine.execSlit f lit s
  | .slith f lit => Sys2Proof.Machine.execSlith f lit s
  | .adds f => Sys2Proof.Machine.execAdds f s
  | .subs f => Sys2Proof.Machine.execSubs f s
  | .muls f => Sys2Proof.Machine.execMuls f s
  | .shls f => Sys2Proof.Machine.execShls f s
  | .ands f => Sys2Proof.Machine.execAnds f s
  | .bcast f => Sys2Proof.Machine.execBcast f s
  | .lea f => Sys2Proof.Machine.execLea f s
  | .icmp f => Sys2Proof.Machine.execIcmp f s
  | .fcmp f => Sys2Proof.Machine.execFcmp f s
  | .icmps f => Sys2Proof.Machine.execIcmps f s
  | .pand f => Sys2Proof.Machine.execPand f s
  | .por f => Sys2Proof.Machine.execPor f s
  | .pxor f => Sys2Proof.Machine.execPxor f s
  | .pandn f => Sys2Proof.Machine.execPandn f s
  | .pnot f => Sys2Proof.Machine.execPnot f s
  | .pmov f => Sys2Proof.Machine.execPmov f s
  | .pseta f => Sys2Proof.Machine.execPseta f s
  | .pclr f => Sys2Proof.Machine.execPclr f s
  | .scmp f => Sys2Proof.Machine.execScmp f s
  | .mov f => Sys2Proof.Machine.execMov f s
  | .xrd f => Sys2Proof.Machine.execXrd f s
  | .xwr f => Sys2Proof.Machine.execXwr f s
  | .xset f => Sys2Proof.Machine.execXset f s
  | .xadd f => Sys2Proof.Machine.execXadd f s
  | .xget f => Sys2Proof.Machine.execXget f s
  | .ruse f => Sys2Proof.Machine.execRuse f s
  | .rclr f => Sys2Proof.Machine.execRclr f s
  | .fadd f => Sys2Proof.Machine.execFadd f s
  | .fsub f => Sys2Proof.Machine.execFsub f s
  | .fmul f => Sys2Proof.Machine.execFmul f s
  | .fmac f => Sys2Proof.Machine.execFmac f s
  | .fnmac f => Sys2Proof.Machine.execFnmac f s
  | .fmin f => Sys2Proof.Machine.execFmin f s
  | .fmax f => Sys2Proof.Machine.execFmax f s
  | .fabs f => Sys2Proof.Machine.execFabs f s
  | .fneg f => Sys2Proof.Machine.execFneg f s
  | .fcpys f => Sys2Proof.Machine.execFcpys f s
  | .frcp f => Sys2Proof.Machine.execFrcp f s
  | .frsq f => Sys2Proof.Machine.execFrsq f s
  | .fsqrt f => Sys2Proof.Machine.execFsqrt f s
  | .fexp2 f => Sys2Proof.Machine.execFexp2 f s
  | .flog2 f => Sys2Proof.Machine.execFlog2 f s
  | .fsin f => Sys2Proof.Machine.execFsin f s
  | .fcos f => Sys2Proof.Machine.execFcos f s
  | .ftanh f => Sys2Proof.Machine.execFtanh f s
  | .cvtff f => Sys2Proof.Machine.execCvtff f s
  | .cvtfi f => Sys2Proof.Machine.execCvtfi f s
  | .cvtif f => Sys2Proof.Machine.execCvtif f s
  | .cvtii f => Sys2Proof.Machine.execCvtii f s
  | .idot4 f => Sys2Proof.Machine.execIdot4 f s
  | .idot8 f => Sys2Proof.Machine.execIdot8 f s
  | .idot16 f => Sys2Proof.Machine.execIdot16 f s
  | .fdotb f => Sys2Proof.Machine.execFdotb f s
  | .ldq f => Sys2Proof.Machine.execLdq f s
  | .stq f => Sys2Proof.Machine.execStq f s
  | .shfl f => Sys2Proof.Machine.execShfl f s
  | .shflx f => Sys2Proof.Machine.execShflx f s
  | .bcl f => Sys2Proof.Machine.execBcl f s
  | .ballot f => Sys2Proof.Machine.execBallot f s
  | .vany f => Sys2Proof.Machine.execVany f s
  | .vall f => Sys2Proof.Machine.execVall f s
  | .pcnt f => Sys2Proof.Machine.execPcnt f s
  | .pfirst f => Sys2Proof.Machine.execPfirst f s
  | .scan f => Sys2Proof.Machine.execScan f s
  | .scanx f => Sys2Proof.Machine.execScanx f s
  | .red f => Sys2Proof.Machine.execRed f s
  | .compact f => Sys2Proof.Machine.execCompact f s
  | .lext f => Sys2Proof.Machine.execLext f s
  | .lextId f => Sys2Proof.Machine.execLextId f s
  | .lextHome f => Sys2Proof.Machine.execLextHome f s
  | .lins f => Sys2Proof.Machine.execLins f s
  | .ldl f => Sys2Proof.Machine.execLdl f s
  | .ldg f => Sys2Proof.Machine.execLdg f s
  | .ldp f => Sys2Proof.Machine.execLdp f s
  | .ldpg f => Sys2Proof.Machine.execLdpg f s
  | .ldu f => Sys2Proof.Machine.execLdu f s
  | .ldlRo f => Sys2Proof.Machine.execLdlRo f s
  | .ldgRo f => Sys2Proof.Machine.execLdgRo f s
  | .lduRo f => Sys2Proof.Machine.execLduRo f s
  | .ldlNt f => Sys2Proof.Machine.execLdlNt f s
  | .ldgNt f => Sys2Proof.Machine.execLdgNt f s
  | .stl f => Sys2Proof.Machine.execStl f s
  | .stg f => Sys2Proof.Machine.execStg f s
  | .stp f => Sys2Proof.Machine.execStp f s
  | .stpg f => Sys2Proof.Machine.execStpg f s
  | .stu f => Sys2Proof.Machine.execStu f s
  | .stlNt f => Sys2Proof.Machine.execStlNt f s
  | .stgNt f => Sys2Proof.Machine.execStgNt f s
  | .fence f => Sys2Proof.Machine.execFence f s
  | .ldacq f => Sys2Proof.Machine.execLdacq f s
  | .strel f => Sys2Proof.Machine.execStrel f s
  | .l1inv f => Sys2Proof.Machine.execL1inv f s
  | .l1wb f => Sys2Proof.Machine.execL1wb f s
  | .pfd f => Sys2Proof.Machine.execPfd f s
  | .aadd f => Sys2Proof.Machine.execAadd f s
  | .afadd f => Sys2Proof.Machine.execAfadd f s
  | .amin f => Sys2Proof.Machine.execAmin f s
  | .amax f => Sys2Proof.Machine.execAmax f s
  | .afmax f => Sys2Proof.Machine.execAfmax f s
  | .aand f => Sys2Proof.Machine.execAand f s
  | .aor f => Sys2Proof.Machine.execAor f s
  | .axor f => Sys2Proof.Machine.execAxor f s
  | .axch f => Sys2Proof.Machine.execAxch f s
  | .acas f => Sys2Proof.Machine.execAcas f s
  | .barv f => Sys2Proof.Machine.execBarv f s
  | .barw f => Sys2Proof.Machine.execBarw f s
  | .bars f => Sys2Proof.Machine.execBars f s
  | .bari f => Sys2Proof.Machine.execBari f s
  | .cpy f => Sys2Proof.Machine.execCpy f s
  | .cpyp f => Sys2Proof.Machine.execCpyp f s
  | .gath f => Sys2Proof.Machine.execGath f s
  | .scat f => Sys2Proof.Machine.execScat f s
  | .bclose f => Sys2Proof.Machine.execBclose f s
  | .bwait f => Sys2Proof.Machine.execBwait f s
  | .bstat f => Sys2Proof.Machine.execBstat f s
  | .push f => Sys2Proof.Machine.execPush f s
  | .pop f => Sys2Proof.Machine.execPop f s
  | .peos f => Sys2Proof.Machine.execPeos f s
  | .pstat f => Sys2Proof.Machine.execPstat f s
  | .mma f => Sys2Proof.Machine.execMma f s
  | .mmaz f => Sys2Proof.Machine.execMmaz f s
  | .accz f => Sys2Proof.Machine.execAccz f s
  | .accrd f => Sys2Proof.Machine.execAccrd f s
  | .accwr f => Sys2Proof.Machine.execAccwr f s
  | .gang f => Sys2Proof.Machine.execGang f s
  | .mapset f => Sys2Proof.Machine.execMapset f s
  | .winset f => Sys2Proof.Machine.execWinset f s
  | .clook f => Sys2Proof.Machine.execClook f s
  | .cnode f => Sys2Proof.Machine.execCnode f s
  | .cread f => Sys2Proof.Machine.execCread f s
  | .cwalk f => Sys2Proof.Machine.execCwalk f s
  | .cref f => Sys2Proof.Machine.execCref f s
  | .crel f => Sys2Proof.Machine.execCrel f s
  | .croot f => Sys2Proof.Machine.execCroot f s
  | .cswap f => Sys2Proof.Machine.execCswap f s
  | .cout f => Sys2Proof.Machine.execCout f s
  | .cnew f => Sys2Proof.Machine.execCnew f s
  | .ldv f => Sys2Proof.Machine.execLdv f s
  | .publ f => Sys2Proof.Machine.execPubl f s
  | .vstep f => Sys2Proof.Machine.execVstep f s
  | .vpin f => Sys2Proof.Machine.execVpin f s
  | .vunpin f => Sys2Proof.Machine.execVunpin f s
  | .stepa f => Sys2Proof.Machine.execStepa f s
  | .stepr f => Sys2Proof.Machine.execStepr f s
  | .pexc f => Sys2Proof.Machine.execPexc f s
  | .plead f => Sys2Proof.Machine.execPlead f s
  | .qopen f => Sys2Proof.Machine.execQopen f s
  | .qcont f => Sys2Proof.Machine.execQcont f s
  | .qwait f => Sys2Proof.Machine.execQwait f s
  | .qread f => Sys2Proof.Machine.execQread f s
  | .qstat f => Sys2Proof.Machine.execQstat f s
  | .rld f => Sys2Proof.Machine.execRld f s
  | .rst f => Sys2Proof.Machine.execRst f s
  | .putsig f => Sys2Proof.Machine.execPutsig f s
  | .ratom f => Sys2Proof.Machine.execRatom f s
  | .rfence f => Sys2Proof.Machine.execRfence f s
  | .trap f => Sys2Proof.Machine.execTrap f s
  | .rett f => Sys2Proof.Machine.execRett f s
  | .srd f => Sys2Proof.Machine.execSrd f s
  | .swr f => Sys2Proof.Machine.execSwr f s
  | .tlbinv f => Sys2Proof.Machine.execTlbinv f s
  | .keykill f => Sys2Proof.Machine.execKeykill f s
  | .haltStop f => Sys2Proof.Machine.execHaltStop f s
  | .haltSwap f => Sys2Proof.Machine.execHaltSwap f s
  | .haltGo f => Sys2Proof.Machine.execHaltGo f s
  | .bkpt f => Sys2Proof.Machine.execBkpt f s
  | .launch f => Sys2Proof.Machine.execLaunch f s
  | .launchPro f => Sys2Proof.Machine.execLaunchPro f s
  | .lcancel f => Sys2Proof.Machine.execLcancel f s
  | .lcancelAgain f => Sys2Proof.Machine.execLcancelAgain f s
  | .qpost f => Sys2Proof.Machine.execQpost f s
  | .qtake f => Sys2Proof.Machine.execQtake f s
  | .tspawn f => Sys2Proof.Machine.execTspawn f s
  | .tsteal f => Sys2Proof.Machine.execTsteal f s
  | .join => Sys2Proof.Machine.execJoin s
  | .exit => Sys2Proof.Machine.execExit s
  | .haltIdle => Sys2Proof.Machine.execHaltIdle s
  | .issueRunEnd => Sys2Proof.Machine.execIssueRunEnd s
  | .icacheLineFill => Sys2Proof.Machine.execIcacheLineFill s
  | .memoryReply => Sys2Proof.Machine.execMemoryReply s
  | .atomicReturn => Sys2Proof.Machine.execAtomicReturn s
  | .copyOpComplete => Sys2Proof.Machine.execCopyOpComplete s
  | .matrixOpStart => Sys2Proof.Machine.execMatrixOpStart s
  | .matrixOpComplete => Sys2Proof.Machine.execMatrixOpComplete s
  | .storeValueReturn => Sys2Proof.Machine.execStoreValueReturn s
  | .storeOpComplete => Sys2Proof.Machine.execStoreOpComplete s
  | .remoteRequest => Sys2Proof.Machine.execRemoteRequest s
  | .remoteReply => Sys2Proof.Machine.execRemoteReply s
  | .fabricAck => Sys2Proof.Machine.execFabricAck s
  | .forwardingPointer => Sys2Proof.Machine.execForwardingPointer s
  | .fabricTimeout => Sys2Proof.Machine.execFabricTimeout s
  | .fabricReplay => Sys2Proof.Machine.execFabricReplay s
  | .linkRetrain => Sys2Proof.Machine.execLinkRetrain s
  | .stepAnnouncement => Sys2Proof.Machine.execStepAnnouncement s
  | .heartbeatPeriod => Sys2Proof.Machine.execHeartbeatPeriod s
  | .peerSilent => Sys2Proof.Machine.execPeerSilent s
  | .publishMessage => Sys2Proof.Machine.execPublishMessage s
  | .replicaFetchComplete => Sys2Proof.Machine.execReplicaFetchComplete s
  | .replicaLineFetch => Sys2Proof.Machine.execReplicaLineFetch s
  | .ldvWaitLimit => Sys2Proof.Machine.execLdvWaitLimit s
  | .quorumContribution => Sys2Proof.Machine.execQuorumContribution s
  | .quorumTimerExpiry => Sys2Proof.Machine.execQuorumTimerExpiry s
  | .qcontResend => Sys2Proof.Machine.execQcontResend s
  | .chunkRequest => Sys2Proof.Machine.execChunkRequest s
  | .blockPlacement => Sys2Proof.Machine.execBlockPlacement s
  | .prologueStart => Sys2Proof.Machine.execPrologueStart s
  | .prologueRepeat => Sys2Proof.Machine.execPrologueRepeat s
  | .launchEnd => Sys2Proof.Machine.execLaunchEnd s
  | .partitionDrainComplete => Sys2Proof.Machine.execPartitionDrainComplete s
  | .machineCheck => Sys2Proof.Machine.execMachineCheck s
  | .leaseExpiry => Sys2Proof.Machine.execLeaseExpiry s
  | .leaseRenew => Sys2Proof.Machine.execLeaseRenew s
  | .leaseAcquire => Sys2Proof.Machine.execLeaseAcquire s
  | .leaseRelease => Sys2Proof.Machine.execLeaseRelease s
  | .ctxctlCreate => Sys2Proof.Machine.execCtxctlCreate s
  | .ctxctlKill => Sys2Proof.Machine.execCtxctlKill s
  | .fqdoneWrite => Sys2Proof.Machine.execFqdoneWrite s
  | .pgsizeWrite => Sys2Proof.Machine.execPgsizeWrite s
  | .pgownWrite => Sys2Proof.Machine.execPgownWrite s
  | .ctxgidWrite => Sys2Proof.Machine.execCtxgidWrite s
  | .evqheadWrite => Sys2Proof.Machine.execEvqheadWrite s
  | .lqtailDoorbell => Sys2Proof.Machine.execLqtailDoorbell s
  | .lqctlWrite => Sys2Proof.Machine.execLqctlWrite s
  | .dglenWrite => Sys2Proof.Machine.execDglenWrite s
  | .digestComplete => Sys2Proof.Machine.execDigestComplete s
  | .dgoutRead => Sys2Proof.Machine.execDgoutRead s
  | .hbeatWrite => Sys2Proof.Machine.execHbeatWrite s
  | .hbtoExpiry => Sys2Proof.Machine.execHbtoExpiry s
  | .handover => Sys2Proof.Machine.execHandover s
  | .imageVerify => Sys2Proof.Machine.execImageVerify s
  | .imgwrite => Sys2Proof.Machine.execImgwrite s
  | .update => Sys2Proof.Machine.execUpdate s
  | .ckpt => Sys2Proof.Machine.execCkpt s
  | .ckptComplete => Sys2Proof.Machine.execCkptComplete s
  | .health => Sys2Proof.Machine.execHealth s
  | .resetWarm => Sys2Proof.Machine.execResetWarm s
  | .resetPort => Sys2Proof.Machine.execResetPort s
  | .restore => Sys2Proof.Machine.execRestore s
  | .restoreComplete => Sys2Proof.Machine.execRestoreComplete s
  | .portReset => Sys2Proof.Machine.execPortReset s
  | .coldReset => Sys2Proof.Machine.execColdReset s
  | .hostMemAccess => Sys2Proof.Machine.execHostMemAccess s
  | .getVersion => Sys2Proof.Machine.execGetVersion s
  | .getCapabilities => Sys2Proof.Machine.execGetCapabilities s
  | .negotiateAlgorithms => Sys2Proof.Machine.execNegotiateAlgorithms s
  | .getDigests => Sys2Proof.Machine.execGetDigests s
  | .getCertificate => Sys2Proof.Machine.execGetCertificate s
  | .challenge => Sys2Proof.Machine.execChallenge s
  | .getMeasurements => Sys2Proof.Machine.execGetMeasurements s
  | .keyExchange => Sys2Proof.Machine.execKeyExchange s
  | .finish => Sys2Proof.Machine.execFinish s
  | .spdmHeartbeat => Sys2Proof.Machine.execSpdmHeartbeat s
  | .endSession => Sys2Proof.Machine.execEndSession s
  | .spdmResponseSign => Sys2Proof.Machine.execSpdmResponseSign s
  | .powerGateEntry => Sys2Proof.Machine.execPowerGateEntry s
  | .coreWake => Sys2Proof.Machine.execCoreWake s
  | .corePowerUp => Sys2Proof.Machine.execCorePowerUp s
  | .healthCounterUpdate => Sys2Proof.Machine.execHealthCounterUpdate s
  | .swapExchangeComplete => Sys2Proof.Machine.execSwapExchangeComplete s
  | .writeBackAck => Sys2Proof.Machine.execWriteBackAck s
  | .powerLoss => Sys2Proof.Machine.execPowerLoss s
  | .retrainingStart => Sys2Proof.Machine.execRetrainingStart s
  | .uncorrectableError => Sys2Proof.Machine.execUncorrectableError s
  | .scrubbing => Sys2Proof.Machine.execScrubbing s

end Sys2Proof.Machine
end

