-- ==== Sys2Proof/Machine/Schedule.lean ====
section
/-! DEFINITION. The default order of happenings (log 2): clocks, work that is due, and which team issues next (R62, R63). -/

namespace Sys2Proof.Machine

/-- A core's team issues only while its partition runs, and finishes its packet while that halts (R40, R390, R391); a system
thread finishes its packet when it is halted for an update, or when the new image's time is over (R417, R438). A prologue thread
does not issue while HALT.idle stops its control core (R380). -/
def State.mayRun (s : State) (k : Nat) (t : Team) : Bool :=
  let p := s.part t.part
  if t.role == .system then t.inPacket || !(s.update.halted.getD (dieOf k) false || s.hbtoOver)
  else if t.role == .prologue then !(s.team? (sysKey (dieOf k))).any fun u => u.wait == .doorbell
  else !isCoreKey k || (!p.stopped && !p.swapping && (p.phase == 0 || t.inPacket))

/-- The team or thread is ready and can issue (R22, R23). -/
def State.canIssue (s : State) (k : Nat) (t : Team) : Bool := t.wait == .ready && s.mayRun k t && !s.stalled k t

/-- The other thread of a control core. -/
def otherThread (k : Nat) : Nat := if k % 2 == 0 then k + 1 else k - 1

/-- The two threads of a control core issue in turn when both are ready, a chain as one unit (R35, R395). -/
def State.hasTurn (s : State) (k : Nat) (t : Team) : Bool :=
  isCoreKey k || t.chained ||
    !(s.team? (otherThread k)).any fun u => s.canIssue (otherThread k) u && (u.chained || s.lastThread.getD (dieOf k) 0 == k)

/-- Ends the issue runs whose teams cannot issue in this ACLK (R63). -/
def State.endRuns (s : State) : State :=
  let lost := fun (b : State) (k : Option Nat) => match k with
    | none => false
    | some k => match b.team? k with
      | some t => !b.canIssue k t
      | none => true
  s.cores.foldl (fun (b : State) c =>
    let b1 := if lost b c.2.runTeam then b.endRun c.1 false else b
    if lost b1 c.2.affineTeam then b1.endRun c.1 true else b1) s

/-- n ACLK pass (R7): the clock, and the limits of waiting versioned loads of resident teams (R225, R323). -/
def State.tick (s : State) (n : Nat) : State :=
  { s with
    clock := s.clock + n
    teams := if s.teams.any (fun e => e.2.limit != 0) then
        Table.mapVals s.teams fun _ t => { t with limit := if Nat.ble t.limit n then (if t.limit == 0 then 0 else 1)
          else t.limit - n }
      else s.teams }

/-- A step without an encoding, with its operands. -/
abbrev Work1 := Instr × Detail

/-- The first of some steps that is there. -/
def firstOf (xs : List (Option Work1)) : Option Work1 := xs.findSome? fun x => x

/-- Lines, values and writes that arrive, and runs that end (R63, R68, R188, R197, R235, R303). -/
def State.dueMemory (s : State) : Option Work1 :=
  firstOf [
    (s.quads.findSome? fun q => q.2.filling.head?.map fun f => (.icacheLineFill, .numbers [q.1, f.1, f.2])),
    (s.pendings.findSome? fun p => match p.2.kind with
    | 0 => some (.memoryReply, .place p.1 0)
    | 1 => some (.atomicReturn, .place p.1 0)
    | 3 => some (.storeValueReturn, .place p.1 0)
    | _ => none),
    ((Table.first? s.flights fun _ f => f.into.isNone).map fun f => (.writeBackAck, .place f.1 0)),
    (s.cores.findSome? fun c => if Nat.ble 256 c.2.runCount || Nat.ble 256 c.2.affineCount then some (.issueRunEnd, .place c.1 0) else none)]

/-- An operation that its engine may perform, or that has waited its time (R249, R303, R339, R364). -/
def State.dueOp (s : State) (id : Nat) (o : Op) : Option Work1 :=
  let free := o.miss.isNone && !(s.away o.ctx)
  if s.timedOut o then some (.fabricTimeout, .place id 0)
  else if o.cls == 0 then (if free then some (.copyOpComplete, .place id 0) else none)
  else match o.work with
    | .settled _ | .copyOut _ _ _ _ | .readResult _ _ _ => if free then some (.storeOpComplete, .place id 0) else none
    | .contribute _ dst none _ =>
      if o.miss.isNone && (contributionPlace dst).1 == s.pkgnum &&
          !((Table.getD s.slots (contributionPlace dst).2.1 {}).taking s.clock) then some (.quorumContribution, .contribution (.fromHere id))
      else none
    | .contribute _ _ (some n) _ => if Nat.ble 64 (2 * (s.clock - n)) then some (.qcontResend, .place id 0) else none
    | _ => none

/-- Work of the engines and of the matrix arrays (R282, R287, R336). -/
def State.dueEngines (s : State) : Option Work1 :=
  firstOf [
    (s.ops.findSome? fun o => s.dueOp o.1 o.2),
    (s.cores.findSome? fun c =>
    if s.away (s.part (s.partOf c.1)).live then none
    else if c.2.matrixRun.isSome then some (.matrixOpComplete, .place c.1 0)
    else if c.2.matrixQueue.isEmpty then none else some (.matrixOpStart, .place c.1 0)),
    (s.slots.findSome? fun x => if s.slotExpired x.2 then some (.quorumTimerExpiry, .place x.1 0) else none)]

/-- Waits, beats, silences, the lease, digests, images, checkpoints and health (R323, R327, R328, R396, R417, R420, R423,
R425, R426, R427, R440). -/
def State.dueTimers (s : State) : Option Work1 :=
  firstOf [
    (s.teams.findSome? fun t => match t.2.wait with
    | .version _ _ => if t.2.limit == 1 then some (.ldvWaitLimit, .place t.1 0) else none
    | _ => none),
    (if Nat.blt s.beatAt s.clock && Nat.ble s.pbeat.toNat (2 * (s.clock - s.beatAt)) && s.ctxs.any fun x => !x.2.peers.isEmpty
    then some (.heartbeatPeriod, .nothing) else none),
    (s.ctxs.findSome? fun x => ((List.range x.2.peers.length).find? fun i => s.isSilent x.1 i).map fun i =>
    (.peerSilent, .place x.1 i)),
    (if s.lease.held && !s.leased then some (.leaseExpiry, .nothing) else none),
    (((List.range 4).find? fun d => (s.digest d).running).map fun d => (.digestComplete, .place d 0)),
    (if s.update.state == 2 && s.update.halted.all (fun h => h) && s.threadsQuiet then some (.handover, .nothing) else none),
    (if s.hbtoOver && s.threadsQuiet then some (.hbtoExpiry, .nothing) else none),
    (match s.transfer with
    | some x => some (if x.restore then .restoreComplete else .ckptComplete, .nothing)
    | none => none),
    (if s.leased && !s.spdm.unsigned.isEmpty then some (.spdmResponseSign, .nothing) else none),
    (s.cores.findSome? fun c =>
    if c.2.power == .gated && c.2.wakeHeld then some (.corePowerUp, .place c.1 0) else none),
    (if Nat.ble 1200000000 (2 * (s.clock - s.health.updatedAt)) then some (.healthCounterUpdate, .numbers []) else none)]

/-- Work of the partitions and of the dealer (R391, R401, R403, R404, R405). -/
def State.dueDealer (s : State) : Option Work1 :=
  firstOf [
    (s.parts.findSome? fun p =>
    if p.2.phase == 3 then some (.swapExchangeComplete, .place p.1 0)
    else if p.2.phase != 0 && s.drained p.2.live then some (.partitionDrainComplete, .place p.1 0) else none),
    (s.launches.findSome? fun l =>
    if s.launchOver l.1 l.2 then some (.launchEnd, .place l.1 0)
    else match l.2.again with
      | some n => if l.2.state == .prologue && Nat.ble n s.fclk then some (.prologueRepeat, .place l.1 0) else none
      | none => none),
    (if s.firstWaiting.isSome then
    ((List.range 4).find? fun d => match s.team? (proKey d) with
      | some t => t.role == .prologue && t.wait == .idle
      | none => false).map fun d => (.prologueStart, .place d 0)
   else none),
    (s.cores.findSome? fun c => match c.2.chunk with
    | some (id, _, n) => match Table.find? s.launches id with
      | some l =>
        if n != 0 && !(l.waiting.contains c.1) && s.partRuns (s.partOf c.1) && c.2.power == .running && s.room c.1 l.dws then
          some (.blockPlacement, .place c.1 0) else none
      | none => none
    | none => none),
    (s.parts.findSome? fun p =>
    if !s.partRuns p.1 then none else
    ((s.coresOf p.1).find? fun c => (s.core c).chunk.isNone && !((s.core c).power == .gated && (s.core c).wakeHeld) &&
      match s.dealer c with
      | some l => s.room c l.2.dws
      | none => false).map fun c => (.chunkRequest, .place c 0))]

/-- The work of the package that is due now: the first step without an encoding that some unit is ready to make. -/
def State.due (s : State) : Option Work1 := s.dueMemory.or (s.dueEngines.or (s.dueTimers.or s.dueDealer))

/-- The team that a core's scheduler, or its affine engine, issues for: that of the present run while it can issue,
otherwise the oldest team that can (R62, R63, R266). -/
def State.pickOf (s : State) (core : Nat) (affine : Bool) : Option Nat :=
  let mine := s.teams.filter fun e =>
    isCoreKey e.1 && coreOf e.1 == core && (e.2.role == .loader) == affine && s.canIssue e.1 e.2
  let run := mine.find? fun e => (s.core core).runOf affine == some e.1
  match run with
  | some e => some e.1
  | none => match mine with
    | [] => none
    | e :: es => some (es.foldl (fun (b : Nat × Team) x => if Nat.blt x.2.stamp b.2.stamp then x else b) e).1

/-- The issuers that could issue now: for each core with teams the ones that its scheduler and its affine engine pick, and
each control thread. -/
def State.issuers (s : State) : List Nat :=
  let cores := ((s.teams.filter fun e => isCoreKey e.1).map fun e => coreOf e.1).eraseDups
  cores.filterMap (fun c => s.pickOf c false) ++ cores.filterMap (fun c => s.pickOf c true) ++
    (s.teams.filter fun e => !isCoreKey e.1 && s.canIssue e.1 e.2 && s.hasTurn e.1 e.2).map Prod.fst

end Sys2Proof.Machine
end

