-- ==== Sys2Proof/Machine/Issue.lean ====
section
/-! DEFINITION. Issuing one word of a team (R33 to R41, R62, R63): fetch, target, chain, decoding, scoreboard, effect. -/

namespace Sys2Proof.Machine

/-- A control core keeps which of its threads issued last (R395). -/
def State.turned (s : State) (k : Nat) : State :=
  if isCoreKey k then s else { s with lastThread := s.lastThread.set (dieOf k) k }

/-- Issues the word that was fetched: its chain and target are legal (R35 to R37, R54), its literal comes through the quad
cache like any word (R52, R68), no value on its way to a register holds it back (R23), and the slices that it touches are
brought back (R129). DESIGN CHOICE: a literal that
cannot be fetched raises its cause with TPC at the SLIT or SLITH (log 100). -/
def State.issueWord (s : State) (k : Nat) (t : Team) (w : Code) : Host.Outcome State Fault Refusal :=
  let s1 := { s with actor := k }
  match s1.wordCause k t w with
  | some c => .next ((s1.turned k).takeTrap k c {})
  | none =>
    match (if isLiteralWord w then s1.fetch k t (t.pc + 4) else .word 0) with
    | .wait s' => .next s'
    | .fault c s' => .next ((s'.turned k).takeTrap k c {})
    | .word lit =>
      match rawDecode w lit with
      | .error e => .next ((s1.turned k).takeTrap k (undecoded t e) {})
      | .ok i => if s1.scoreboard t i then .next (s1.endOwnRun k) else exec i ((s1.turned k).bringBack k t i)

/-- One word of a team or thread, where it is ready (R22, R62); or the cause that what it waited for has left it: an LDV is over
then (R323). -/
def State.issue (s : State) (k : Nat) : Host.Outcome State Fault Refusal :=
  match s.team? k with
  | none => .next s
  | some t =>
    if t.wait != .ready || !s.mayRun k t || !s.hasTurn k t then .next s else
    match t.raised with
    | some (c, a) => .next ((s.loadEnds k t).takeTrap k c { pass := t.resume, addr := a })
    | none =>
      let s1 := s.beginImage t
      match s1.fetch k t t.pc with
      | .wait s' => .next s'
      | .fault c s' => .next ((s'.turned k).takeTrap k c {})
      | .word w =>
        match (if t.chained then none else s1.fetchChain k t (packetRoom t.pc - 1) t.pc w) with
        | some s' => .next s'
        | none => s1.issueWord k t w

end Sys2Proof.Machine
end

