-- ==== Sys2Proof/Machine/Step.lean ====
section
/-! DEFINITION. One step of the package (log 2, 7, 8): the next happening of the agenda, work that is due, or a word of the
next issuer; and the placing of an instruction where the next step fetches it. -/

namespace Sys2Proof.Machine

/-- One step: three outcomes. -/
def step (s : State) : Host.Outcome State Fault Refusal :=
  match s.agenda with
  | .event i d :: rest => exec i { s with agenda := rest, detail := d }
  | .issue k :: rest => { s with agenda := rest }.issue k
  | .wait n :: rest => .next ({ s with agenda := rest }.tick n)
  | [] =>
    match s.due with
    | some (i, d) => exec i { s with detail := d }
    | none =>
      let s1 := { (s.tick 1).endRuns with turn := s.turn + 1 }
      match s1.issuers with
      | [] => .next s1
      | ks => s1.issue (ks.getD (s.turn % ks.length) 0)

/-- A context alone on a partition of quad 0 of die 0, with the page table of `withFetchWord` (log 7). -/
def probeContext : Context := { alive := true, key := some 1, part := 1, ptroot := 0x10000 }

/-- A team of 32 lanes as placement leaves it (R121, R404), with its PC at 0 (log 7). -/
def probeTeam (uid : Nat) : Team :=
  { uid := uid, ctx := 1, part := 1, launch := 0, record := 0, pos := 0, block := 0, leader := 0, role := .alone, level := 0
    width := 32, vdecl := 32, pdecl := 8, pc := 0, live := fullMask 32, active := fullMask 32
    x := List.replicate 8 (BitVec.ofNat 16 (32 * 256)), dsbase := 0, stamp := 0 }

/-- The forms that only a thread of a control core has an effect for, and the thread: system, or prologue. -/
def probeThread (w : Code) : Option Bool :=
  match rowOfWord w with
  | (0x3C, m) => if m == 4 || m == 5 || m == 6 then some true else none
  | (0x35, 3) => some true
  | (0x3E, 0) => some (!w.getLsbD 0)
  | (0x3E, 1) => some false
  | (0x3E, 3) => some true
  | _ => none

/-- The instruction w, with zero words after it, placed where the next step fetches it: the quad cache of quad 0 for a
team of core 0, or memory for a thread of die 0's control core (log 7). -/
def State.withFetchWord (s : State) (nbits w : Nat) : State :=
  let c := BitVec.ofNat 32 w
  let next : Code := if Nat.ble nbits 32 then 0 else BitVec.ofNat 32 (w / 4294967296)
  let code := toBytes 4 c.toNat ++ toBytes 4 next.toNat
  match probeThread c with
  | some true =>
    let s1 := s.homeWriteRun 0 code (some 0)
    { s1 with
      agenda := [.issue (sysKey 0)]
      teams := Table.put s1.teams (sysKey 0) (Team.thread 1 .system 2 .ready) }
  | some false =>
    { s with
      agenda := [.issue (proKey 0)]
      teams := Table.put s.teams (proKey 0) { Team.thread 2 .prologue 0 .ready with ctx := 1 }
      owners := Table.put s.owners 16 1
      ctxs := Table.put s.ctxs 1 probeContext
      tlb := Table.put s.tlb 0 [{ ctx := 1, base := 0, size := 65536, leaf := 0x100037 }] }.homeWriteRun 0x100000 code (some 0)
  | none =>
    { s with
      agenda := [.issue 0]
      teams := Table.put s.teams 0 (probeTeam s.serial)
      serial := s.serial + 1
      ctxs := Table.put s.ctxs 1 probeContext
      parts := Table.put s.parts 1 { live := 1, stopped := false }
      quads := Table.put s.quads 0
        { part := 1, icache := [(1, 0, some c :: some next :: List.replicate 46 (some 0))] } }

end Sys2Proof.Machine
end

