-- ==== Sys2Proof/Safety.lean ====
section
/-! DEFINITION. The terms that claims use: an issuer that is ready, what a completed instruction leaves as it was, and the
invariant that every step keeps. -/

namespace Sys2Proof.Machine

/-- Team k issues instruction i: it is the acting team, and no check made before the effect stops the form (R54). -/
def Ready (s : State) (k : Nat) (t : Team) (i : Instr) : Prop :=
  s.actor = k ∧ s.team? k = some t ∧ formCause t i = none

/-- A team but for its age stamp (R62). -/
def Team.unstamped (t : Team) : Team := { t with stamp := 0 }

/-- A team but for its age stamp and the mark that its chain holds a YIELD (R35, R62). -/
def Team.timeless (t : Team) : Team := { t with stamp := 0, yielded := false }

/-- A core but for its issue run (R63). -/
def Core.still (x : Core) : Core := { x with runTeam := none, runCount := 0, affineTeam := none, affineCount := 0 }

/-- A core but for its issue run, its slice store, and its reuse table with its counters (R63, R126, R134, R145). -/
def Core.stillReuse (x : Core) : Core :=
  { x with
    runTeam := none, runCount := 0, affineTeam := none, affineCount := 0, reuse := [], ruhits := 0, rulook := 0
    slices := [], names := [], nextSlice := 0 }

/-- The slice store of team k's core has a place for a new slice of every pass of one instruction, beside those that are kept for
values on their way, so that none moves to the
spill area (R128, R129). -/
def State.SliceRoom (s : State) (k : Nat) : Prop :=
  (s.core (coreOf k)).slices.length + s.slicesDue (coreOf k) + 32 ≤ sliceRoom

/-- A finite value of a format (R146). -/
def Fp.finite : Fp → Bool
  | .fin _ _ _ => true
  | _ => false

/-- The sign of a value (R146). -/
def Fp.minus : Fp → Bool
  | .fin neg _ _ => neg
  | .inf neg => neg
  | .nan _ => false

/-- The exact number that a finite value is (R146). -/
def Fp.value : Fp → Rat
  | .fin neg m e => (if neg then -1 else 1) * (m : Rat) * (2 : Rat) ^ e
  | _ => 0

/-- Every byte of memory reads as before. -/
def SameMemory (s s' : State) : Prop := ∀ a, s'.byte a = s.byte a

/-- Team k's instruction has changed no team but k, no core beyond what the view of a core leaves out, and no other field of
the state. -/
structure OnlyTeam (view : Core → Core) (k : Nat) (s s' : State) : Prop where
  others : ∀ j, j ≠ k → (s'.team? j).map Team.unstamped = (s.team? j).map Team.unstamped
  cores : ∀ c, view (s'.core c) = view (s.core c)
  rest : s' = { s with teams := s'.teams, cores := s'.cores }
  memory : SameMemory s s'

/-- Instruction i has completed: team k stands past its words as the team u, and nothing else has changed. -/
def Completed (i : Instr) (k : Nat) (s s' : State) (u : Team) : Prop :=
  (s'.team? k).map Team.timeless = some (u.advance (chainBit i) (wordsOf i)).timeless ∧ OnlyTeam Core.still k s s'

/-- The same for a form whose passes use the reuse table and the slice store. -/
def CompletedPasses (i : Instr) (k : Nat) (s s' : State) (u : Team) : Prop :=
  (s'.team? k).map Team.timeless = some (u.advance (chainBit i) (wordsOf i)).timeless ∧ OnlyTeam Core.stillReuse k s s'

/-- Instruction i has transferred control to pc: team k stands there as the team u, and nothing else has changed. -/
def Transferred (pc : Word) (k : Nat) (s s' : State) (u : Team) : Prop :=
  (s'.team? k).map Team.timeless = some (u.transfer pc).timeless ∧ OnlyTeam Core.still k s s'

/-- Team u is team t with lanes of register d written: those of the mask, from the mask word at which the instruction
resumes, take the values of f and set its flags; every other lane, register and field is as it was (R19, R102, R149). A slice
written whole is no longer poisoned, and is counted where nothing has read its poison (R205, R427). -/
structure WroteLanes (t u : Team) (d : Nat) (m : Mask) (f : Nat → Word × BitVec 6) : Prop where
  lanes : ∀ l, l < t.width → u.lane d l = if m.getLsbD l ∧ 32 * t.resume ≤ l then (f l).1 else t.lane d l
  others : ∀ r, r ≠ d → u.vreg r = t.vreg r
  flags : ∀ b, u.nflags.getLsbD b =
    (t.nflags.getLsbD b || (List.range t.width).any fun l => m.getLsbD l && Nat.ble (32 * t.resume) l && (f l).2.getLsbD b)
  poison : u.poison = t.poison.filter fun p =>
    !(p.reg == d && rowBits m p.row == BitVec.allOnes 32 && Nat.ble t.resume p.row)
  unread : u.unread = t.unread + (t.poison.filter fun p =>
    (p.reg == d && rowBits m p.row == BitVec.allOnes 32 && Nat.ble t.resume p.row) && !p.read).length
  rest : u = { t with v := u.v, nflags := u.nflags, poison := u.poison, unread := u.unread }

/-- A core but for its issue run and the order of its L1's lines (R63, R188). -/
def Core.stillL1 (x : Core) : Core := { x with runTeam := none, runCount := 0, affineTeam := none, affineCount := 0, lines := [] }

/-- A core but for its issue run, its L1's lines, its slice store, and its reuse table with its counters (R63, R126, R134,
R145, R188). -/
def Core.stillLoads (x : Core) : Core := { x.stillReuse with lines := [] }

/-- A team but for its age stamp and what it waits for (R22, R62). -/
def Team.registers (t : Team) : Team := { t with stamp := 0, wait := .ready }

/-- Team k stands past the words of instruction i with the registers of the team u. -/
def Past (i : Instr) (k : Nat) (s' : State) (u : Team) : Prop :=
  (s'.team? k).map (fun x => x.timeless.registers) = some (u.advance (chainBit i) (wordsOf i)).timeless.registers

/-- No team but k has changed beyond its age stamp and what it waits for. -/
def OthersStand (k : Nat) (s s' : State) : Prop :=
  ∀ j, j ≠ k → (s'.team? j).map Team.registers = (s.team? j).map Team.registers

/-- Every byte of memory outside a run of n bytes reads as before. -/
def SameOutside (pa n : Nat) (s s' : State) : Prop := ∀ a, a < pa ∨ pa + n ≤ a → s'.byte a = s.byte a

/-- Team u is team t with lanes of register d loaded: those of the mask in whole mask words, from lo on, take the values of
f; every other lane and register is as it was (R19, R197). A slice loaded whole is no longer poisoned (R205). -/
structure LoadedLanes (t u : Team) (d lo : Nat) (m : Mask) (f : Nat → Word) : Prop where
  lanes : ∀ l, l < t.width → u.lane d l =
    if m.getLsbD l ∧ 32 * lo ≤ l ∧ l < 32 * (t.width / 32) then f l else t.lane d l
  others : ∀ r, r ≠ d → u.vreg r = t.vreg r
  poison : ∀ r row, u.poisonOf r row =
    if r = d ∧ lo ≤ row ∧ row < t.width / 32 ∧ rowBits m row = BitVec.allOnes 32 then none else t.poisonOf r row
  rest : u = { t with v := u.v, poison := u.poison, unread := u.unread }

/-- What lets an operation o of the copy engine move n bytes in order, byte i from src i to dst i, in memory or in the scratchpad of
its block (R249, R251, R255): every place of memory can be reached, at one home for each line, its source is correctable, and
nothing of the issuing core is on its way to where it writes. -/
structure MayMove (s : State) (o : Op) (srcMem dstMem : Bool) (n : Nat) (src dst : Nat → Word) : Prop where
  sources : srcMem = true → ∀ i, i < n → s.engineCause o (src i) false [0, 1, 4] = none ∧
    s.badData (s.engineAddr o (src i) false) = false ∧ s.badDesc (s.engineAddr o (src i) false) = false
  destinations : dstMem = true → ∀ i, i < n → s.engineCause o (dst i) true [0, 4] = none ∧
    (s.tlbFind (dieOf o.key) o.ctx (sig57 (dst i))).isSome ∧ s.engineAddr o (dst i) true % 64 = sig57 (dst i) % 64 ∧
    ∀ j, j < n → (s.engineAddr o (dst j) true / 64 = s.engineAddr o (dst i) true / 64 ↔ sig57 (dst j) / 64 = sig57 (dst i) / 64)
  memory : dstMem = true → (s.core o.core).lines = [] ∧ s.flights = [] ∧ Memory.wf s.mem = true
  scratch : dstMem = false → ∃ b, s.block? o.block = some b ∧ Table.wf (Table.getD b.scratch o.part []) = true

/-- The bytes have been moved (R249, R254, R257): each destination holds what the last byte for it held at its source, and no other
byte of memory, or of the operation's scratchpad, has changed. -/
structure MovedBytes (s s' : State) (o : Op) (srcMem dstMem : Bool) (n : Nat) (src dst : Nat → Word) : Prop where
  memory : dstMem = true →
    (∀ i, i < n → (∀ j, i < j → j < n → sig57 (dst j) ≠ sig57 (dst i)) →
      s'.byte (s.engineAddr o (dst i) true) = if srcMem then s.engineByte o (src i) else s.engineScratch o (src i).toNat) ∧
    ∀ a, (∀ i, i < n → s.engineAddr o (dst i) true ≠ a) → s'.byte a = s.byte a
  scratch : dstMem = false →
    (∀ i, i < n → (∀ j, i < j → j < n → dst j ≠ dst i) →
      s'.engineScratch o (dst i).toNat = if srcMem then s.engineByte o (src i) else s.engineScratch o (src i).toNat) ∧
    (∀ a, (∀ i, i < n → (dst i).toNat ≠ a) → s'.engineScratch o a = s.engineScratch o a) ∧ SameMemory s s'

/-- The directory entry of a name that q references are taken from (R298, R299): a count at its limit stays, and one that reaches
zero leaves the entry QUIET. -/
def DirEntry.down (e : DirEntry) (q : Nat) : DirEntry :=
  if q = 0 ∨ e.quiet ∨ e.count = 0xFFFFFFFF then e
  else if q < e.count then { e with count := e.count - q } else { e with count := 0, quiet := true }

/-- A release of a name frees no node below it: its directory is x, and es are the entries of the node that it frees itself, if
it does (R299). -/
def Releases (s : State) (c : Nat) (x : Word → Option DirEntry) (n : Word) (es : List Word) : Prop :=
  (n = zeroName ∧ es = []) ∨ (n ≠ zeroName ∧ ∃ e, x n = some e ∧ e.quiet = false ∧
    (((e.node = false ∨ 1 < e.count) ∧ es = []) ∨
      (e.node = true ∧ e.count ≤ 1 ∧ s.nodeOf c e = .ok (some es) ∧ ∀ m ∈ es, m = zeroName ∨ (m ≠ n ∧ ∃ y, x m = some y ∧
        y.quiet = false ∧ y.count ≠ 0xFFFFFFFF ∧ es.count m ≤ y.count ∧ (es.count m < y.count ∨ y.node = false)))))

/-- The entry of a name m that such a release leaves (R299). -/
def releasedEntry (x : Word → Option DirEntry) (n : Word) (es : List Word) (m : Word) : Option DirEntry :=
  if m = zeroName then x m else (x m).map fun e => e.down (if m = n then 1 else es.count m)

/-- A vector form that reads the registers srcs completes where no slice of them that it reads is poisoned and the slice store
has room, and writes the lanes of a mask in register d. -/
def VectorResult (i : Instr) (s : State) (k : Nat) (t : Team) (srcs : List Nat) (d : Nat) (m : Mask)
    (f : Nat → Word × BitVec 6) : Prop :=
  Ready s k t i → t.poisonStop srcs = none → s.SliceRoom k →
    ∃ s' u, exec i s = .next s' ∧ CompletedPasses i k s s' u ∧ WroteLanes t u d m f

/-- A list of contributions after some merges: each takes one of them away and adds it, as one FP32 addition, to another (R233). -/
inductive Merged : List Nat → List Nat → Prop where
  | same (xs : List Nat) : Merged xs xs
  | merge (xs ys : List Nat) (i j : Nat) : i < xs.length → j < (xs.eraseIdx i).length →
      Merged ((xs.eraseIdx i).set j (fp32.add ((xs.eraseIdx i).getD j 0) (xs.getD i 0)).1) ys → Merged xs ys

/-- A team that stands at a core's key is no control thread and runs at user level (R369). -/
def userEntry (e : Nat × Team) : Prop :=
  isCoreKey e.1 = true → e.2.level = 0 ∧ e.2.role ≠ .system ∧ e.2.role ≠ .prologue

/-- Cores run at user level, in what is resident and in what the cellars hold (R369). -/
def State.CoresAtUser (s : State) : Prop :=
  (∀ e ∈ s.teams, userEntry e) ∧ ∀ x ∈ s.cellars, ∀ e ∈ x.2.teams, userEntry e

end Sys2Proof.Machine
end

