-- ==== Sys2Proof/Certificates/Slice0/Obligations.lean ====
section
/-! DEFINITION. What is claimed of the machine, each claim from numbered rules of the manual. A claim that covers a family is
made of parts, each named Claim. -/

open Sys2Proof Sys2Proof.Machine

/-! ### Registers, completing a word, scalar arithmetic -/

/-- R103: s0 reads zero and p0 reads true, both ignore writes, every other register holds what was written, and a predicate
number that is not below the declared count raises cause 41. -/
def Obligations.HardwiredRegisters : Prop :=
  (∀ (t : Team) (r q : BitVec 5) (w : Word), (t.setS r w).s q = if q = r ∧ r ≠ 0 then w else t.s q) ∧
  (∀ t : Team, t.s 0 = 0) ∧
  (∀ (t : Team) (n j l : Nat) (m v : Mask), l < 1024 →
    ((t.setPred n m v).pred j).getLsbD l =
      if j = n ∧ n ≠ 0 ∧ m.getLsbD l then v.getLsbD l else (t.pred j).getLsbD l) ∧
  (∀ (t : Team) (l : Nat), l < 1024 → (t.pred 0).getLsbD l = true) ∧
  (∀ (t : Team) (i : Instr), t.role = .alone → privileged t i = false → i.wf = true →
    (formCause t i = some 41 ↔ ∃ n ∈ predsOf i, t.pdecl ≤ n))

/-- R33, R90: where a chain ends, the PC goes past the word and its literal; the levels that end at the last word with a count of
at most 1 close, from the innermost outwards, and the next one out goes back where it ends there too with a count above 1; inside
a handler loop state is frozen. Nothing else of the team changes but what goes with the PC. -/
def Obligations.GoingPastAWord : Prop :=
  ∀ (t : Team) (n : Nat), 1 ≤ n →
    let past := t.pc + BitVec.ofNat 64 (4 * n)
    let end_ := t.pc + BitVec.ofNat 64 (4 * (n - 1))
    let u := t.advance false n
    (t.advance true n).pc = past ∧ (t.advance true n).loops = t.loops ∧
    (t.trap.inh = true → u.pc = past ∧ u.loops = t.loops) ∧
    (t.trap.inh = false → ∀ closed rest, t.loops = closed ++ rest → (∀ x ∈ closed, x.last = end_ ∧ x.count ≤ 1) →
      (rest = [] → u.pc = past ∧ u.loops = [] ∧ u.target = false) ∧
      ∀ y outer, rest = y :: outer →
        (y.last ≠ end_ → u.pc = past ∧ u.loops = rest ∧ u.target = false) ∧
        (y.last = end_ → 1 < y.count →
          u.pc = y.first ∧ u.loops = { y with count := y.count - 1 } :: outer ∧ u.target = true ∧ u.inPacket = false)) ∧
    u = { t with pc := u.pc, loops := u.loops, inPacket := u.inPacket, target := u.target, chained := false, resume := 0, phase := 0
                 raised := none }

/-- R110: the thirteen forms of row 0x07 complete on every operand; SD takes the result, and nothing else changes. -/
def Claim.ScalarResults : Prop :=
  ∀ x ∈ ([(Instr.sadd, fun _ a b => a + b), (Instr.ssub, fun _ a b => a - b), (Instr.smul, fun _ a b => a * b),
      (Instr.smulh, fun u a b => if u then BitVec.ofNat 64 (a.toNat * b.toNat / 2 ^ 64)
        else BitVec.ofInt 64 (a.toInt * b.toInt / 2 ^ 64)),
      (Instr.sand, fun _ a b => a &&& b), (Instr.sor, fun _ a b => a ||| b), (Instr.sxor, fun _ a b => a ^^^ b),
      (Instr.sshl, fun _ a b => a <<< (b.toNat % 64)), (Instr.sshr, fun _ a b => a >>> (b.toNat % 64)),
      (Instr.ssar, fun _ a b => a.sshiftRight (b.toNat % 64)),
      (Instr.smin, fun u a b => if (if u then a.toNat ≤ b.toNat else a.toInt ≤ b.toInt) then a else b),
      (Instr.smax, fun u a b => if (if u then a.toNat ≤ b.toNat else a.toInt ≤ b.toInt) then b else a),
      (Instr.smov, fun _ a _ => a)] : List ((FmtS → Instr) × (Bool → Word → Word → Word))),
    ∀ (f : FmtS) (s : State) (k : Nat) (t : Team), Ready s k t (x.1 f) →
      ∃ s', exec (x.1 f) s = .next s' ∧
        Completed (x.1 f) k s s' (t.setS f.sd (x.2 (f.f == 1) (t.s f.sa) (t.s f.sb)))

/-- R111: the immediate forms of row 0x08 complete on every operand; SLIT and SLITH take their literal, and raise cause 8
where it lies beyond the end of an open loop body (R90). -/
def Claim.ScalarImmediates : Prop :=
  (∀ x ∈ ([(Instr.saddi, fun i a => a + i.signExtend 64), (Instr.sandi, fun i a => a &&& i.signExtend 64),
      (Instr.sori, fun i a => a ||| i.signExtend 64), (Instr.sxori, fun i a => a ^^^ i.signExtend 64),
      (Instr.sshli, fun i a => a <<< i.toNat), (Instr.sshri, fun i a => a >>> i.toNat),
      (Instr.sldi, fun i _ => i.signExtend 64)] : List ((FmtSI → Instr) × (BitVec 11 → Word → Word))),
    ∀ (f : FmtSI) (s : State) (k : Nat) (t : Team), Ready s k t (x.1 f) →
      ∃ s', exec (x.1 f) s = .next s' ∧ Completed (x.1 f) k s s' (t.setS f.sd (x.2 f.imm (t.s f.sa)))) ∧
  ∀ x ∈ ([(Instr.slit, fun w _ => w.signExtend 64),
      (Instr.slith, fun w a => BitVec.ofNat 64 (w.toNat * 2 ^ 32 + a.toNat % 2 ^ 32))] :
        List ((FmtSI → Code → Instr) × (Code → Word → Word))),
    ∀ (f : FmtSI) (w : Code) (s : State) (k : Nat) (t : Team), Ready s k t (x.1 f w) →
      ((t.trap.inh = true ∨ ∀ l ∈ t.loops, l.last ≠ t.pc) →
        ∃ s', exec (x.1 f w) s = .next s' ∧ Completed (x.1 f w) k s s' (t.setS f.sd (x.2 w (t.s f.sd)))) ∧
      (t.trap.inh = false → (∃ l ∈ t.loops, l.last = t.pc) → exec (x.1 f w) s = .next (s.takeTrap k 8 {}))

/-- R110, R111: Rows 0x07 and 0x08 complete with their results and change nothing else. -/
def Obligations.ScalarArithmetic : Prop := Claim.ScalarResults ∧ Claim.ScalarImmediates

/-! ### Vector integer forms -/

/-- R100, R101: the sub-elements of a packed lane are its parts, each cut to its width. -/
def Claim.SubElements : Prop :=
  ∀ w ∈ [4, 8, 16, 32, 64], ∀ (f : Nat → Nat) (e : Nat), e < 64 / w → elem w (pack w f) e = f e % 2 ^ w

/-- R105: row 0x04 on every sub-element of every active lane whose guard is true; IMAC reads its destination. -/
def Claim.IntegerResults : Prop :=
  (∀ x ∈ ([(Instr.iadd, fun _ a b => a + b), (Instr.isub, fun w a b => low w (Int.ofNat a - Int.ofNat b)),
      (Instr.imul, fun _ a b => a * b), (Instr.imulh, fun w a b => low w (sgn w a * sgn w b / 2 ^ w)),
      (Instr.imin, fun w a b => if sgn w a ≤ sgn w b then a else b),
      (Instr.imax, fun w a b => if sgn w a ≤ sgn w b then b else a),
      (Instr.umin, fun _ a b => if a ≤ b then a else b), (Instr.umax, fun _ a b => if a ≤ b then b else a),
      (Instr.and, fun _ a b => Nat.land a b), (Instr.or, fun _ a b => Nat.lor a b), (Instr.xor, fun _ a b => Nat.xor a b),
      (Instr.andn, fun w a b => Nat.land a (2 ^ w - 1 - b)),
      (Instr.shl, fun w a b => a * 2 ^ (b % w)), (Instr.shr, fun w a b => a / 2 ^ (b % w)),
      (Instr.sar, fun w a b => low w (sgn w a / 2 ^ (b % w)))] : List ((FmtV → Instr) × (Nat → Nat → Nat → Nat))),
    ∀ (f : FmtV) (s : State) (k : Nat) (t : Team),
      VectorResult (x.1 f) s k t [f.a.toNat, f.b.toNat] f.d.toNat (t.takers f.g) fun l =>
        (pack (widthOf f.t) fun e =>
          x.2 (widthOf f.t) (elem (widthOf f.t) (t.lane f.a.toNat l) e) (elem (widthOf f.t) (t.lane f.b.toNat l) e), 0)) ∧
  ∀ (f : FmtV) (s : State) (k : Nat) (t : Team),
    VectorResult (.imac f) s k t [f.d.toNat, f.a.toNat, f.b.toNat] f.d.toNat (t.takers f.g) fun l =>
      (pack (widthOf f.t) fun e => elem (widthOf f.t) (t.lane f.d.toNat l) e +
        elem (widthOf f.t) (t.lane f.a.toNat l) e * elem (widthOf f.t) (t.lane f.b.toNat l) e, 0)

/-- R106: the immediate forms of row 0x05 on the two 32-bit sub-elements of a lane. -/
def Claim.ImmediateResults : Prop :=
  ∀ x ∈ ([(Instr.iaddi, fun i a => a + (i.signExtend 32).toNat), (Instr.imuli, fun i a => a * (i.signExtend 32).toNat),
      (Instr.andi, fun i a => Nat.land a (i.signExtend 32).toNat), (Instr.ori, fun i a => Nat.lor a (i.signExtend 32).toNat),
      (Instr.xori, fun i a => Nat.xor a (i.signExtend 32).toNat), (Instr.shli, fun i a => a * 2 ^ i.toNat),
      (Instr.shri, fun i a => a / 2 ^ i.toNat), (Instr.sari, fun i a => low 32 (sgn 32 a / 2 ^ i.toNat))] :
        List ((FmtVI → Instr) × (BitVec 7 → Nat → Nat))),
    ∀ (f : FmtVI) (s : State) (k : Nat) (t : Team),
      VectorResult (x.1 f) s k t [f.a.toNat] f.d.toNat (t.takers f.g) fun l =>
        (pack 32 fun e => x.2 f.imm (elem 32 (t.lane f.a.toNat l) e), 0)

/-- R107, R108, R109: counts, reversal, fields, saturating sums with the SAT flag, and selection of row 0x06. -/
def Claim.BitFormResults : Prop :=
  (∀ x ∈ ([(Instr.popc, fun w a => ((List.range w).filter fun i => a.testBit i).length),
      (Instr.clz, fun w a => leadingZeros a w),
      (Instr.brev, fun w a => (List.range w).foldl (fun r i => r + if a.testBit (w - 1 - i) then 2 ^ i else 0) 0)] :
        List ((FmtV → Instr) × (Nat → Nat → Nat))),
    ∀ (f : FmtV) (s : State) (k : Nat) (t : Team),
      VectorResult (x.1 f) s k t [f.a.toNat] f.d.toNat (t.takers f.g) fun l =>
        (pack (widthOf f.t) fun e => x.2 (widthOf f.t) (elem (widthOf f.t) (t.lane f.a.toNat l) e), 0)) ∧
  (∀ (f : FmtV) (s : State) (k : Nat) (t : Team),
    VectorResult (.bfx f) s k t [f.a.toNat, f.b.toNat] f.d.toNat (t.takers f.g) fun l =>
      (pack (widthOf f.t) fun e =>
        let c := elem (widthOf f.t) (t.lane f.b.toNat l) e
        let m := if c % 256 < widthOf f.t then min (c / 256 % 256) (widthOf f.t - c % 256) else 0
        let x := elem (widthOf f.t) (t.lane f.a.toNat l) e / 2 ^ (c % 256) % 2 ^ m
        if m = 0 then 0 else if c.testBit 16 then low (widthOf f.t) (sgn m x) else x, 0)) ∧
  (∀ (f : FmtV) (s : State) (k : Nat) (t : Team),
    VectorResult (.bfi f) s k t [f.d.toNat, f.a.toNat, f.b.toNat] f.d.toNat (t.takers f.g) fun l =>
      (pack (widthOf f.t) fun e =>
        bfiE (widthOf f.t) (elem (widthOf f.t) (t.lane f.d.toNat l) e) (elem (widthOf f.t) (t.lane f.a.toNat l) e)
          (elem (widthOf f.t) (t.lane f.b.toNat l) e), 0)) ∧
  (∀ x ∈ ([(Instr.iadds, fun w a b => clampS w (sgn w a + sgn w b)), (Instr.isubs, fun w a b => clampS w (sgn w a - sgn w b)),
      (Instr.uadds, fun w a b => clampU w (Int.ofNat a + Int.ofNat b)),
      (Instr.usubs, fun w a b => clampU w (Int.ofNat a - Int.ofNat b))] :
        List ((FmtV → Instr) × (Nat → Nat → Nat → Nat × Bool))),
    ∀ (f : FmtV) (s : State) (k : Nat) (t : Team),
      VectorResult (x.1 f) s k t [f.a.toNat, f.b.toNat] f.d.toNat (t.takers f.g) fun l =>
        let r := fun e => x.2 (widthOf f.t) (elem (widthOf f.t) (t.lane f.a.toNat l) e)
          (elem (widthOf f.t) (t.lane f.b.toNat l) e)
        (pack (widthOf f.t) fun e => (r e).1, if ∃ e < 64 / widthOf f.t, (r e).2 = true then flSAT else 0)) ∧
  ∀ (f : FmtV) (s : State) (k : Nat) (t : Team),
    VectorResult (.sel f) s k t [f.a.toNat, f.b.toNat] f.d.toNat t.active fun l =>
      (if (t.guard f.g).getLsbD l then t.lane f.a.toNat l else t.lane f.b.toNat l, 0)

/-- R112, R113: row 0x09 takes one scalar for every written lane; LEA adds a scaled index to it. -/
def Claim.ScalarOperandResults : Prop :=
  (∀ x ∈ ([(Instr.adds, fun _ a c => a + c), (Instr.subs, fun w a c => low w (Int.ofNat a - Int.ofNat c)),
      (Instr.muls, fun _ a c => a * c), (Instr.shls, fun w a c => a * 2 ^ (c % w)), (Instr.ands, fun _ a c => Nat.land a c)] :
        List ((FmtVS → Instr) × (Nat → Nat → Nat → Nat))),
    ∀ (f : FmtVS) (s : State) (k : Nat) (t : Team),
      VectorResult (x.1 f) s k t [f.a.toNat] f.d.toNat (t.takers f.g) fun l =>
        (pack (widthOf f.t) fun e =>
          x.2 (widthOf f.t) (elem (widthOf f.t) (t.lane f.a.toNat l) e) ((t.s f.s).toNat % 2 ^ widthOf f.t), 0)) ∧
  (∀ (f : FmtVS) (s : State) (k : Nat) (t : Team),
    VectorResult (.bcast f) s k t [] f.d.toNat (t.takers f.g) fun _ =>
      (pack (widthOf f.t) fun _ => (t.s f.s).toNat % 2 ^ widthOf f.t, 0)) ∧
  ∀ (f : FmtVS) (s : State) (k : Nat) (t : Team),
    VectorResult (.lea f) s k t [f.a.toNat] f.d.toNat (t.takers f.g) fun l =>
      (t.s f.s + ((t.lane f.a.toNat l).extractLsb' 0 32).signExtend 64 <<< f.t.toNat, 0)

/-- R100, R101, R105, R106, R107, R108, R109, R112, R113: Rows 0x04, 0x05, 0x06 and 0x09 write their results in the lanes they
take. -/
def Obligations.IntegerArithmetic : Prop := Claim.SubElements ∧ Claim.IntegerResults ∧ Claim.ImmediateResults ∧ Claim.BitFormResults ∧ Claim.ScalarOperandResults

/-! ### Compares, predicates, moves -/

/-- R114, R115: a vector compare writes one predicate in the active lanes from sub-element 0, and FCMP sets NV. -/
def Claim.VectorCompares : Prop :=
  ∀ x ∈ ([(Instr.icmp, fun f _ => [f.a.toNat, f.b.toNat],
        fun f t l => (holds f.cond (orderOf (widthOf f.t) f.k (elem (widthOf f.t) (t.lane f.a.toNat l) 0)
          (elem (widthOf f.t) (t.lane f.b.toNat l) 0)), 0)),
      (Instr.icmps, fun f _ => [f.a.toNat],
        fun f t l => (holds f.cond (orderOf (widthOf f.t) f.k (elem (widthOf f.t) (t.lane f.a.toNat l) 0)
          (elem (widthOf f.t) (t.s f.b) 0)), 0)),
      (Instr.fcmp, fun f _ => [f.a.toNat, f.b.toNat],
        fun f t l => compareFp (fpOf f.t) f.cond f.k (elem (fpOf f.t).width (t.lane f.a.toNat l) 0)
          (elem (fpOf f.t).width (t.lane f.b.toNat l) 0))] :
        List ((FmtPC → Instr) × (FmtPC → Team → List Nat) × (FmtPC → Team → Nat → Bool × BitVec 6))),
    ∀ (f : FmtPC) (s : State) (k : Nat) (t : Team), t.width ≤ 1024 → Ready s k t (x.1 f) → t.poisonStop (x.2.1 f t) = none →
      ∃ s' u, exec (x.1 f) s = .next s' ∧ Completed (x.1 f) k s s' u ∧
        (∀ l, l < t.width → (u.pred f.pd.toNat).getLsbD l =
          if f.pd ≠ 0 ∧ t.active.getLsbD l ∧ 32 * t.resume ≤ l then (x.2.2 f t l).1 else (t.pred f.pd.toNat).getLsbD l) ∧
        (∀ j, j ≠ f.pd.toNat → u.pred j = t.pred j) ∧
        (∀ b, u.nflags.getLsbD b = (t.nflags.getLsbD b || (List.range t.width).any fun l =>
          t.active.getLsbD l && Nat.ble (32 * t.resume) l && (x.2.2 f t l).2.getLsbD b)) ∧
        u = { t with p := u.p, nflags := u.nflags }

/-- R116: SCMP writes one verdict into every active lane. -/
def Claim.ScalarCompare : Prop :=
  ∀ (f : FmtPCS) (s : State) (k : Nat) (t : Team), Ready s k t (.scmp f) →
    ∃ s' u, exec (.scmp f) s = .next s' ∧ Completed (.scmp f) k s s' u ∧
      (∀ l, l < 1024 → (u.pred f.pd.toNat).getLsbD l =
        if f.pd ≠ 0 ∧ t.active.getLsbD l then
          holds f.cond (if f.k = 0 then (t.s f.sa).toInt - (t.s f.sb).toInt
            else Int.ofNat (t.s f.sa).toNat - Int.ofNat (t.s f.sb).toNat)
        else (t.pred f.pd.toNat).getLsbD l) ∧
      (∀ j, j ≠ f.pd.toNat → u.pred j = t.pred j) ∧ u = { t with p := u.p }

/-- R114, R115, R116: Rows 0x0A, 0x0B, 0x0C and 0x0E write the predicates of their comparisons. -/
def Obligations.Compares : Prop := Claim.VectorCompares ∧ Claim.ScalarCompare

/-- R117: row 0x0D sets its destination in the active lanes alone, p0 reading true; a field that must be zero and is not
raises cause 4. -/
def Obligations.PredicateLogic : Prop :=
  (∀ x ∈ ([(Instr.pand, fun a b => a && b), (Instr.por, fun a b => a || b), (Instr.pxor, fun a b => a ^^ b),
      (Instr.pandn, fun a b => a && !b), (Instr.pnot, fun a _ => !a), (Instr.pmov, fun a _ => a),
      (Instr.pseta, fun _ _ => true), (Instr.pclr, fun _ _ => false)] : List ((FmtPL → Instr) × (Bool → Bool → Bool))),
    ∀ (f : FmtPL) (s : State) (k : Nat) (t : Team), Ready s k t (x.1 f) →
      ∃ s' u, exec (x.1 f) s = .next s' ∧ Completed (x.1 f) k s s' u ∧
        (∀ l, l < 1024 → (u.pred f.pd.toNat).getLsbD l =
          if f.pd ≠ 0 ∧ t.active.getLsbD l then x.2 ((t.pred f.pa.toNat).getLsbD l) ((t.pred f.pb.toNat).getLsbD l)
          else (t.pred f.pd.toNat).getLsbD l) ∧
        (∀ j, j ≠ f.pd.toNat → u.pred j = t.pred j) ∧ u = { t with p := u.p }) ∧
  ∀ (f : FmtPL) (t : Team), t.role = .alone →
    (f.pb ≠ 0 → formCause t (.pnot f) = some 4 ∧ formCause t (.pmov f) = some 4) ∧
    (f.pa ≠ 0 ∨ f.pb ≠ 0 → formCause t (.pseta f) = some 4 ∧ formCause t (.pclr f) = some 4)

/-- R123, R139: MOV copies lanes; XRD and XWR go through an index register, with cause 40 beyond its limit and cause 41 beyond
the declared registers. -/
def Claim.RegisterMoves : Prop :=
  (∀ (f : FmtV) (s : State) (k : Nat) (t : Team),
    VectorResult (.mov f) s k t [f.a.toNat] f.d.toNat (t.takers f.g) fun l => (t.lane f.a.toNat l, 0)) ∧
  (∀ (f : FmtV) (s : State) (k : Nat) (t : Team), t.xBase f.a.toNat + f.b.toNat < t.xLimit f.a.toNat →
    t.xBase f.a.toNat + f.b.toNat < t.vdecl →
    VectorResult (.xrd f) s k t [t.xBase f.a.toNat + f.b.toNat] f.d.toNat (t.takers f.g) fun l =>
      (t.lane (t.xBase f.a.toNat + f.b.toNat) l, 0)) ∧
  (∀ (f : FmtV) (s : State) (k : Nat) (t : Team), t.xBase f.d.toNat + f.b.toNat < t.xLimit f.d.toNat →
    t.xBase f.d.toNat + f.b.toNat < t.vdecl →
    VectorResult (.xwr f) s k t [f.a.toNat] (t.xBase f.d.toNat + f.b.toNat) (t.takers f.g) fun l => (t.lane f.a.toNat l, 0)) ∧
  ∀ x ∈ ([(Instr.xrd, fun f => f.a), (Instr.xwr, fun f => f.d)] : List ((FmtV → Instr) × (FmtV → BitVec 5))),
    ∀ (f : FmtV) (s : State) (k : Nat) (t : Team), Ready s k t (x.1 f) →
      (t.xLimit (x.2 f).toNat ≤ t.xBase (x.2 f).toNat + f.b.toNat → exec (x.1 f) s = .next (s.takeTrap k 40 {})) ∧
      (t.xBase (x.2 f).toNat + f.b.toNat < t.xLimit (x.2 f).toNat → t.vdecl ≤ t.xBase (x.2 f).toNat + f.b.toNat →
        exec (x.1 f) s = .next (s.takeTrap k 41 {}))

/-- R140: XSET, XADD and XGET on one index register; an index register holds LCODE above BASE. -/
def Obligations.IndexRegisters : Prop :=
  ∀ (f : FmtV) (s : State) (k : Nat) (t : Team), t.x.length = 8 →
    (Ready s k t (.xset f) → ∃ s', exec (.xset f) s = .next s' ∧
      Completed (.xset f) k s s' { t with x := t.x.set f.d.toNat ((t.s f.a).extractLsb' 0 16) }) ∧
    (Ready s k t (.xadd f) → ∃ s' y, exec (.xadd f) s = .next s' ∧
      Completed (.xadd f) k s s' { t with x := t.x.set f.d.toNat y } ∧
      y.extractLsb' 8 8 = (t.x.getD f.d.toNat 0).extractLsb' 8 8 ∧
      (y.extractLsb' 0 8).toNat = (((t.x.getD f.d.toNat 0).extractLsb' 0 8).toNat + (t.s f.a).toNat % 256) % 256) ∧
    (Ready s k t (.xget f) → ∃ s', exec (.xget f) s = .next s' ∧
      Completed (.xget f) k s s' (t.setS f.d (BitVec.ofNat 64
        (((t.x.getD f.a.toNat 0).extractLsb' 8 8).toNat * 256 + ((t.x.getD f.a.toNat 0).extractLsb' 0 8).toNat))))

/-- R141, R142: RUSE sets the policy and changes no entry; RCLR takes the team's entries, the context's load-like entries and
its read-only marked lines out of the core. -/
def Claim.ReuseControl : Prop :=
  ∀ (f : FmtV) (s : State) (k : Nat) (t : Team),
    (Ready s k t (.ruse f) → ∃ s', exec (.ruse f) s = .next s' ∧
      Completed (.ruse f) k s s' { t with policy := f.t.toNat }) ∧
    (Ready s k t (.rclr f) → ∃ s', exec (.rclr f) s = .next s' ∧
      (s'.team? k).map Team.timeless = some (t.advance f.c 1).timeless ∧
      (∀ c, c ≠ coreOf k → (s'.core c).still = (s.core c).still) ∧
      (∀ e, e ∈ (s'.core (coreOf k)).reuse ↔
        e ∈ (s.core (coreOf k)).reuse ∧ e.team ≠ t.uid ∧ ¬(e.load = true ∧ e.ctx = t.ctx)) ∧
      (∀ l, l ∈ (s'.core (coreOf k)).lines ↔ l ∈ (s.core (coreOf k)).lines ∧ ¬(l.ctx = t.ctx ∧ l.ro = true)) ∧
      (s'.core (coreOf k)).still = { (s.core (coreOf k)).still with
        reuse := (s'.core (coreOf k)).reuse, lines := (s'.core (coreOf k)).lines } ∧
      s' = { s with teams := s'.teams, cores := s'.cores } ∧ SameMemory s s')

/-- R123, R139, R141, R142: MOV, XRD, XWR, RUSE and RCLR. -/
def Obligations.MovesAndReuse : Prop := Claim.RegisterMoves ∧ Claim.ReuseControl

/-! ### Floating point -/

/-- R152, R153: row 0x11 on every sub-element in the format that T names; FMAC and FNMAC read their destination and round
once. -/
def Claim.FloatResults : Prop :=
  (∀ x ∈ ([(Instr.fadd, fun f a b => f.add a b), (Instr.fsub, fun f a b => f.sub a b), (Instr.fmul, fun f a b => f.mul a b),
      (Instr.fmin, fun f a b => f.minMax false a b), (Instr.fmax, fun f a b => f.minMax true a b),
      (Instr.fcpys, fun f a b => (a % 2 ^ (f.width - 1) + b / 2 ^ (f.width - 1) * 2 ^ (f.width - 1), 0))] :
        List ((FmtV → Instr) × (FpFmt → Nat → Nat → Nat × BitVec 6))),
    ∀ (f : FmtV) (s : State) (k : Nat) (t : Team),
      VectorResult (x.1 f) s k t [f.a.toNat, f.b.toNat] f.d.toNat (t.takers f.g) fun l =>
        eachFp (fpOf f.t) (fun _ => x.2 (fpOf f.t)) (t.lane f.d.toNat l) (t.lane f.a.toNat l) (t.lane f.b.toNat l)) ∧
  (∀ x ∈ ([(Instr.fmac, fun f d a b => f.mac d a b), (Instr.fnmac, fun f d a b => f.nmac d a b)] :
        List ((FmtV → Instr) × (FpFmt → Nat → Nat → Nat → Nat × BitVec 6))),
    ∀ (f : FmtV) (s : State) (k : Nat) (t : Team),
      VectorResult (x.1 f) s k t [f.d.toNat, f.a.toNat, f.b.toNat] f.d.toNat (t.takers f.g) fun l =>
        eachFp (fpOf f.t) (x.2 (fpOf f.t)) (t.lane f.d.toNat l) (t.lane f.a.toNat l) (t.lane f.b.toNat l)) ∧
  ∀ x ∈ ([(Instr.fabs, fun w a => a % 2 ^ (w - 1)), (Instr.fneg, fun w a => Nat.xor a (2 ^ (w - 1)))] :
        List ((FmtV → Instr) × (Nat → Nat → Nat))),
    ∀ (f : FmtV) (s : State) (k : Nat) (t : Team),
      VectorResult (x.1 f) s k t [f.a.toNat] f.d.toNat (t.takers f.g) fun l =>
        eachFp (fpOf f.t) (fun _ a _ => (x.2 (fpOf f.t).width a, 0)) (t.lane f.d.toNat l) (t.lane f.a.toNat l)
          (t.lane f.b.toNat l)

/-- R154, R155: row 0x12 on every sub-element; the results at special operands, whatever the free function gives elsewhere. -/
def Claim.SpecialFunctions : Prop :=
  (∀ x ∈ ([(Instr.frcp, 0), (Instr.frsq, 1), (Instr.fsqrt, 2), (Instr.fexp2, 3), (Instr.flog2, 4), (Instr.fsin, 5),
      (Instr.fcos, 6), (Instr.ftanh, 7)] : List ((FmtV → Instr) × Nat)),
    ∀ (f : FmtV) (s : State) (k : Nat) (t : Team),
      VectorResult (x.1 f) s k t [f.a.toNat] f.d.toNat (t.takers f.g) fun l =>
        eachFp (fpOf f.t) (fun _ a _ => (fpOf f.t).special x.2 a) (t.lane f.d.toNat l) (t.lane f.a.toNat l)
          (t.lane f.b.toNat l)) ∧
  fp32.special 0 0 = (0x7F800000, flDZ) ∧ fp32.special 0 0x80000000 = (0xFF800000, flDZ) ∧
  fp32.special 1 0 = (0x7F800000, flDZ) ∧ fp32.special 2 0x80000000 = (0x80000000, 0) ∧
  fp32.special 3 0 = (0x3F800000, 0) ∧ fp32.special 4 0 = (0xFF800000, flDZ) ∧ fp32.special 5 0x7F800000 = (fp32.nan, flNV) ∧
  fp32.special 6 0 = (0x3F800000, 0) ∧ fp32.special 7 0xFF800000 = (0xBF800000, 0)

/-- R147, R149, R151: rounding a non-zero magnitude p / q x 2^e once gives a neighbour of it with the sign given; with RNE the
nearer one, the even one of two as near, and infinity from half a place beyond the largest finite value on; with a mode towards
zero the one below, with RTO an odd one where it is inexact. NX says that the result differs. -/
def Claim.RoundsOnce : Prop :=
  ∀ f ∈ [fp32, bf16, fp16], ∀ (rm : Rm) (neg : Bool) (p q : Nat) (e : Int), p ≠ 0 → q ≠ 0 →
    let v : Rat := (p : Rat) / (q : Rat) * (2 : Rat) ^ e
    let r := f.round rm neg p q e
    let m := r.1 % 2 ^ (f.width - 1)
    let at_ := fun y => (f.decode y).value
    r.1 = f.signed neg m ∧ m ≤ f.inf ∧
    (∀ y, y < f.inf → (y < m → at_ y ≤ v) ∧ (m < y → v ≤ at_ y)) ∧
    (r.2.getLsbD 4 = true ↔ m = f.inf ∨ at_ m ≠ v) ∧
    (rm = .rne →
      (m = f.inf ↔ (3 * at_ f.maxFinite - at_ (f.maxFinite - 1)) / 2 ≤ v) ∧ (r.2.getLsbD 2 = true ↔ m = f.inf) ∧
      (m < f.inf → ∀ y, y < f.inf →
        (y < m → (at_ y + at_ m) / 2 ≤ v ∧ (y + 1 = m → (at_ y + at_ m) / 2 = v → m % 2 = 0)) ∧
        (m < y → v ≤ (at_ y + at_ m) / 2 ∧ (y = m + 1 → v = (at_ y + at_ m) / 2 → m % 2 = 0)))) ∧
    (rm = .rz ∨ (rm = .ru ∧ neg = true) ∨ (rm = .rd ∧ neg = false) → m < f.inf ∧ at_ m ≤ v) ∧
    ((rm = .ru ∧ neg = false) ∨ (rm = .rd ∧ neg = true) → m < f.inf → v ≤ at_ m) ∧
    (rm = .rto → m < f.inf ∧ (at_ m ≠ v → m % 2 = 1))

/-- R147, R152, R155, R163: a sum of finite terms, products of two factors among them, is the exact sum rounded once, and +0
where that is 0, but -0 where every term is -0 (of more than two terms the model's reading: log 109, DEDUCED); a product is the
exact product rounded once, with its sign where it is 0; FSQRT of a positive finite number is the number nearest to the exact
root. -/
def Claim.ExactResults : Prop :=
  ∀ f ∈ [fp32, bf16, fp16],
    (∀ ts : List (List Fp), (∀ t ∈ ts, (t.length = 1 ∨ t.length = 2) ∧ ∀ x ∈ t, x.finite = true) →
      let v := ts.foldl (fun z t => z + t.foldl (fun y x => y * x.value) 1) (0 : Rat)
      (v = 0 → f.sumTerms ts = (f.signed (ts.all fun t => t.foldl (fun n x => n != x.minus) false &&
        t.any fun x => x.value == 0) 0, 0)) ∧
      (v ≠ 0 → ∃ (p : Nat) (e : Int), p ≠ 0 ∧ (p : Rat) * (2 : Rat) ^ e = v.abs ∧ f.sumTerms ts = f.round .rne (decide (v < 0)) p 1 e)) ∧
    (∀ a b, (f.decode a).finite = true → (f.decode b).finite = true →
      let v := (f.decode a).value * (f.decode b).value
      let neg := (f.decode a).minus != (f.decode b).minus
      (v = 0 → f.mul a b = (f.signed neg 0, 0)) ∧
      (v ≠ 0 → ∃ (p : Nat) (e : Int), p ≠ 0 ∧ (p : Rat) * (2 : Rat) ^ e = v.abs ∧ f.mul a b = f.round .rne neg p 1 e)) ∧
    ∀ x, (f.decode x).finite = true → (f.decode x).minus = false → (f.decode x).value ≠ 0 →
      (f.special 2 x).1 < f.inf ∧ ∀ y, y < f.inf →
        let mid := ((f.decode y).value + (f.decode (f.special 2 x).1).value) / 2
        (y < (f.special 2 x).1 → mid * mid ≤ (f.decode x).value) ∧ ((f.special 2 x).1 < y → (f.decode x).value ≤ mid * mid)

/-- R157 to R163: conversions work on pairs of sub-elements and clear the rest of the destination; the dot products add to
bits [31:0] of the destination and keep bits [63:32]. -/
def Claim.ConversionsAndDots : Prop :=
  (∀ x ∈ ([(Instr.cvtff, fun f => ((fpOf f.st).width, (fpOf f.t).width, convertFF (fpOf f.st) (fpOf f.t) (rmOf f.rm))),
      (Instr.cvtfi, fun f => ((fpOf f.st).width, (intOf f.t).1, convertFI (fpOf f.st) (intOf f.t) (rmOf f.rm))),
      (Instr.cvtif, fun f => ((intOf f.st).1, (fpOf f.t).width,
        fun x => (fpOf f.t).roundInt (rmOf f.rm) (readInt (intOf f.st) x) 0 false)),
      (Instr.cvtii, fun f => ((intOf f.st).1, (intOf f.t).1, fun x => clampTo (intOf f.t) (readInt (intOf f.st) x)))] :
        List ((FmtCv → Instr) × (FmtCv → Nat × Nat × (Nat → Nat × BitVec 6)))),
    ∀ (f : FmtCv) (s : State) (k : Nat) (t : Team),
      VectorResult (x.1 f) s k t [f.a.toNat] f.d.toNat (t.takers f.g) fun l =>
        eachConvert (x.2 f).1 (x.2 f).2.1 (x.2 f).2.2 (t.lane f.a.toNat l)) ∧
  (∀ x ∈ ([(Instr.idot4, 4), (Instr.idot8, 8), (Instr.idot16, 16)] : List ((FmtV → Instr) × Nat)),
    ∀ (f : FmtV) (s : State) (k : Nat) (t : Team),
      VectorResult (x.1 f) s k t [f.d.toNat, f.a.toNat, f.b.toNat] f.d.toNat (t.takers f.g) fun l =>
        (pack 32 fun e => if e = 0 then
            low 32 (Int.ofNat (elem 32 (t.lane f.d.toNat l) 0) + dotInt x.2 f.t (t.lane f.a.toNat l) (t.lane f.b.toNat l))
          else elem 32 (t.lane f.d.toNat l) 1, 0)) ∧
  ∀ (f : FmtV) (s : State) (k : Nat) (t : Team),
    VectorResult (.fdotb f) s k t [f.d.toNat, f.a.toNat, f.b.toNat] f.d.toNat (t.takers f.g) fun l =>
      let r := dotB (elem 32 (t.lane f.d.toNat l) 0) ((List.range 4).map (elem 16 (t.lane f.a.toNat l)))
        ((List.range 4).map (elem 16 (t.lane f.b.toNat l)))
      (pack 32 fun e => if e = 0 then r.1 else elem 32 (t.lane f.d.toNat l) 1, r.2)

/-- R152, R153, R154, R155, R147, R149, R151, R163, R157, R158, R159, R160, R161, R162: Rows 0x11 to 0x14: floating point, special
functions, conversions, dot products. -/
def Obligations.FloatingPoint : Prop := Claim.FloatResults ∧ Claim.SpecialFunctions ∧ Claim.RoundsOnce ∧ Claim.ExactResults ∧ Claim.ConversionsAndDots

/-! ### Across lanes -/

/-- R175 to R182, R187: a form of row 0x18 that writes lanes of a register; across are the registers it reads whole, own those
it reads lane by lane. Where it reads a poisoned slice or finds no place in the slice store it raises its cause and has written
nothing, with PASS its first executed pass (log 102, DESIGN CHOICE); the flags of SCANX are those of the additions that form
the prefixes it writes (log 31, DEDUCED). -/
def Claim.CrossLaneResults : Prop :=
  ∀ x ∈ ([
      (Instr.shfl, fun f => [f.a.toNat], fun f => [f.b.toNat], fun f t l => (pack (widthOf f.t) fun e =>
        elementAt t (widthOf f.t) f.a.toNat (elem (widthOf f.t) (t.lane f.b.toNat l) e), 0)),
      (Instr.shflx, fun f => [f.a.toNat], fun f => [f.b.toNat], fun f t l => (pack (widthOf f.t) fun e =>
        elementAt t (widthOf f.t) f.a.toNat
          (Nat.xor (l * (64 / widthOf f.t) + e) (elem (widthOf f.t) (t.lane f.b.toNat l) e)), 0)),
      (Instr.bcl, fun f => [f.a.toNat], fun _ => [], fun f t _ => (pack (widthOf f.t) fun _ =>
        elementAt t (widthOf f.t) f.a.toNat (t.s f.b).toNat, 0)),
      (Instr.ballot, fun _ => [], fun _ => [], fun f t _ =>
        (if (t.s f.b).toNat < 16 then
          (t.takers f.g &&& t.pred f.a.toNat &&& fullMask t.width).extractLsb' (64 * (t.s f.b).toNat) 64 else 0, 0)),
      (Instr.pcnt, fun _ => [], fun _ => [], fun f t _ =>
        (BitVec.ofNat 64 ((List.range t.width).filter fun l => (t.takers f.g &&& t.pred f.a.toNat).getLsbD l).length, 0)),
      (Instr.pfirst, fun _ => [], fun _ => [], fun f t _ =>
        (match (List.range t.width).find? fun l => (t.takers f.g &&& t.pred f.a.toNat).getLsbD l with
          | some l => BitVec.ofNat 64 l
          | none => BitVec.allOnes 64, 0)),
      (Instr.scan, fun _ => [], fun f => [f.a.toNat], fun f t l => (pack 32 fun e =>
        laneValue (((if e = 0 then (scanBoth t f).1 else (scanBoth t f).2.1)).map fun p => (p.lane, p.upTo)) l,
        (scanBoth t f).2.2)),
      (Instr.scanx, fun _ => [], fun f => [f.a.toNat], fun f t l => (pack 32 fun e =>
        laneValue (((if e = 0 then (scanBoth t f).1 else (scanBoth t f).2.1)).map fun p => (p.lane, p.before)) l,
        prefixFlags (scanBoth t f).1 ||| prefixFlags (scanBoth t f).2.1)),
      (Instr.red, fun _ => [], fun f => [f.a.toNat], fun f t l => (pack 32 fun e =>
        laneValue (segmentTotals (if e = 0 then (scanBoth t f).1 else (scanBoth t f).2.1)) l, (scanBoth t f).2.2)),
      (Instr.lextId, fun _ => [], fun _ => [], fun _ _ l => (BitVec.ofNat 64 l, 0)),
      (Instr.lextHome, fun _ => [], fun _ => [], fun _ t l => (BitVec.ofNat 64 (t.home.getD l l), 0))] :
      List ((FmtV → Instr) × (FmtV → List Nat) × (FmtV → List Nat) × (FmtV → Team → Nat → Word × BitVec 6))),
    ∀ (f : FmtV) (s : State) (k : Nat) (t : Team), Ready s k t (x.1 f) →
      (t.poisonAcross (x.2.1 f) (x.2.2.1 f) = none → s.SliceRoom k →
        ∃ s' u, exec (x.1 f) s = .next s' ∧ CompletedPasses (x.1 f) k s s' u ∧
          WroteLanes t u f.d.toNat (t.takers f.g) (x.2.2.2 f t)) ∧
      (∀ row p, t.poisonAcross (x.2.1 f) (x.2.2.1 f) = some (row, p) →
        exec (x.1 f) s = .next (s.takeTrap k p.cause (p.info (t.passesLeft.headD 0)))) ∧
      (t.poisonAcross (x.2.1 f) (x.2.2.1 f) = none →
        s.nameSlices k (t.compute f.d.toNat (t.parts f.g) (x.2.2.2 f t)) (t.passesLeft.map fun row => (f.d.toNat, row)) = none →
        exec (x.1 f) s = .next (s.takeTrap k 42 { pass := t.passesLeft.headD 0 }))

/-- R181, R182: the places of a scan, its participating lanes in their order: the first place of a segment takes the identity
before it and its own value; each other one what the place before it holds, and that combined with its value by the operator.
The flags of an exclusive scan are those of the places whose value a later place of their segment takes (log 31, DEDUCED). -/
def Claim.ScanPlaces : Prop :=
  (∀ (op : BitVec 2) (head : Nat → Bool) (x : Nat → Nat) (ls : List Nat),
    let ps := scanFrom op head x ls none
    ps.map (fun p => p.lane) = ls ∧
    (∀ p rest, ps = p :: rest → p.first = true) ∧
    (∀ p ∈ ps, p.first = true → p.before = scanId op ∧ p.upTo = x p.lane ∧ p.flags = 0) ∧
    (∀ p ∈ ps, p.first = false → (p.upTo, p.flags) = scanOp op p.before (x p.lane)) ∧
    ∀ p q, (p, q) ∈ ps.zip (ps.drop 1) → (q.first = head q.lane) ∧ (q.first = false → q.before = p.upTo)) ∧
  ∀ (ps : List ScanStep) (b : Nat), (prefixFlags ps).getLsbD b = true ↔
    ∃ p q, (p, q) ∈ ps.zip (ps.drop 1) ∧ q.first = false ∧ p.flags.getLsbD b = true

/-- R178, R180: LEXT writes a scalar from one lane, LINS one lane from a scalar, and the votes VANY and VALL one predicate in
the participating lanes. Of LEXT's source only the slice that holds the lane is read for poison (log 103, DESIGN CHOICE). -/
def Claim.SingleLanesAndVotes : Prop :=
  ∀ (f : FmtV) (s : State) (k : Nat) (t : Team),
    (Ready s k t (.lext f) →
      (t.parts f.g = 0 → ∃ s', exec (.lext f) s = .next s' ∧ Completed (.lext f) k s s' t) ∧
      (t.parts f.g ≠ 0 → t.width ≤ (t.s f.b).toNat → ∃ s', exec (.lext f) s = .next s' ∧
        Completed (.lext f) k s s' (t.setS f.d 0)) ∧
      (t.parts f.g ≠ 0 → (t.s f.b).toNat < t.width → t.poisonOf f.a.toNat ((t.s f.b).toNat / 32) = none →
        ∃ s', exec (.lext f) s = .next s' ∧ Completed (.lext f) k s s' (t.setS f.d (t.lane f.a.toNat (t.s f.b).toNat))) ∧
      ∀ p, t.parts f.g ≠ 0 → (t.s f.b).toNat < t.width → t.poisonOf f.a.toNat ((t.s f.b).toNat / 32) = some p →
        exec (.lext f) s = .next (s.takeTrap k p.cause (p.info (t.passesLeft.headD 0)))) ∧
    (Ready s k t (.lins f) → s.SliceRoom k → ∃ s' u, exec (.lins f) s = .next s' ∧ CompletedPasses (.lins f) k s s' u ∧
      (∀ l, l < t.width → u.lane f.d.toNat l =
        if l = (t.s f.b).toNat ∧ (t.takers f.g).getLsbD l ∧ 32 * t.resume ≤ l then t.s f.a else t.lane f.d.toNat l) ∧
      (∀ r, r ≠ f.d.toNat → u.vreg r = t.vreg r) ∧ u = { t with v := u.v, poison := u.poison, unread := u.unread }) ∧
    ∀ x ∈ ([(Instr.vany, fun f t => (List.range 1024).any fun j => (t.takers f.g).getLsbD j && (t.pred f.a.toNat).getLsbD j),
        (Instr.vall, fun f t => (List.range 1024).all fun j => !(t.takers f.g).getLsbD j || (t.pred f.a.toNat).getLsbD j)] :
          List ((FmtV → Instr) × (FmtV → Team → Bool))),
      Ready s k t (x.1 f) → ∃ s' u, exec (x.1 f) s = .next s' ∧ Completed (x.1 f) k s s' u ∧
        (∀ l, l < 1024 → (u.pred f.d.toNat).getLsbD l =
          if f.d ≠ 0 ∧ (t.takers f.g).getLsbD l then x.2 f t else (t.pred f.d.toNat).getLsbD l) ∧
        (∀ j, j ≠ f.d.toNat → u.pred j = t.pred j) ∧ u = { t with p := u.p }

/-- R175, R176, R177, R178, R179, R180, R181, R182, R187: Row 0x18: shuffles, scans, votes and single lanes. -/
def Obligations.CrossLane : Prop := Claim.CrossLaneResults ∧ Claim.ScanPlaces ∧ Claim.SingleLanesAndVotes

/-- R183, R184, R185: COMPACT moves the live lanes to the lowest positions in their order, registers, predicates and home lanes
with them, and makes exactly those lanes live and active; with a stack that is not empty it raises cause 9, and cause 42 where
the slices of one register can find no place. -/
def Obligations.Compaction : Prop :=
  ∀ (f : FmtV) (s : State) (k : Nat) (t : Team), Ready s k t (.compact f) → t.width ≤ 1024 →
    (t.stack ≠ [] → exec (.compact f) s = .next (s.takeTrap k 9 {})) ∧
    (t.stack = [] → s.compactRoom k t = false → exec (.compact f) s = .next (s.takeTrap k 42 {})) ∧
    (t.stack = [] → s.compactRoom k t = true → (s.core (coreOf k)).slices.length + t.v.length * t.rows ≤ sliceRoom →
      ∃ s' u, exec (.compact f) s = .next s' ∧ CompletedPasses (.compact f) k s s' u ∧
      let ls := (List.range t.width).filter fun l => t.live.getLsbD l
      (∀ r, t.vreg r ≠ [] → ∀ l, l < t.width → u.lane r l = if l < ls.length then t.lane r (ls.getD l 0) else 0) ∧
      (∀ n, n ≠ 0 → Table.find? t.p n ≠ none → ∀ l, l < t.width →
        (u.pred n).getLsbD l = if l < ls.length then (t.pred n).getLsbD (ls.getD l 0) else false) ∧
      u.home = ls.map t.homeOf ∧
      (∀ l, l < 1024 → (u.live.getLsbD l = decide (l < ls.length)) ∧ (u.active.getLsbD l = decide (l < ls.length))) ∧
      (∀ r row, (u.poisonOf r row).isSome = true ↔ row < t.rows ∧
        ∃ i, i < 32 ∧ 32 * row + i < ls.length ∧ (t.poisonOf r (ls.getD (32 * row + i) 0 / 32)).isSome = true) ∧
      u = { t with v := u.v, p := u.p, home := u.home, live := u.live, active := u.active, poison := u.poison
                   unread := u.unread })

/-! ### Control -/

/-- R78, R79: a BRA with no guard-true lane goes on and one with no other lane transfers; one that splits the active lanes
pushes the others as a path entry, on chip while that holds fewer than 16 entries, and raises cause 7 at 1,024 entries. -/
def Claim.SplittingBranch : Prop :=
  ∀ (f : FmtB) (s : State) (k : Nat) (t : Team), Ready s k t (.bra f) →
    (16384 ≤ k → ∃ s', exec (.bra f) s = .next s' ∧ Transferred (branchTarget t f.off) k s s' t) ∧
    (k < 16384 → t.takers f.g = 0 → ∃ s', exec (.bra f) s = .next s' ∧ Completed (.bra f) k s s' t) ∧
    (k < 16384 → t.takers f.g ≠ 0 → t.takers f.g = t.active →
      ∃ s', exec (.bra f) s = .next s' ∧ Transferred (branchTarget t f.off) k s s' t) ∧
    (k < 16384 → t.takers f.g ≠ 0 → t.takers f.g ≠ t.active → t.stack.length < 1024 → t.stack.length - t.spilled < 16 →
      ∃ s', exec (.bra f) s = .next s' ∧ Transferred (branchTarget t f.off) k s s'
        { t with active := t.takers f.g
                 stack := { rejoin := false, addr := t.pc + 4, mask := t.active &&& ~~~(t.takers f.g) } :: t.stack }) ∧
    (k < 16384 → t.takers f.g ≠ 0 → t.takers f.g ≠ t.active → 1024 ≤ t.stack.length →
      exec (.bra f) s = .next (s.takeTrap k 7 {}))

/-- R72, R78: a splitting BRA that finds 16 entries on chip moves the deepest of them to its place in the spill area and goes
on, the split as above; where an address of that place cannot be written its context is killed with cause 120. Where the core
has lines reserved for it, as many as the entry needs, no byte of memory changes. -/
def Claim.SplitSpill : Prop :=
  ∀ (f : FmtB) (s : State) (k : Nat) (t : Team), Ready s k t (.bra f) → k < 16384 → t.takers f.g ≠ 0 →
    t.takers f.g ≠ t.active → 16 ≤ t.stack.length - t.spilled → t.stack.length < 1024 →
    (∀ x s1, t.stack[15]? = some x → s.spillEntry k t t.spilled x = .ok s1 →
      ∃ s', exec (.bra f) s = .next s' ∧ Transferred (branchTarget t f.off) k s1 s' { t with
        active := t.takers f.g
        stack := { rejoin := false, addr := t.pc + 4, mask := t.active &&& ~~~(t.takers f.g) } :: t.stack
        spilled := t.spilled + 1 }) ∧
    ∀ x c s1, t.stack[15]? = some x → s.spillEntry k t t.spilled x = .error (c, s1) →
      exec (.bra f) s = .next (s1.kill t.ctx 120 c t.pc (sourceOf k t.part))

/-- R72, R130: the spill area. Moving an entry there changes no team, no other core and no byte of memory, for its lines stand
in the L1 and leave it as writes on their way; and the entry is read back, its kind, its address and the lanes of its team, where
its addresses still translate to the same pages and the core's reserved lines have room for it. -/
def Claim.EntriesSpilled : Prop :=
  ∀ (s : State) (k : Nat) (t : Team) (i : Nat) (e : StackEntry) (s1 : State), t.width ≤ 1024 → t.width % 32 = 0 →
    s.spillEntry k t i e = .ok s1 →
    s1 = { s with cores := s1.cores, tlb := s1.tlb, flights := s1.flights, serial := s1.serial } ∧ SameMemory s s1 ∧
    (∀ c, c ≠ coreOf k → s1.core c = s.core c) ∧
    ∀ ps, s.areaPages k t { wr := true } (entryWords t i) = .ok ps → t.dsbase.toNat % 8 = 0 →
      (s.core (coreOf k)).reserved.length + 40 ≤ 64 * (s.core (coreOf k)).spillres →
      s1.areaPages k t { rd := true } (entryWords t i) = .ok ps → canonical e.addr = true →
      (∀ l, t.width ≤ l → e.mask.getLsbD l = false) → ∃ s2, s1.readEntry k t i = .ok (s2, e)

/-- R79: BANY and BALL never split the active lanes. -/
def Claim.UniformBranches : Prop :=
  ∀ (f : FmtB) (s : State) (k : Nat) (t : Team),
    (Ready s k t (.bany f) → ∃ s', exec (.bany f) s = .next s' ∧
      if (List.range 1024).any fun l => t.active.getLsbD l && (t.guard f.g).getLsbD l then
        Transferred (branchTarget t f.off) k s s' t
      else Completed (.bany f) k s s' t) ∧
    (Ready s k t (.ball f) → ∃ s', exec (.ball f) s = .next s' ∧
      if (List.range 1024).all fun l => !t.active.getLsbD l || (t.guard f.g).getLsbD l then
        Transferred (branchTarget t f.off) k s s' t
      else Completed (.ball f) k s s' t) ∧
    (f.g = 0 → (∃ l < 1024, t.active.getLsbD l) → (∃ l < 1024, t.active.getLsbD l ∧ (t.guard f.g).getLsbD l) ∧
      ∀ l < 1024, t.active.getLsbD l → (t.guard f.g).getLsbD l)

/-- R78, R79, R72, R130: BRA splits, BANY and BALL do not; entries beyond sixteen move to the spill area. -/
def Obligations.Branches : Prop := Claim.SplittingBranch ∧ Claim.SplitSpill ∧ Claim.EntriesSpilled ∧ Claim.UniformBranches

/-- R33, R80, R83: CALL and CALLI write their link and go, BRI and RET go, the target of an indirect one read before the link
is written; an indirect target that is no multiple of 4 or not canonical raises cause 11 at the word, which has no effect. -/
def Claim.CallsAndReturns : Prop :=
  (∀ (f : FmtB) (s : State) (k : Nat) (t : Team), Ready s k t (.call f) → ∃ s', exec (.call f) s = .next s' ∧
    Transferred (t.pc + f.off.signExtend 64 * 4) k s s' (t.setS 31 (t.pc + 4))) ∧
  ∀ x ∈ ([(Instr.bri, fun _ t => t), (Instr.ret, fun _ t => t), (Instr.calli, fun f t => t.setS f.sd (t.pc + 4))] :
      List ((FmtS → Instr) × (FmtS → Team → Team))),
    ∀ (f : FmtS) (s : State) (k : Nat) (t : Team), Ready s k t (x.1 f) →
      ((t.s f.sa).toNat % 4 = 0 → canonical (t.s f.sa) = true →
        ∃ s', exec (x.1 f) s = .next s' ∧ Transferred (t.s f.sa) k s s' (x.2 f t)) ∧
      ((t.s f.sa).toNat % 4 ≠ 0 ∨ canonical (t.s f.sa) = false → exec (x.1 f) s = .next (s.takeTrap k 11 {}))

/-- R70, R71, R72, R81: MARK pushes a rejoin entry, which may move the deepest entry on chip to the spill area, and raises
cause 7 at 1,024 entries. -/
def Claim.Marks : Prop :=
  ∀ (f : FmtB) (s : State) (k : Nat) (t : Team), Ready s k t (.mark f) →
    (t.stack.length < 1024 → t.stack.length - t.spilled < 16 → ∃ s', exec (.mark f) s = .next s' ∧ Completed (.mark f) k s s'
      { t with stack := { rejoin := true, addr := branchTarget t f.off, mask := t.active } :: t.stack }) ∧
    (t.stack.length < 1024 → 16 ≤ t.stack.length - t.spilled →
      (∀ x s1, t.stack[15]? = some x → s.spillEntry k t t.spilled x = .ok s1 →
        ∃ s', exec (.mark f) s = .next s' ∧ Completed (.mark f) k s1 s'
          { t with stack := { rejoin := true, addr := branchTarget t f.off, mask := t.active } :: t.stack
                   spilled := t.spilled + 1 }) ∧
      ∀ x c s1, t.stack[15]? = some x → s.spillEntry k t t.spilled x = .error (c, s1) →
        exec (.mark f) s = .next (s1.kill t.ctx 120 c t.pc (sourceOf k t.part))) ∧
    (1024 ≤ t.stack.length → exec (.mark f) s = .next (s.takeTrap k 7 {}))

/-- R71, R75, R84: JOIN pops the top entry, resumes a path at its address and goes past a rejoin at its own, and raises cause 7
on an empty stack or at another address; where no lane of the entry lives the unwind step follows, which resumes the first
entry that has one, a rejoin past its word, and retires a team whose entries have none and whose registers await nothing. That
a path entry is entered as a target is the model's reading (log 29, DEDUCED). Entries on chip alone are spoken of here. -/
def Claim.Joins : Prop :=
  ∀ (s : State) (k : Nat) (t : Team), Ready s k t .join →
    (t.stack = [] → exec .join s = .next (s.takeTrap k 7 {})) ∧
    ∀ e rest, t.stack = e :: rest →
      (e.rejoin = true → t.pc ≠ e.addr → exec .join s = .next (s.takeTrap k 7 {})) ∧
      (t.spilled = 0 → e.mask &&& t.live ≠ 0 → e.rejoin = true → t.pc = e.addr → ∃ s', exec .join s = .next s' ∧
        Completed .join k s s' { t with stack := rest, active := e.mask &&& t.live
                                        live := if rest = [] then e.mask &&& t.live else t.live }) ∧
      (t.spilled = 0 → e.mask &&& t.live ≠ 0 → e.rejoin = false → ∃ s', exec .join s = .next s' ∧
        Transferred e.addr k s s' { t with stack := rest, active := e.mask &&& t.live
                                           live := if rest = [] then e.mask &&& t.live else t.live }) ∧
      (t.spilled = 0 → e.mask &&& t.live = 0 → (e.rejoin = true → t.pc = e.addr) →
        (∀ dead x above, rest = dead ++ x :: above → (∀ y ∈ dead, y.mask &&& t.live = 0) → x.mask &&& t.live ≠ 0 →
          ∃ s', exec .join s = .next s' ∧ Transferred (if x.rejoin then x.addr + 4 else x.addr) k s s'
            { t with stack := above, active := x.mask &&& t.live
                     live := if above = [] then x.mask &&& t.live else t.live }) ∧
        ((∀ y ∈ rest, y.mask &&& t.live = 0) → (∀ p ∈ s.pendings, p.2.team ≠ t.uid) → Table.wf s.teams = true →
          ∃ s', exec .join s = .next s' ∧ s'.team? k = none ∧ SameMemory s s'))

/-- R72, R75, R84: a JOIN that empties the places on chip of a stack which has entries in the spill area brings the deepest
spilled entry back first; where it cannot be read the context is killed with cause 120. -/
def Claim.JoinsBack : Prop :=
  ∀ (s : State) (k : Nat) (t : Team) (e : StackEntry) (rest : List StackEntry), Ready s k t .join → t.stack = e :: rest →
    t.spilled ≠ 0 → rest.length ≤ t.spilled → (e.rejoin = true → t.pc = e.addr) →
    (∀ s1 x, s.readEntry k t (t.spilled - 1) = .ok (s1, x) → e.mask &&& t.live ≠ 0 →
      ∃ s', exec .join s = .next s' ∧
        if e.rejoin then Completed .join k s1 s' { t with
          stack := x :: rest.drop 1, spilled := t.spilled - 1, active := e.mask &&& t.live }
        else Transferred e.addr k s1 s' { t with
          stack := x :: rest.drop 1, spilled := t.spilled - 1, active := e.mask &&& t.live }) ∧
    ∀ c s1, s.readEntry k t (t.spilled - 1) = .error (c, s1) →
      exec .join s = .next (s1.kill t.ctx 120 c t.pc (sourceOf k t.part))

/-- R75, R85: EXIT ends the active lanes; the unwind step resumes the first entry that has a lane left, and retires a team whose
stack has none and whose registers await nothing; a team whose registers await a value is held until it has come. Entries on
chip alone are spoken of here. -/
def Claim.Exits : Prop :=
  ∀ (s : State) (k : Nat) (t : Team), Ready s k t .exit → t.spilled = 0 →
    ((∀ e ∈ t.stack, e.mask &&& (t.live &&& ~~~t.active) = 0) →
      ((∀ p ∈ s.pendings, p.2.team ≠ t.uid) → Table.wf s.teams = true →
        ∃ s', exec .exit s = .next s' ∧ s'.team? k = none ∧ SameMemory s s') ∧
      ((∃ p ∈ s.pendings, p.2.team = t.uid) → ∃ s', exec .exit s = .next s' ∧
        (s'.team? k).map (fun u => (u.wait, u.live)) = some (.retire, 0))) ∧
    ∀ dead e above, t.stack = dead ++ e :: above → (∀ y ∈ dead, y.mask &&& (t.live &&& ~~~t.active) = 0) →
      e.mask &&& (t.live &&& ~~~t.active) ≠ 0 →
      ∃ s', exec .exit s = .next s' ∧ Transferred (if e.rejoin then e.addr + 4 else e.addr) k s s'
        { t with stack := above, active := e.mask &&& (t.live &&& ~~~t.active)
                 live := if above = [] then e.mask &&& (t.live &&& ~~~t.active) else t.live &&& ~~~t.active }

/-- R33, R80, R83, R70, R71, R72, R81, R75, R84, R85: CALL, BRI, CALLI, RET, MARK, JOIN and EXIT, and the unwinding of the stack.
-/
def Obligations.CallsAndJoins : Prop := Claim.CallsAndReturns ∧ Claim.Marks ∧ Claim.Joins ∧ Claim.JoinsBack ∧ Claim.Exits

/-- R89, R92, R372: LOOP and LOOPI open the level they name over the words that follow and step over the body where the count
is 0, which completes the levels that end with the body as R90 does; LBRK ends its level and those inside it; a wrong level, a body that is not inside the enclosing one, or a handler raises
cause 8. -/
def Claim.Loops : Prop :=
  (∀ x ∈ ([(Instr.loop, fun f t => (t.s f.s).toNat % 2 ^ 32), (Instr.loopi, fun f _ => f.imm.toNat + 1)] :
      List ((FmtLP → Instr) × (FmtLP → Team → Nat))),
    ∀ (f : FmtLP) (s : State) (k : Nat) (t : Team), Ready s k t (x.1 f) →
      let last := t.pc + 4 + BitVec.ofNat 64 (4 * f.len.toNat)
      let legal := t.trap.inh = false ∧ f.l.toNat = t.loops.length ∧ ∀ y rest, t.loops = y :: rest → last.toNat ≤ y.last.toNat
      (¬legal → exec (x.1 f) s = .next (s.takeTrap k 8 {})) ∧
      (legal → x.2 f t ≠ 0 → ∃ s', exec (x.1 f) s = .next s' ∧ Completed (x.1 f) k s s'
        { t with loops := { first := t.pc + 4, last := last, count := x.2 f t } :: t.loops }) ∧
      (legal → x.2 f t = 0 → ∃ s' u, exec (x.1 f) s = .next s' ∧ s'.team? k = some u ∧ OnlyTeam Core.still k s s' ∧
        u = { t with pc := u.pc, loops := u.loops, inPacket := u.inPacket, target := u.target, chained := false, resume := 0
                     phase := 0, raised := none, stamp := u.stamp } ∧
        ∀ closed rest, t.loops = closed ++ rest → (∀ y ∈ closed, y.last = last ∧ y.count ≤ 1) →
          (rest = [] → u.pc = last + 4 ∧ u.loops = [] ∧ u.target = false) ∧
          ∀ y outer, rest = y :: outer →
            (y.last ≠ last → u.pc = last + 4 ∧ u.loops = rest ∧ u.target = false) ∧
            (y.last = last → 1 < y.count → u.pc = y.first ∧ u.loops = { y with count := y.count - 1 } :: outer ∧
              u.target = true ∧ u.inPacket = false))) ∧
  ∀ (f : FmtLP) (s : State) (k : Nat) (t : Team), Ready s k t (.lbrk f) →
    (t.trap.inh = true ∨ t.loops.length ≤ f.l.toNat → exec (.lbrk f) s = .next (s.takeTrap k 8 {})) ∧
    ∀ inner y outer, t.trap.inh = false → t.loops = inner ++ y :: outer → outer.length = f.l.toNat →
      ∃ s', exec (.lbrk f) s = .next s' ∧ Transferred (y.last + 4) k s s' { t with loops := outer }

/-- R41, R63, R82, R83: NOP and YIELD change nothing beyond the PC; an unchained NOP takes no issue of its core's run and a
YIELD ends it; IPF asks the quad cache for an absent line whose page can be fetched, and has no other effect on what a program
sees where it cannot. -/
def Claim.IssueControls : Prop :=
  (∀ (f : FmtS) (s : State) (k : Nat) (t : Team), Ready s k t (.nop f) → ∃ s', exec (.nop f) s = .next s' ∧
    Completed (.nop f) k s s' t ∧ (f.c = false → t.chained = false → s'.cores = s.cores)) ∧
  (∀ (f : FmtS) (s : State) (k : Nat) (t : Team), Ready s k t (.yield f) → ∃ s', exec (.yield f) s = .next s' ∧
    Completed (.yield f) k s s' t ∧ (f.c = false → k < 16384 → (s'.core (coreOf k)).runOf (t.role == .loader) = none) ∧
    (f.c = true → (s'.team? k).map (fun u => u.yielded) = some true)) ∧
  ∀ (f : FmtB) (s : State) (k : Nat) (t : Team), Ready s k t (.ipf f) →
    (16384 ≤ k ∨ (s.quad (coreOf k / 4)).held t.ctx (branchTarget t f.off) ≠ none ∨
        s.fetchPage (dieOf k) t.ctx (branchTarget t f.off) = .error (11, false) ∨
        s.fetchPage (dieOf k) t.ctx (branchTarget t f.off) = .error (16, false) →
      ∃ s', exec (.ipf f) s = .next s' ∧ Completed (.ipf f) k s s' t) ∧
    (k < 16384 → (s.quad (coreOf k / 4)).held t.ctx (branchTarget t f.off) = none →
      ∀ p, s.fetchPage (dieOf k) t.ctx (branchTarget t f.off) = .ok p →
      ∃ s', exec (.ipf f) s = .next s' ∧ (s'.team? k).map Team.timeless = some (t.advance f.c 1).timeless ∧
        (t.ctx, codeLine (branchTarget t f.off)) ∈ (s'.quad (coreOf k / 4)).filling ∧ SameMemory s s')

/-- R89, R92, R372, R41, R63, R82, R83: LOOP, LOOPI, LBRK, IPF, YIELD and NOP. -/
def Obligations.LoopsAndIssue : Prop := Claim.Loops ∧ Claim.IssueControls

/-! ### Memory -/

/-- R393, R2: what a write of one byte leaves: that byte reads as written under the key of its page's owner, every other byte
reads as before, and memory stays canonical; a run of bytes is written at its own addresses alone. -/
def Obligations.MemoryBytes : Prop :=
  ∀ (s : State), Memory.wf s.mem = true →
    (∀ (pa : Nat) (b : Byte), (s.setByte pa b).byte pa = b ∧ (∀ a, a ≠ pa → (s.setByte pa b).byte a = s.byte a) ∧
      Memory.wf (s.setByte pa b).mem = true) ∧
    ∀ (pa : Nat) (bs : List Byte) (d : Option (BitVec 16)),
      (∀ i, i < bs.length → (s.homeWriteRun pa bs d).byte (pa + i) = bs.getD i 0) ∧
      SameOutside pa bs.length s (s.homeWriteRun pa bs d) ∧ Memory.wf (s.homeWriteRun pa bs d).mem = true

/-- R192, R197, R200, R202, R203: a load that finds every byte in the L1 of its core completes at once. The lanes that take
part receive the bytes of their addresses, zero-extended; only the order of the lines in use changes besides, the slice store,
and for .RO the reuse table. -/
def Claim.LoadsFromL1 : Prop :=
  ∀ x ∈ ([(Instr.ldl, linearPlace, { classes := loadClasses }), (Instr.ldg, gatherPlace, { classes := loadClasses }),
      (Instr.ldlNt, linearPlace, { classes := loadClasses, nt := true }),
      (Instr.ldgNt, gatherPlace, { classes := loadClasses, nt := true }),
      (Instr.ldlRo, linearPlace, { classes := roClasses, ro := true }),
      (Instr.ldgRo, gatherPlace, { classes := roClasses, ro := true })] :
        List ((FmtM → Instr) × (Team → FmtM → Place) × AccessForm)),
    ∀ (f : FmtM) (s : State) (k : Nat) (t : Team), Ready s k t (x.1 f) →
      let addr := (x.2.1 t f).addr t (sizeOfZ f.z)
      t.poisonStop (x.2.1 t f).reg = none → (s.ctx t.ctx).key ≠ none → s.SliceRoom k →
      (s.core (coreOf k)).lines.length ≤ (s.core (coreOf k)).l1Room →
      (x.2.2.ro = true → (t.policy ≠ 0 ∨ (s.core (coreOf k)).reuse = []) ∧
        ∀ l p, s.translate (dieOf k) t.ctx (addr l) { rd := true } = .page p → p.cls ≠ 3) →
      (∀ l, l < t.width → (t.takers f.g).getLsbD l → 32 * t.resume ≤ l →
        (addr l).toNat % sizeOfZ f.z = 0 ∧ (s.hit (coreOf k) t.ctx (addr l) (sizeOfZ f.z) x.2.2).isSome) →
      ∃ s' u, exec (x.1 f) s = .next s' ∧ Past (x.1 f) k s' u ∧ OnlyTeam Core.stillLoads k s s' ∧
        (∀ c n va, s'.lineFind c n va = s.lineFind c n va) ∧
        LoadedLanes t u f.d.toNat t.resume (t.takers f.g) fun l =>
          match s.hit (coreOf k) t.ctx (addr l) (sizeOfZ f.z) x.2.2 with
          | some h => BitVec.ofNat 64 (lineNumber h.data (sig57 (addr l) % 64) (sizeOfZ f.z))
          | none => 0

/-- R198: a uniform load makes one access, whose value every lane that takes part receives. -/
def Claim.UniformLoadsFromL1 : Prop :=
  ∀ x ∈ ([(Instr.ldu, { classes := loadClasses }), (Instr.lduRo, { classes := roClasses, ro := true })] :
        List ((FmtM → Instr) × AccessForm)),
    ∀ (f : FmtM) (s : State) (k : Nat) (t : Team), Ready s k t (x.1 f) →
      (x.2.ro = true → t.policy ≠ 0 ∨ (s.core (coreOf k)).reuse = []) →
      let a := uniformAddr t f
      (t.phase = 1 ∨ lanesOf (t.takers f.g) t.width = [] → ∃ s', exec (x.1 f) s = .next s' ∧ CompletedPasses (x.1 f) k s s' t) ∧
      (t.phase ≠ 1 → (s.ctx t.ctx).key ≠ none → (s.core (coreOf k)).lines.length ≤ (s.core (coreOf k)).l1Room →
        (x.2.ro = true → ∀ p, s.translate (dieOf k) t.ctx a { rd := true } = .page p → p.cls ≠ 3) → s.SliceRoom k →
        ∀ h, a.toNat % sizeOfZ f.z = 0 → s.hit (coreOf k) t.ctx a (sizeOfZ f.z) x.2 = some h →
        ∃ s' u, exec (x.1 f) s = .next s' ∧ Past (x.1 f) k s' u ∧ OnlyTeam Core.stillLoads k s s' ∧
          (∀ c n va, s'.lineFind c n va = s.lineFind c n va) ∧
          LoadedLanes t u f.d.toNat 0 (t.takers f.g) fun _ =>
            BitVec.ofNat 64 (lineNumber h.data (sig57 a % 64) (sizeOfZ f.z)))

/-- R192, R197, R200, R202, R203, R198: Loads that their L1 serves fill the lanes they take. -/
def Obligations.L1Loads : Prop := Claim.LoadsFromL1 ∧ Claim.UniformLoadsFromL1

/-- R188, R197, R202, R205: a load of one pass that misses in the L1 completes, and its value, taken as the load issues (log 38,
DESIGN CHOICE), is on its way to the register. A fill takes every byte from the home but those that are dirty in the L1's copy,
which give theirs; a line whose data is uncorrectable is not kept. -/
def Claim.LoadsFromMemory : Prop :=
  (∀ x ∈ ([(Instr.ldl, linearPlace, { classes := loadClasses }), (Instr.ldg, gatherPlace, { classes := loadClasses }),
      (Instr.ldlNt, linearPlace, { classes := loadClasses, nt := true }),
      (Instr.ldgNt, gatherPlace, { classes := loadClasses, nt := true }),
      (Instr.ldlRo, linearPlace, { classes := roClasses, ro := true }),
      (Instr.ldgRo, gatherPlace, { classes := roClasses, ro := true })] :
        List ((FmtM → Instr) × (Team → FmtM → Place) × AccessForm)),
    ∀ (f : FmtM) (s : State) (k row : Nat) (t : Team), Ready s k t (x.1 f) → t.passesLeft = [row] →
      t.poisonStop (x.2.1 t f).reg = none →
      let ls := laneList t (t.takers f.g &&& rowsMask row (row + 1)) (x.2.1 t f) (sizeOfZ f.z) row
      let r := s.loadLanes k t ls (sizeOfZ f.z) x.2.2
      s.passCause k t (ls.map Prod.snd) (sizeOfZ f.z) x.2.2 = none → r.missed = true → s.resultRoom (coreOf k) 1 = true →
      (x.2.2.ro = true → t.policy ≠ 0 ∧ s.remLanes k t ls = []) → s.flights = [] →
      ∃ s', exec (x.1 f) s = .next s' ∧ Past (x.1 f) k s' t ∧ OthersStand k s s' ∧ SameMemory s s' ∧
        Table.find? s'.pendings r.state.serial = some
          { core := coreOf k, team := t.uid, kind := 0, targets := [sliceTarget f.d.toNat row r.vals r.bad] } ∧
        s'.flights = r.state.flights ∧ s'.tlb = r.state.tlb ∧ (∀ c, (s'.core c).still = (r.state.core c).still)) ∧
  (∀ (s : State) (k z : Nat) (t : Team) (a : Word) (g : AccessForm) (p : Page), 0 < z → sig57 a % 64 + z ≤ 64 →
    s.hit (coreOf k) t.ctx a z g = none → s.translate (dieOf k) t.ctx a { rd := !g.store, wr := g.store } = .page p →
    p.pa % 64 = sig57 a % 64 → s.flights = [] →
    let r := s.load k t a z g
    r.missed = true ∧
    (s.lineFind (coreOf k) t.ctx (sig57 a) = none →
      r.value = ofBytes (s.bytes p.pa z) ∧ r.bad = s.badData p.pa ∧
      (r.bad = true ∨ g.nt = true → ∀ c, r.state.core c = s.core c) ∧
      (r.bad = false → g.nt = false → (s.core (coreOf k)).lines.length < (s.core (coreOf k)).l1Room →
        ∃ l, (r.state.core (coreOf k)).lines = l :: (s.core (coreOf k)).lines ∧ l.ctx = t.ctx ∧ l.va = sig57 a / 64 ∧
          l.pa = p.pa / 64 ∧ l.valid = BitVec.allOnes 64 ∧ l.dirty = 0 ∧ l.data = s.lineData p.pa ∧ l.ro = g.ro)) ∧
    ∀ y, s.lineFind (coreOf k) t.ctx (sig57 a) = some y →
      r.bad = s.badData (64 * y.pa) ∧
      (∀ j, j < z → r.value / 256 ^ j % 256 = (if y.dirty.getLsbD (sig57 a % 64 + j) then lineByte y.data (sig57 a % 64 + j)
        else s.byte (64 * y.pa + sig57 a % 64 + j)).toNat) ∧
      (r.bad = false → ∃ l, r.state.lineFind (coreOf k) t.ctx (sig57 a) = some l ∧ l.valid = BitVec.allOnes 64 ∧
        l.dirty = y.dirty ∧ l.pa = y.pa ∧ ∀ i, i < 64 → lineByte l.data i =
          if y.dirty.getLsbD i then lineByte y.data i else s.byte (64 * y.pa + i)))

/-- R19, R39, R188, R197: a load of several passes does them one after another: with an L1 that holds no line and nothing on its
way, every lane that takes part has the bytes of its address, or they are on their way to it, taken as the load issues (log 38,
DESIGN CHOICE). -/
def Claim.LoadsOfSeveralPasses : Prop :=
  ∀ x ∈ ([(Instr.ldl, linearPlace, { classes := loadClasses }), (Instr.ldg, gatherPlace, { classes := loadClasses }),
      (Instr.ldlNt, linearPlace, { classes := loadClasses, nt := true }),
      (Instr.ldgNt, gatherPlace, { classes := loadClasses, nt := true }),
      (Instr.ldlRo, linearPlace, { classes := roClasses, ro := true }),
      (Instr.ldgRo, gatherPlace, { classes := roClasses, ro := true })] :
        List ((FmtM → Instr) × (Team → FmtM → Place) × AccessForm)),
    ∀ (f : FmtM) (s : State) (k : Nat) (t : Team) (pg : Nat → Page), Ready s k t (x.1 f) → t.width ≤ 1024 →
      let z := sizeOfZ f.z
      let addr := (x.2.1 t f).addr t z
      t.poisonStop (x.2.1 t f).reg = none → (s.ctx t.ctx).key ≠ none → s.SliceRoom k → (x.2.2.ro = true → t.policy ≠ 0) →
      (s.core (coreOf k)).lines = [] → s.flights = [] → 1024 ≤ (s.core (coreOf k)).l1Room →
      (∀ l, l < t.width → (t.takers f.g).getLsbD l → 32 * t.resume ≤ l →
        (addr l).toNat % z = 0 ∧ (s.tlbFind (dieOf k) t.ctx (sig57 (addr l))).isSome ∧
        s.translate (dieOf k) t.ctx (addr l) { rd := true } = .page (pg l) ∧ x.2.2.classes.contains (pg l).cls = true ∧
        (pg l).cls ≠ 3 ∧ (pg l).usr = true ∧ (pg l).pa % 64 = sig57 (addr l) % 64 ∧ s.badData (pg l).pa = false ∧
        ∀ n, n < t.width → (t.takers f.g).getLsbD n → sig57 (addr n) / 64 = sig57 (addr l) / 64 →
          (pg n).pa / 64 = (pg l).pa / 64) →
      ∃ s' u, exec (x.1 f) s = .next s' ∧ Past (x.1 f) k s' u ∧ OthersStand k s s' ∧ SameMemory s s' ∧
        (∀ r, r ≠ f.d.toNat → u.vreg r = t.vreg r) ∧
        (∀ l, l < t.width → ¬((t.takers f.g).getLsbD l = true ∧ 32 * t.resume ≤ l) → u.lane f.d.toNat l = t.lane f.d.toNat l) ∧
        ∀ l, l < 32 * (t.width / 32) → (t.takers f.g).getLsbD l → 32 * t.resume ≤ l →
          let v := BitVec.ofNat 64 (ofBytes (s.bytes (pg l).pa z))
          u.lane f.d.toNat l = v ∨ ∃ id q m vals, Table.find? s'.pendings id = some q ∧ q.team = t.uid ∧ q.kind = 0 ∧
            q.targets = [.slice f.d.toNat (l / 32) m vals 0 0] ∧ m.getLsbD (l % 32) = true ∧ vals.getD (l % 32) 0 = v

/-- R202, R346, R351: .RO loads of REM pages. Each distinct line of the lanes of a pass that lie in them is read once from the
package of its page, and the team waits for the replies at that pass (log 41, DEDUCED); the word then issues again and loads the
lanes that are left through the L1. A uniform load reads its one line for every lane that takes part. -/
def Claim.LoadsOfRemotePages : Prop :=
  (∀ x ∈ ([(Instr.ldlRo, linearPlace), (Instr.ldgRo, gatherPlace)] : List ((FmtM → Instr) × (Team → FmtM → Place))),
    ∀ (f : FmtM) (s : State) (k row : Nat) (t : Team), Ready s k t (x.1 f) → t.passesLeft = [row] →
      t.poisonStop (x.2 t f).reg = none → t.policy ≠ 0 →
      let g : AccessForm := { classes := roClasses, ro := true }
      let z := sizeOfZ f.z
      let ls := laneList t (t.takers f.g &&& rowsMask row (row + 1)) (x.2 t f) z row
      let rem := s.remLanes k t ls
      s.passCause k t (ls.map Prod.snd) z g = none → rem ≠ [] →
      (t.phase = 0 → s.unsent t = false → (∀ y ∈ rem, s.noRoute y.page.pkg = false) → s.resultRoom (coreOf k) 1 = true →
        ∃ s' p ss, exec (x.1 f) s = .next s' ∧ OthersStand k s s' ∧ SameMemory s s' ∧ s'.cores = s.cores ∧
          (s'.team? k).map (fun u => (u.wait, u.pc, u.resume, u.v)) = some (.reply s.serial, t.pc, row, t.v) ∧
          (Table.find? s'.ops s.serial).map (fun o => (o.uid, o.cls, o.work)) = some (t.uid, 4, .remote ss) ∧
          ss.map (fun y => (y.pkg, y.req.addr, y.req.kind)) = (linesOf rem).map (fun y => (y.1, y.2, .read 64)) ∧
          Table.find? s'.pendings s.serial = some p ∧ p.team = t.uid ∧ p.kind = 2 ∧ p.size = z ∧
          p.targets.map Target.slice? = [some (f.d.toNat, row)] ∧
          p.reads = rem.map fun y => (y.lane, (linesOf rem).idxOf (y.page.pkg, y.page.pa / 64 * 64), y.addr)) ∧
      (t.phase = 0 → s.unsent t = false → (∀ y ∈ rem, s.noRoute y.page.pkg = false) → s.resultRoom (coreOf k) 1 = false →
        exec (x.1 f) s = .next (s.takeTrap k 42 { pass := row })) ∧
      (t.phase ≠ 0 →
        let here := ls.filter fun y => !(rem.any fun r => r.lane == y.1)
        let r := s.loadLanes k t here z g
        (here = [] → ∃ s', exec (x.1 f) s = .next s' ∧ CompletedPasses (x.1 f) k s s' t) ∧
        (here ≠ [] → s.flights = [] → r.missed = true → s.resultRoom (coreOf k) 1 = true →
          ∃ s', exec (x.1 f) s = .next s' ∧ Past (x.1 f) k s' t ∧ OthersStand k s s' ∧ SameMemory s s' ∧
            Table.find? s'.pendings r.state.serial = some
              { core := coreOf k, team := t.uid, kind := 0, targets := [sliceTarget f.d.toNat row r.vals r.bad] }) ∧
        (here ≠ [] → s.flights = [] → r.missed = false → s.SliceRoom k →
          ∃ s' u, exec (x.1 f) s = .next s' ∧ Past (x.1 f) k s' u ∧ OnlyTeam Core.stillLoads k s s' ∧
            (∀ e ∈ r.vals, u.lane f.d.toNat e.1 = e.2) ∧
            (∀ q l, (q ≠ f.d.toNat ∨ ∀ e ∈ here, e.1 ≠ l) → u.lane q l = t.lane q l)))) ∧
  ∀ (f : FmtM) (s : State) (k : Nat) (t : Team) (pg : Page), Ready s k t (.lduRo f) → t.policy ≠ 0 → t.phase ≠ 1 →
    let a := uniformAddr t f
    let lanes := lanesOf (t.takers f.g) t.width |>.filter fun l => t.passes.contains (l / 32)
    lanes ≠ [] → s.passCause k t [a] (sizeOfZ f.z) { classes := roClasses, ro := true } = none →
    s.translate (dieOf k) t.ctx a { rd := true } = .page pg → pg.cls = 3 → s.unsent t = false → s.noRoute pg.pkg = false →
    s.resultRoom (coreOf k) ((lanes.map fun l => l / 32).eraseDups).length = true →
    ∃ s' p ss, exec (.lduRo f) s = .next s' ∧ OthersStand k s s' ∧ SameMemory s s' ∧
      (s'.team? k).map (fun u => (u.wait, u.pc)) = some (.reply s.serial, t.pc) ∧
      (Table.find? s'.ops s.serial).map (fun o => (o.uid, o.cls, o.work)) = some (t.uid, 4, .remote ss) ∧
      ss.map (fun y => (y.pkg, y.req.addr, y.req.kind)) = [(pg.pkg, pg.pa / 64 * 64, .read 64)] ∧
      Table.find? s'.pendings s.serial = some p ∧ p.team = t.uid ∧ p.kind = 2 ∧ p.size = sizeOfZ f.z ∧
      p.reads = lanes.map fun l => (l, 0, a)

/-- R85, R197, R206: a value that was on its way arrives in its register, and only there; a team that has ended and waited for
nothing else retires then, and one whose release waits for the value goes on (R432). -/
def Claim.ValuesArrive : Prop :=
  ∀ x ∈ ([(Instr.memoryReply, 0), (Instr.atomicReturn, 1), (Instr.storeValueReturn, 3)] : List (Instr × Nat)),
    ∀ (s : State) (id n k : Nat) (p : Pending) (t : Team), s.detail = .place id n → Table.find? s.pendings id = some p →
      (p.kind = x.2 → s.teamByUid p.team = some (k, t) → s.team? k = some t → Table.wf s.pendings = true →
        (s.core (coreOf k)).slices.length + p.targets.length ≤ sliceRoom →
        (x.2 = 3 → ∀ e ∈ s.ops, ∀ a b c, e.2.work ≠ .newRoot a b c) →
        ((∀ e ∈ s.teams, e.2.wait ≠ .retire) →
          ∃ s', exec x.1 s = .next s' ∧ Table.find? s'.pendings id = none ∧
            (∀ j, j ≠ id → Table.find? s'.pendings j = Table.find? s.pendings j) ∧
            (∀ j, s'.team? j = (if j = k then some (p.targets.foldl Team.deliver t) else s.team? j).map fun u =>
              if u.wait = .value id then { u with wait := .ready } else u) ∧
            (∀ c, (s'.core c).stillReuse = (s.core c).stillReuse) ∧
            s' = { s with pendings := s'.pendings, teams := s'.teams, cores := s'.cores }) ∧
        (t.wait = .retire → t.uid = p.team → (∀ j q, j ≠ id → Table.find? s.pendings j = some q → q.team ≠ t.uid) →
          Table.wf s.teams = true → ∃ s', exec x.1 s = .next s' ∧ s'.team? k = none ∧ SameMemory s s')) ∧
      (p.kind ≠ x.2 → exec x.1 s = .next s)

/-- R188, R197, R202, R205, R346, R351, R19, R39, R85, R206: Loads that wait for their homes, and the replies that fill their
registers. -/
def Obligations.LoadsFromMemory : Prop := Claim.LoadsFromMemory ∧ Claim.LoadsOfRemotePages ∧ Claim.LoadsOfSeveralPasses ∧ Claim.ValuesArrive

/-- R201: where lanes of a pass store to the same byte, the byte takes the value of the highest lane. -/
def Claim.LanesStoredTogether : Prop :=
  ∀ (before after : List (Word × List Byte)) (a : Word) (bs : List Byte) (i : Nat), i < bs.length →
    (∀ w ∈ before ++ [(a, bs)] ++ after, sig57 w.1 % 64 + w.2.length ≤ 64) →
    (∀ w ∈ after, ¬(sig57 w.1 ≤ sig57 a + i ∧ sig57 a + i < sig57 w.1 + w.2.length)) →
    ∃ m d, Table.find? (gather (before ++ [(a, bs)] ++ after)) (sig57 a / 64) = some (m, d) ∧
      m.getLsbD (sig57 a % 64 + i) = true ∧ lineByte d (sig57 a % 64 + i) = bs.getD i 0

/-- R188, R197, R198, R200, R201, R203: a store whose pass meets no cause completes. It leaves its bytes, gathered by line, in
the L1 of its core as dirty bytes; a non-temporal one sends them to their home and keeps them in a copy that is present. No
byte of memory has changed at the home, and no other line of an L1. -/
def Claim.Stores : Prop :=
  ∀ (i : Instr) (f : FmtM) (s : State) (k : Nat) (t : Team) (nt : Bool) (ws : List (Word × List Byte)), Ready s k t i →
    let g : AccessForm := { store := true, classes := storeClasses, nt := nt }
    let lanes := fun (p : Place) row => (laneList t (t.takers f.g) p (sizeOfZ f.z) row).map fun x =>
      (x.2, toBytes (sizeOfZ f.z) (t.lane f.d.toNat x.1).toNat)
    ((∃ row p, t.passesLeft = [row] ∧ t.poisonStop (f.d.toNat :: p.reg) = none ∧ ws = lanes p row ∧
        (i = .stl f ∧ p = linearPlace t f ∧ nt = false ∨ i = .stg f ∧ p = gatherPlace t f ∧ nt = false ∨
         i = .stlNt f ∧ p = linearPlace t f ∧ nt = true ∨ i = .stgNt f ∧ p = gatherPlace t f ∧ nt = true)) ∨
      ∃ l rest, i = .stu f ∧ nt = false ∧ lanesOf (t.takers f.g) t.width = l :: rest ∧ t.poisonOf f.d.toNat (l / 32) = none ∧
        ws = [(uniformAddr t f, toBytes (sizeOfZ f.z) (t.lane f.d.toNat l).toNat)]) →
    s.passCause k t (ws.map Prod.fst) (sizeOfZ f.z) g = none →
    exec i s = .next ((s.store k t ws g).complete k t i) ∧
    ∃ s', exec i s = .next s' ∧ Past i k s' t ∧ OthersStand k s s' ∧ SameMemory s s' ∧ s'.descs = s.descs ∧
      (∀ c, (s'.core c).stillLoads = (s.core c).stillLoads) ∧
      s' = { s with teams := s'.teams, cores := s'.cores, tlb := s'.tlb, flights := s'.flights, serial := s'.serial } ∧
      (∀ c n va, (c ≠ coreOf k ∨ n ≠ t.ctx ∨ Table.find? (gather ws) (va / 64) = none) →
        (s.core (coreOf k)).lines.length + 32 ≤ (s.core (coreOf k)).l1Room → s'.lineFind c n va = s.lineFind c n va) ∧
      (∀ line m d, Table.find? (gather ws) line = some (m, d) →
        (s.core (coreOf k)).lines.length + 32 ≤ (s.core (coreOf k)).l1Room →
        (∀ w ∈ ws, (s.tlbFind (dieOf k) t.ctx (sig57 w.1)).isSome) →
        (nt = false ∨ s.lineFind (coreOf k) t.ctx (64 * line) ≠ none →
          ∃ y, s'.lineFind (coreOf k) t.ctx (64 * line) = some y ∧
            ∀ j, j < 64 → m.getLsbD j = true →
              y.valid.getLsbD j = true ∧ y.dirty.getLsbD j = !nt ∧ lineByte y.data j = lineByte d j) ∧
        (nt = true → ∃ n y, s.serial ≤ n ∧ Table.find? s'.flights n = some y ∧ y.core = coreOf k ∧ y.ctx = t.ctx ∧
          y.mask = m ∧ y.data = d ∧ ∀ w ∈ ws, sig57 w.1 / 64 = line → s.lineFind (coreOf k) t.ctx (64 * line) = none →
            ∀ p, s.translate (dieOf k) t.ctx w.1 { wr := true } = .page p →
              (∀ v ∈ ws, sig57 v.1 / 64 = line → ∀ q, s.translate (dieOf k) t.ctx v.1 { wr := true } = .page q →
                q.pa / 64 = p.pa / 64) → y.pa = p.pa / 64))

/-- R19, R188, R197, R201: a store of several passes does them one after another: with an L1 that holds no line, every byte that a
lane stores stands dirty in the L1 afterwards with the value of the highest lane that stores it, and no byte of memory has
changed at its home. -/
def Claim.StoresOfSeveralPasses : Prop :=
  ∀ x ∈ ([(Instr.stl, linearPlace), (Instr.stg, gatherPlace)] : List ((FmtM → Instr) × (Team → FmtM → Place))),
    ∀ (f : FmtM) (s : State) (k : Nat) (t : Team), Ready s k t (x.1 f) → t.width ≤ 1024 →
      let z := sizeOfZ f.z
      let addr := (x.2 t f).addr t z
      t.poisonStop (f.d.toNat :: (x.2 t f).reg) = none → (s.ctx t.ctx).key ≠ none →
      (s.core (coreOf k)).lines = [] → 1024 ≤ (s.core (coreOf k)).l1Room →
      (∀ l, l < t.width → (t.takers f.g).getLsbD l → 32 * t.resume ≤ l →
        (addr l).toNat % z = 0 ∧ (s.tlbFind (dieOf k) t.ctx (sig57 (addr l))).isSome ∧
        ∃ p, s.translate (dieOf k) t.ctx (addr l) { wr := true } = .page p ∧ storeClasses.contains p.cls = true ∧ p.usr = true) →
      ∃ s', exec (x.1 f) s = .next s' ∧ Past (x.1 f) k s' t ∧ OthersStand k s s' ∧ SameMemory s s' ∧
        ∀ l j, l < 32 * (t.width / 32) → (t.takers f.g).getLsbD l → 32 * t.resume ≤ l → j < z →
          (∀ n, l < n → n < t.width → (t.takers f.g).getLsbD n →
            sig57 (addr l) + j < sig57 (addr n) ∨ sig57 (addr n) + z ≤ sig57 (addr l) + j) →
          ∃ y, s'.lineFind (coreOf k) t.ctx (sig57 (addr l)) = some y ∧
            y.valid.getLsbD (sig57 (addr l) % 64 + j) = true ∧ y.dirty.getLsbD (sig57 (addr l) % 64 + j) = true ∧
            lineByte y.data (sig57 (addr l) % 64 + j) = (t.lane f.d.toNat l).extractLsb' (8 * j) 8

/-- R201, R188, R197, R198, R200, R203, R19: Stores complete, and which bytes they hand to the memory. -/
def Obligations.Stores : Prop := Claim.LanesStoredTogether ∧ Claim.Stores ∧ Claim.StoresOfSeveralPasses

/-- R199, R200: a scratchpad access that is aligned and in bounds completes; a load fills the lanes that take part, a store
changes its own bytes of the issuer's part of the block's scratchpad, and memory keeps every byte. A misaligned lane raises
cause 18, and otherwise one beyond the allocation raises cause 52. -/
def Obligations.Scratchpad : Prop :=
  ∀ x ∈ ([(Instr.ldp, Instr.stp, linearPlace), (Instr.ldpg, Instr.stpg, gatherPlace)] :
        List ((FmtM → Instr) × (FmtM → Instr) × (Team → FmtM → Place))),
    ∀ (f : FmtM) (s : State) (k : Nat) (t : Team),
      let z := sizeOfZ f.z
      let addr := fun l => (x.2.2 t f).addr t z l
      let takes := fun l => t.takers f.g |>.getLsbD l
      let fits := ∀ l, l < t.width → takes l = true → 32 * t.resume ≤ l →
        (addr l).toNat % z = 0 ∧ (addr l).toNat + z ≤ s.scratchSize t
      (Ready s k t (x.1 f) → t.poisonStop (x.2.2 t f).reg = none → fits → s.SliceRoom k →
        ∃ s' u, exec (x.1 f) s = .next s' ∧ CompletedPasses (x.1 f) k s s' u ∧
          LoadedLanes t u f.d.toNat t.resume (t.takers f.g) fun l =>
            BitVec.ofNat 64 (ofBytes (s.scratchRead t (addr l).toNat z))) ∧
      (Ready s k t (x.2.1 f) → t.poisonStop (f.d.toNat :: (x.2.2 t f).reg) = none → fits →
        (∃ b, s.block? t.block = some b ∧ ∀ r, Table.wf (Table.getD b.scratch r []) = true) →
        ∃ s', exec (x.2.1 f) s = .next s' ∧ Past (x.2.1 f) k s' t ∧ OthersStand k s s' ∧ SameMemory s s' ∧
          (∀ c, (s'.core c).still = (s.core c).still) ∧
          s' = { s with teams := s'.teams, cores := s'.cores, blocks := s'.blocks } ∧
          (∀ o, (∀ l, l < t.width → takes l = true → 32 * t.resume ≤ l → o < (addr l).toNat ∨ (addr l).toNat + z ≤ o) →
            s'.scratchByte t o = s.scratchByte t o) ∧
          ∀ l j, l < 32 * (t.width / 32) → takes l = true → 32 * t.resume ≤ l → j < z →
            (∀ n, l < n → n < t.width → takes n = true →
              (addr l).toNat + j < (addr n).toNat ∨ (addr n).toNat + z ≤ (addr l).toNat + j) →
            s'.scratchByte t ((addr l).toNat + j) = (t.lane f.d.toNat l).extractLsb' (8 * j) 8) ∧
      ∀ i ∈ [x.1 f, x.2.1 f], Ready s k t i → t.poisonStop (f.d.toNat :: (x.2.2 t f).reg) = none →
        ∀ row rest, t.passesLeft = row :: rest →
        (∀ l, l < t.width → takes l = true → 32 * row ≤ l → l < 32 * row + 32 → (addr l).toNat % z ≠ 0 →
          (∀ n, n < l → takes n = true → 32 * row ≤ n → (addr n).toNat % z = 0) →
          exec i s = .next (s.takeTrap k 18 { pass := row, addr := addr l })) ∧
        ((∀ n, takes n = true → 32 * row ≤ n → n < 32 * row + 32 → (addr n).toNat % z = 0) →
          ∀ l, l < t.width → takes l = true → 32 * row ≤ l → l < 32 * row + 32 → s.scratchSize t < (addr l).toNat + z →
          (∀ n, n < l → takes n = true → 32 * row ≤ n → (addr n).toNat + z ≤ s.scratchSize t) →
          exec i s = .next (s.takeTrap k 52 { pass := row, addr := addr l }))

/-- R165, R168, R169, R170, R172: STQ forms one described line for a pass, from the elements of the lanes that take part, and
writes its data and its descriptor at the line's home, which ends an uncorrectable error of either. A poisoned source is met
before the checks of the pass's address (log 110, DESIGN CHOICE). -/
def Claim.LinesQuantised : Prop :=
  ∀ (f : FmtMq) (s : State) (k row : Nat) (t : Team) (p : Page), Ready s k t (.stq f) → t.passesLeft = [row] →
    let fmt := f.fmt.toNat
    let b := if fmt = 8 then 1 else 2 ^ fmt
    let a := t.s f.s + BitVec.ofNat 64 (64 * row)
    let r := formLine (rmOf f.rm) fmt ((List.range (512 / b)).map fun j =>
      if (t.takers f.g).getLsbD (32 * row + (placeOf j).2.1) then some (t.element f.d.toNat row j) else none)
    (∀ i q, i < spanOf b → (∀ j, j < i → t.poisonOf (f.d.toNat + j) row = none) → t.poisonOf (f.d.toNat + i) row = some q →
      exec (.stq f) s = .next (s.takeTrap k q.cause { pass := row, addr := q.addr, slice := some (q.reg, q.row) })) ∧
    (t.poisonStop ((List.range (spanOf b)).map fun i => f.d.toNat + i) = none →
    s.passCause k t [a] 64 { store := true, classes := [0] } = none → s.translate (dieOf k) t.ctx a { wr := true } = .page p →
    (s.core (coreOf k)).lines = [] → s.flights = [] → Memory.wf s.mem = true → Table.wf s.descs = true →
    Table.wf s.bad = true → isCxl p.pa = false → p.pa % 64 = 0 →
    ∃ s', exec (.stq f) s = .next s' ∧ Past (.stq f) k s' (t.flag r.2.2) ∧ OthersStand k s s' ∧
      (∀ j, j < 64 → s'.byte (p.pa + j) = lineByte r.1 j) ∧ SameOutside p.pa 64 s s' ∧
      s'.desc p.pa = r.2.1 ∧ (∀ q, q / 64 ≠ p.pa / 64 → s'.desc q = s.desc q) ∧ s'.badData p.pa = false ∧ s'.badDesc p.pa = false)

/-- R166, R168, R171, R172, R205, R442: LDQ takes width and scale from the line's descriptor and fills the registers that the line
spans; a descriptor of no tensor raises cause 20, one that is uncorrectable cause 21, and a line that needs registers beyond
v31 cause 4. Where the line's data is uncorrectable the slices that it fills are poisoned. -/
def Claim.LinesRead : Prop :=
  ∀ (f : FmtMq) (s : State) (k row : Nat) (t : Team) (p : Page), Ready s k t (.ldq f) → t.passesLeft = [row] → t.policy ≠ 0 →
    let a := t.s f.s + BitVec.ofNat 64 (64 * row)
    let m := t.takers f.g &&& rowsMask row (row + 1)
    s.passCause k t [a] 64 { classes := [0, 1] } = none → s.translate (dieOf k) t.ctx a { rd := true } = .page p →
    (s.core (coreOf k)).lines = [] → s.flights = [] → s.SliceRoom k →
    (s.badDesc p.pa = true → exec (.ldq f) s = .next (s.takeTrap k 21 { pass := row, addr := a })) ∧
    (s.badDesc p.pa = false → tensorOf (s.desc p.pa) = none →
      exec (.ldq f) s = .next (s.takeTrap k 20 { pass := row, addr := a })) ∧
    ∀ b binary, s.badDesc p.pa = false → tensorOf (s.desc p.pa) = some (b, binary) →
      (32 < f.d.toNat + spanOf b → exec (.ldq f) s = .next (s.takeTrap k 4 { pass := row })) ∧
      (f.d.toNat + spanOf b ≤ 32 → s.badData p.pa = false →
        let val := fun j => if j < 512 / b then
            elementValue b binary ((s.desc p.pa).toNat / 256) ((s.lineData p.pa).toNat / 2 ^ (b * j) % 2 ^ b)
          else (0, 0)
        ∃ s' u, exec (.ldq f) s = .next s' ∧ Past (.ldq f) k s' u ∧ OthersStand k s s' ∧ SameMemory s s' ∧
          (∀ i, i < spanOf b → ∀ l, l < t.width → u.lane (f.d.toNat + i) l =
            if m.getLsbD l then
              BitVec.ofNat 64 ((val (64 * i + 2 * (l - 32 * row))).1 + 2 ^ 32 * (val (64 * i + 2 * (l - 32 * row) + 1)).1)
            else t.lane (f.d.toNat + i) l) ∧
          (∀ r, (r < f.d.toNat ∨ f.d.toNat + spanOf b ≤ r) → u.vreg r = t.vreg r) ∧
          (∀ n, u.nflags.getLsbD n = (t.nflags.getLsbD n || (List.range (spanOf b)).any fun i => (List.range t.width).any fun l =>
            m.getLsbD l && ((val (64 * i + 2 * (l - 32 * row))).2 ||| (val (64 * i + 2 * (l - 32 * row) + 1)).2).getLsbD n)) ∧
          u = { t with v := u.v, nflags := u.nflags, poison := u.poison, unread := u.unread }) ∧
      (f.d.toNat + spanOf b ≤ 32 → s.badData p.pa = true →
        ∃ s' u, exec (.ldq f) s = .next s' ∧ Past (.ldq f) k s' u ∧ OthersStand k s s' ∧ SameMemory s s' ∧
          ∀ i, i < spanOf b → (u.poisonOf (f.d.toNat + i) row).map (fun q => (q.cause, q.addr)) = some (21, a))

/-- R165, R168, R169, R170, R172, R166, R171, R205, R442: LDQ and STQ move quantised lines. -/
def Obligations.QuantisedLines : Prop := Claim.LinesQuantised ∧ Claim.LinesRead

/-- R207 to R211, R432: fences, and the control of the L1. A fence first waits for a value that an earlier content-store
instruction of the team returns. A scope below QUAD then needs no traffic; from QUAD on the dirty lines of the context are sent
first, and the team waits for their acknowledgements; then the lines not marked read-only go. -/
def Claim.CacheControl : Prop :=
  (∀ (f : FmtS) (s : State) (k : Nat) (t : Team), Ready s k t (.fence f) →
    (∀ id, s.valueDue t.uid = some id → exec (.fence f) s = .next (s.parkTeam k (.value id))) ∧
    (s.valueDue t.uid = none → (scopeOfF f < 2 ∨ 16384 ≤ k) → ∃ s', exec (.fence f) s = .next s' ∧ Completed (.fence f) k s s' t) ∧
    (s.valueDue t.uid = none → 2 ≤ scopeOfF f → k < 16384 → (∀ l ∈ (s.core (coreOf k)).lines, l.ctx = t.ctx → l.dirty = 0) →
      s.flightsOf (coreOf k) t.ctx = [] → s.fabricBusy t = false →
      ∃ s', exec (.fence f) s = .next s' ∧ Past (.fence f) k s' t ∧ OnlyTeam Core.stillL1 k s s' ∧
        ∀ y, y ∈ (s'.core (coreOf k)).lines ↔ ∃ l ∈ (s.core (coreOf k)).lines,
          (l.ctx ≠ t.ctx ∨ (l.ro = true ∧ ¬(5 ≤ scopeOfF f ∧ (l.cls = 3 ∨ l.cls = 4)))) ∧
          y = if l.ctx = t.ctx then { l with dirty := 0, raw := false } else l) ∧
    (s.valueDue t.uid = none → 2 ≤ scopeOfF f → k < 16384 → ∀ l ∈ (s.core (coreOf k)).lines, l.ctx = t.ctx → l.dirty ≠ 0 →
      ∃ s' ids n, exec (.fence f) s = .next s' ∧ n ∈ ids ∧ (s'.team? k).map (fun u => (u.wait, u.pc)) = some (.acks ids, t.pc) ∧
        (Table.find? s'.flights n).map (fun y => (y.core, y.ctx, y.pa, y.mask, y.data)) =
          some (coreOf k, t.ctx, l.pa, l.dirty, l.data))) ∧
  ∀ x ∈ ([(Instr.l1inv, true), (Instr.l1wb, false)] : List ((FmtS → Instr) × Bool)),
    ∀ (f : FmtS) (s : State) (k : Nat) (t : Team), Ready s k t (x.1 f) →
      (t.phase = 1 → ∃ s', exec (x.1 f) s = .next s' ∧ Completed (x.1 f) k s s' t) ∧
      (t.phase ≠ 1 → Table.wf s.flights = true → (∀ e ∈ s.flights, e.1 < s.serial) →
        (∀ l ∈ (s.core (coreOf k)).lines, l.ctx = t.ctx → cacheSel f t l = true → l.dirty = 0) →
        ∃ s', exec (x.1 f) s = .next s' ∧ Past (x.1 f) k s' t ∧ OnlyTeam Core.stillL1 k s s' ∧
          ∀ y, y ∈ (s'.core (coreOf k)).lines ↔ ∃ l ∈ (s.core (coreOf k)).lines,
            (x.2 = false ∨ l.ctx ≠ t.ctx ∨ cacheSel f t l = false) ∧
            y = if l.ctx = t.ctx ∧ cacheSel f t l = true then { l with dirty := 0, raw := false } else l) ∧
      (t.phase ≠ 1 → ∀ l ∈ (s.core (coreOf k)).lines, l.ctx = t.ctx → cacheSel f t l = true → l.dirty ≠ 0 →
        ∃ s' ids n, exec (x.1 f) s = .next s' ∧ n ∈ ids ∧
          (s'.team? k).map (fun u => (u.wait, u.pc, u.phase)) = some (.acks ids, t.pc, 1) ∧
          (Table.find? s'.flights n).map (fun y => (y.core, y.ctx, y.pa, y.mask, y.data)) =
            some (coreOf k, t.ctx, l.pa, l.dirty, l.data))

/-- R209, R210, R211, R395: LDACQ loads one value and STREL stores one, at a scope below QUAD in the L1 and from QUAD on at the
home; a system thread reaches the home by physical address. PFD fills a line, and drops what it may not read. -/
def Claim.OrderedAccesses : Prop :=
  (∀ (f : FmtS) (s : State) (k : Nat) (t : Team), Ready s k t (.ldacq f) →
    (k < 16384 → scopeOfF f < 2 → s.passCause k t [t.s f.sa] (sizeOfF f) { classes := loadClasses } = none →
      ∀ h, s.hit (coreOf k) t.ctx (t.s f.sa) (sizeOfF f) { classes := loadClasses } = some h →
      (s.core (coreOf k)).lines.length ≤ (s.core (coreOf k)).l1Room →
      ∃ s', exec (.ldacq f) s = .next s' ∧ Past (.ldacq f) k s'
        (t.setS f.sd (BitVec.ofNat 64 (lineNumber h.data (sig57 (t.s f.sa) % 64) (sizeOfF f)))) ∧ OnlyTeam Core.stillL1 k s s') ∧
    (k < 16384 → 2 ≤ scopeOfF f → s.passCause k t [t.s f.sa] (sizeOfF f) { classes := loadClasses } = none →
      ∀ p, s.translate (dieOf k) t.ctx (t.s f.sa) { rd := true } = .page p → s.badData p.pa = false →
      (s.core (coreOf k)).lines = [] → s.flights = [] →
      ∃ s', exec (.ldacq f) s = .next s' ∧ Past (.ldacq f) k s'
        (t.setS f.sd (BitVec.ofNat 64 (ofBytes (s.bytes p.pa (sizeOfF f))))) ∧ OthersStand k s s' ∧ SameMemory s s') ∧
    (16384 ≤ k → t.role = .system → t.level = 2 → (t.s f.sa).toNat % sizeOfF f = 0 → isPopulated (t.s f.sa).toNat = true →
      s.badData (t.s f.sa).toNat = false → ∃ s', exec (.ldacq f) s = .next s' ∧ Completed (.ldacq f) k s s'
        (t.setS f.sd (BitVec.ofNat 64 (ofBytes (s.bytes (t.s f.sa).toNat (sizeOfF f))))))) ∧
  (∀ (f : FmtS) (s : State) (k : Nat) (t : Team), Ready s k t (.strel f) →
    let bs := toBytes (sizeOfF f) (t.s f.sb).toNat
    (k < 16384 → s.passCause k t [t.s f.sa] (sizeOfF f)
        { store := true, classes := storeClasses, nt := Nat.ble 2 (scopeOfF f) } = none →
      (s.release k t (scopeOfF f)).2 = none →
      exec (.strel f) s = .next (((s.release k t (scopeOfF f)).1.store k t [(t.s f.sa, bs)]
        { store := true, classes := storeClasses, nt := Nat.ble 2 (scopeOfF f) }).complete k t (.strel f))) ∧
    (16384 ≤ k → t.role = .system → t.level = 2 → (t.s f.sa).toNat % sizeOfF f = 0 → isPopulated (t.s f.sa).toNat = true →
      Memory.wf s.mem = true → ∃ s', exec (.strel f) s = .next s' ∧ Past (.strel f) k s' t ∧ OthersStand k s s' ∧
        s'.bytes (t.s f.sa).toNat (sizeOfF f) = bs ∧ SameOutside (t.s f.sa).toNat (sizeOfF f) s s')) ∧
  ∀ (f : FmtS) (s : State) (k : Nat) (t : Team), Ready s k t (.pfd f) →
    let g : AccessForm := { classes := loadClasses }
    let a := t.s f.sa
    let line := a &&& ~~~63#64
    (∀ c, (s.accessCause k t line 64 g).or (s.classCause k t line 64 g) = some c → c ≠ 23 →
      ∃ s', exec (.pfd f) s = .next s' ∧ Completed (.pfd f) k s s' t) ∧
    ((s.accessCause k t line 64 g).or (s.classCause k t line 64 g) = some 23 →
      exec (.pfd f) s = .next ((s.pteBad k t.ctx a t.part).complete k t (.pfd f))) ∧
    ((s.accessCause k t line 64 g).or (s.classCause k t line 64 g) = none → (∀ e ∈ s.flights, e.2.add = none) →
      ∃ s', exec (.pfd f) s = .next s' ∧ Past (.pfd f) k s' t ∧ OthersStand k s s' ∧ SameMemory s s' ∧
        (f.f.getLsbD 0 = true → ∀ c, (s'.core c).still = (s.core c).still) ∧
        (f.f.getLsbD 0 = false → s.hit (coreOf k) t.ctx line 64 g = none →
          ∀ p, s.translate (dieOf k) t.ctx line { rd := true } = .page p →
          let home := match s.lineFind (coreOf k) t.ctx (sig57 line) with
            | some y => y.pa
            | none => p.pa / 64
          s.badData (64 * home) = false →
          ∃ l, s'.lineFind (coreOf k) t.ctx (sig57 a) = some l ∧ l.valid = BitVec.allOnes 64 ∧ l.pa = home))

/-- R207, R208, R209, R210, R211, R432, R395: Fences, acquiring loads, releasing stores and cache control. -/
def Obligations.FencesAndCaches : Prop := Claim.CacheControl ∧ Claim.OrderedAccesses

/-- R226 to R232, R235, R432: an atomic, other than AFADD.R of device memory, changes each lane's location at its home to the result
of its operation, in the ascending order of the lanes, pass after pass; each lane finds what the lanes before it have left. A
line that is uncorrectable is not changed. First the atomic waits for a value that a content-store instruction returns. The old values are on their way to the register of the operand group unless the
form returns nothing; every other byte stands. -/
def Claim.AtomicLanes : Prop :=
  ∀ x ∈ ([(Instr.aadd, 0), (Instr.afadd, 1), (Instr.amin, 2), (Instr.amax, 3), (Instr.afmax, 4), (Instr.aand, 5),
      (Instr.aor, 6), (Instr.axor, 7), (Instr.axch, 8), (Instr.acas, 9)] : List ((FmtA → Instr) × Nat)),
    ∀ (f : FmtA) (s : State) (k : Nat) (t : Team) (pg : Nat → Page), Ready s k t (x.1 f) →
      let z := if f.z = 1 then 4 else 8
      let d := f.d.toNat
      let addr := fun l => t.s f.s + t.lane (d + 1) l
      let takes := fun l => (t.takers f.g).getLsbD l && Nat.ble (32 * t.resume) l
      let old := fun (m : Nat → Byte) (l : Nat) => ofBytes ((List.range z).map fun i => m ((pg l).pa + i))
      let new := fun (m : Nat → Byte) (l : Nat) => atomicResult x.2 z f.u (old m l) ((t.lane d l).toNat % 2 ^ (8 * z))
        (if x.2 = 9 then (t.lane (d + 2) l).toNat % 2 ^ (8 * z) else 0)
      let after := fun (m : Nat → Byte) (l : Nat) (a : Nat) =>
        if s.badData (pg l).pa = false ∧ (pg l).pa ≤ a ∧ a < (pg l).pa + z then (toBytes z (new m l)).getD (a - (pg l).pa) 0 else m a
      let upTo := fun (n : Nat) => ((List.range n).filter takes).foldl after s.byte
      (∀ id, s.valueDue t.uid = some id → exec (x.1 f) s = .next (s.parkTeam k (.value id))) ∧
      (s.valueDue t.uid = none → (f.r = false → s.SliceRoom k) → t.poisonStop (atomicRegs d x.2) = none → (f.scope.toNat < 2 ∨ s.fabricBusy t = false) →
      (s.core (coreOf k)).lines = [] → s.flights = [] → (s.ctx t.ctx).key ≠ none → Memory.wf s.mem = true →
      (∀ l, l < 32 * (t.width / 32) → takes l = true → (x.2 = 1 ∧ f.r = true → isCxl (pg l).pa = true) ∧
        (addr l).toNat % z = 0 ∧ canonical (addr l) = true ∧ (s.tlbFind (dieOf k) t.ctx (sig57 (addr l))).isSome ∧
        s.translate (dieOf k) t.ctx (addr l) { wr := true } = .page (pg l) ∧ ((pg l).cls = 0 ∨ (pg l).cls = 4) ∧ (pg l).pa % z = 0) →
      ∃ s', exec (x.1 f) s = .next s' ∧ Past (x.1 f) k s' t ∧ OthersStand k s s' ∧
        (∀ a, s'.byte a = upTo (32 * (t.width / 32)) a) ∧
        (f.r = true → s'.pendings = s.pendings) ∧
        (f.r = false → ∀ row ∈ t.passesLeft,
          let ls := ((List.range 32).map fun i => 32 * row + i).filter takes
          ls ≠ [] → ∃ id, Table.find? s'.pendings id = some
            { core := coreOf k, team := t.uid, kind := 1, targets := [sliceTarget d row
                ((ls.filter fun l => !s.badData (pg l).pa).map fun l => (l, BitVec.ofNat 64 (old (upTo l) l)))
                ((ls.find? fun l => s.badData (pg l).pa).map addr)] }))

/-- R226, R228, R231, R232, R233: AFADD.R completes with its contributions on their way: those of one pass to one location of
device memory may merge, each merge one FP32 addition, and no byte has changed yet. One that arrives is added at its home, or
merges into another of its context to the same location; which merge, and in which order, is free (log 23). An uncorrectable line
takes nothing, which firmware counts (R235). -/
def Claim.MergedAdds : Prop :=
  (∀ (f : FmtA) (s : State) (k : Nat) (t : Team) (pg : Nat → Page), Ready s k t (.afadd f) → f.r = true →
    let d := f.d.toNat
    let addr := fun l => t.s f.s + t.lane (d + 1) l
    let takes := fun l => (t.takers f.g).getLsbD l && Nat.ble (32 * t.resume) l
    t.poisonStop [d, d + 1] = none → s.valueDue t.uid = none → (f.scope.toNat < 2 ∨ s.fabricBusy t = false) →
    (s.core (coreOf k)).lines = [] → s.flights = [] → (s.ctx t.ctx).key ≠ none →
    (∀ l, l < 32 * (t.width / 32) → takes l = true → (addr l).toNat % (if f.z = 1 then 4 else 8) = 0 ∧ canonical (addr l) = true ∧
      (s.tlbFind (dieOf k) t.ctx (sig57 (addr l))).isSome ∧
      s.translate (dieOf k) t.ctx (addr l) { wr := true } = .page (pg l) ∧ ((pg l).cls = 0 ∨ (pg l).cls = 4) ∧
      isCxl (pg l).pa = false) →
    ∃ s', exec (.afadd f) s = .next s' ∧ Past (.afadd f) k s' t ∧ OthersStand k s s' ∧ SameMemory s s' ∧
      s'.pendings = s.pendings ∧
      (∀ e ∈ s'.flights, e.2.core = coreOf k ∧ e.2.ctx = t.ctx ∧ e.2.into = none ∧ e.2.add.isSome) ∧
      ∀ pa, Merged
        (((List.range (32 * (t.width / 32))).filter fun l => takes l && (pg l).pa == pa).map fun l => elem 32 (t.lane d l) 0)
        (s'.flights.filterMap fun e => (e.2.add.filter fun y => y.1 == pa).map Prod.snd)) ∧
  ∀ (s : State) (id n pa x : Nat) (f : Flight), s.detail = .place id n → Table.find? s.flights id = some f →
    f.add = some (pa, x) → f.into = none → Table.wf s.flights = true → Memory.wf s.mem = true → pa % 4 = 0 →
    let performed := fun s' : State =>
      (s.badData pa = false → s'.bytes pa 4 = toBytes 4 (fp32.add (ofBytes (s.bytes pa 4)) x).1 ∧ SameOutside pa 4 s s') ∧
      (s.badData pa = true → SameMemory s s' ∧ s'.health = (s.countBad pa).health) ∧
      s'.flights = s.flights.filter fun e => e.1 != id && e.2.into != some id
    let others := fun (j : Nat) (g : Flight) => j ≠ id ∧ Table.find? s.flights j = some g ∧ g.ctx = f.ctx ∧ g.into = none ∧
      g.add.map Prod.fst = some pa
    ((∀ j g, ¬others j g) → ∃ s', exec .writeBackAck s = .next s' ∧ performed s') ∧
    ∃ s', exec .writeBackAck s = .next s' ∧ (performed s' ∨ ∃ j g y, others j g ∧ g.add = some (pa, y) ∧ SameMemory s s' ∧
      Table.find? s'.flights j = some { g with add := some (pa, (fp32.add y x).1) } ∧
      Table.find? s'.flights id = some { f with into := some j } ∧
      (∀ i h, i ≠ id → i ≠ j → Table.find? s.flights i = some h →
        Table.find? s'.flights i = some (if h.into = some id then { h with into := some j } else h)))

/-- R226, R227, R228, R229, R230, R231, R232, R235, R432, R233: Atomics read and change their location at its home, lane by lane,
and additions merge. -/
def Obligations.Atomics : Prop := Claim.AtomicLanes ∧ Claim.MergedAdds

/-- R237 to R244, R432: a number that is not granted raises cause 12. BARI sets the core's expected count; BARV counts an arrival once,
where its core expects any; the barrier is released when every core of the instance has its expected arrivals and some core
has one; BARW goes on where no arrival is pending and waits otherwise, and BARS does both; an arrival first waits for a value that a content-store instruction of the
team returns. A release reaches the partition of
the team that arrived (log 111, DESIGN CHOICE). -/
def Obligations.Barriers : Prop :=
  (∀ x ∈ ([Instr.barv, Instr.barw, Instr.bars, Instr.bari] : List (FmtE → Instr)),
    ∀ (f : FmtE) (s : State) (k : Nat) (t : Team), Ready s k t (x f) →
      (((barOf f).1 = 3 ∧ (s.ctx t.ctx).bargrant.getLsbD (barOf f).2 = false) ∨
        ((barOf f).1 = 4 ∧ (s.ctx t.ctx).bargrant.getLsbD (16 + (barOf f).2) = false)) →
      exec (x f) s = .next (s.takeTrap k 12 {})) ∧
  ∀ (f : FmtE) (s : State) (k : Nat) (t : Team), k < 16384 →
    let sc := (barOf f).1
    let n := (barOf f).2
    let b := barKey sc n
    let cs := s.barCores (coreOf k) t.part sc
    let x := (s.core (coreOf k)).bar b
    let after := fun (y : Barrier) (c : Nat) => if c = coreOf k then y else (s.core c).bar b
    let released := fun (y : Barrier) =>
      (∀ c ∈ cs, (after y c).expected ≤ (after y c).arrived) ∧ ∃ c ∈ cs, (after y c).arrived ≠ 0
    let freed := fun (u : Team) => if u.pendingBars.contains b then
      { u with pendingBars := u.pendingBars.filter fun j => j != b, wait := if u.wait = .barrier sc n then .ready else u.wait }
      else u
    -- what the arrival leaves: the counters, the other teams, and the rest
    let leaves := fun (y : Barrier) (s' : State) =>
      (released y → (∀ c, (s'.core c).bar b = if c ∈ cs then { after y c with arrived := 0 } else after y c) ∧
        ∀ j, j ≠ k → (s'.team? j).map Team.unstamped =
          (s.team? j).map fun v => (if j < 16384 ∧ coreOf j ∈ cs then freed v else v).unstamped) ∧
      (¬released y → (∀ c, (s'.core c).bar b = after y c) ∧
        ∀ j, j ≠ k → (s'.team? j).map Team.unstamped = (s.team? j).map Team.unstamped) ∧
      (∀ c j, j ≠ b → (s'.core c).bar j = (s.core c).bar j) ∧
      (∀ c, (s'.core c).still = { (s.core c).still with bars := (s'.core c).bars }) ∧
      s' = { s with teams := s'.teams, cores := s'.cores }
    let y := if x.expected = 0 then x else { x with arrived := x.arrived + 1 }
    let arrived := { t with pendingBars := b :: t.pendingBars }
    (sc = 3 → (s.ctx t.ctx).bargrant.getLsbD n = true) → (sc = 4 → (s.ctx t.ctx).bargrant.getLsbD (16 + n) = true) →
    coreOf k ∈ cs → (sc < 2 ∨ ((s.core (coreOf k)).lines = [] ∧ s.flights = [] ∧ s.fabricBusy t = false)) →
    (Ready s k t (.bari f) →
      let e := { x with expected := min ((t.s f.q).toNat % 128) 64 }
      ∃ s', exec (.bari f) s = .next s' ∧ leaves e s' ∧
        (released e → Past (.bari f) k s' (freed t)) ∧ (¬released e → Past (.bari f) k s' t)) ∧
    (∀ id, s.valueDue t.uid = some id → (Ready s k t (.barv f) → exec (.barv f) s = .next (s.parkTeam k (.value id))) ∧
      (Ready s k t (.bars f) → t.phase ≠ 1 → exec (.bars f) s = .next (s.parkTeam k (.value id)))) ∧
    (Ready s k t (.barv f) → s.valueDue t.uid = none → b ∈ t.pendingBars → ∃ s', exec (.barv f) s = .next s' ∧ Completed (.barv f) k s s' t) ∧
    (Ready s k t (.barv f) → s.valueDue t.uid = none → b ∉ t.pendingBars → ∃ s', exec (.barv f) s = .next s' ∧ leaves y s' ∧
      (released y → Past (.barv f) k s' t) ∧ (¬released y → Past (.barv f) k s' arrived)) ∧
    (∀ i ∈ [Instr.barw f, Instr.bars f], Ready s k t i → (i = .bars f → t.phase = 1) →
      (b ∉ t.pendingBars → ∃ s', exec i s = .next s' ∧ Completed i k s s' t) ∧
      (b ∈ t.pendingBars → ∃ s', exec i s = .next s' ∧
        (s'.team? k).map (fun u => (u.wait, u.pc)) = some (.barrier sc n, t.pc) ∧ OthersStand k s s')) ∧
    (Ready s k t (.bars f) → t.phase ≠ 1 → s.valueDue t.uid = none →
      (b ∉ t.pendingBars → released y → ∃ s', exec (.bars f) s = .next s' ∧ leaves y s' ∧ Past (.bars f) k s' t) ∧
      (b ∉ t.pendingBars → ¬released y → ∃ s', exec (.bars f) s = .next s' ∧ leaves y s' ∧
        (s'.team? k).map (fun u => (u.wait, u.pc, u.phase, u.pendingBars)) =
          some (.barrier sc n, t.pc, 1, b :: t.pendingBars)) ∧
      (b ∈ t.pendingBars → ∃ s', exec (.bars f) s = .next s' ∧
        (s'.team? k).map (fun u => (u.wait, u.pc, u.phase, u.pendingBars)) = some (.barrier sc n, t.pc, 1, t.pendingBars)))

/-! ### Engines, batches, pipes -/

/-- R33, R39, R63, R95: completing an instruction moves its team past the word and counts an issue; every other team keeps all but
its age stamp, every core all but its run, and the rest of the state and every byte of memory stand. An instruction that
keeps its team from issuing in the next ACLK ends its run; a word that another follows in its chain begins its team's run, where
it has none, and counts no issue. -/
def Claim.Completing : Prop :=
  ∀ (s : State) (k : Nat) (i : Instr) (before u : Team), s.team? k = some u →
    let s' := s.complete k before i
    (s'.team? k).map Team.timeless = some (u.advance (chainBit i) (wordsOf i)).timeless ∧ OnlyTeam Core.still k s s' ∧
    (delays i before (some u) = false → chainBit i = true →
      let run := fun (y : State) => (y.core (coreOf k)).runOf (u.role == .loader)
      (16384 ≤ k ∨ run s = some k → s'.cores = s.cores) ∧
      (k < 16384 → freeNop u i = false → run s' = some k)) ∧
    (delays i before (some u) = true → k < 16384 → (s'.core (coreOf k)).runOf (u.role == .loader) ≠ some k)

/-- R246, R254, R256, R257, R268: CPY, CPYP, GATH and SCAT whose operands pass their checks hand one operation to the copy engine
and go on; with 64 operations of the core in the engine the team waits; a scratchpad side that leaves the allocation raises
cause 52, with no address (log 32, DEDUCED), and so does one of CPYP, GATH and SCAT. A CPYP of more than 128 rows raises cause 4 (log 112, DESIGN CHOICE). -/
def Claim.CopiesStart : Prop :=
  (∀ (f : FmtE) (s : State) (k : Nat) (t : Team), Ready s k t (.cpy f) →
    let dir := (f.f.extractLsb' 0 2).toNat
    let dim := (f.f.extractLsb' 2 2).toNat
    let rows := if dim = 0 then 0 else t.group f.p 3
    let planes := if dim ≤ 1 then 0 else t.group f.p 4
    let sh := copyShape dim (t.group f.p 2)
    let inside := fun (hi : Bool) (base : Word) => sh.1 = 0 ∨ ∀ r p, r < sh.2.1 → p < sh.2.2 →
      let at_ := (base.toNat : Int) + (if dim = 0 then 0 else halfInt rows hi * (r : Int)) +
        (if dim ≤ 1 then 0 else halfInt planes hi * (p : Int))
      0 ≤ at_ ∧ at_ + (sh.1 : Int) ≤ (s.scratchSize t : Int)
    let fits := (dir = 0 ∨ dir = 2 ∨ inside false (t.group f.p 0)) ∧ (dir = 1 ∨ dir = 2 ∨ inside true (t.group f.p 1))
    (¬fits → exec (.cpy f) s = .next (s.takeTrap k 52 {})) ∧
    (fits → s.copyFull (coreOf k) = false → exec (.cpy f) s = .next ((s.begin k t 0
      (.copy f.f.toNat (t.group f.p 0) (t.group f.p 1) (t.group f.p 2) rows planes)).complete k t (.cpy f))) ∧
    (fits → s.copyFull (coreOf k) = true → exec (.cpy f) s = .next (s.parkTeam k .engine))) ∧
  (∀ (f : FmtE) (s : State) (k : Nat) (t : Team), Ready s k t (.cpyp f) →
    let b := planeWidth f.f.toNat
    let sh := planeShape (t.group f.p 2)
    (128 < sh.2.2.1 → exec (.cpyp f) s = .next (s.takeTrap k 4 {})) ∧
    (sh.2.2.1 ≤ 128 → (t.group f.p 0).toNat % 64 ≠ 0 → exec (.cpyp f) s = .next (s.takeTrap k 18 { addr := t.group f.p 0 })) ∧
    (sh.2.2.1 ≤ 128 → (t.group f.p 0).toNat % 64 = 0 → (t.group f.p 1).toNat % 64 ≠ 0 →
      exec (.cpyp f) s = .next (s.takeTrap k 18 {})) ∧
    (sh.2.2.1 ≤ 128 → (t.group f.p 0).toNat % 64 = 0 → (t.group f.p 1).toNat % 64 = 0 →
      let fits := sh.2.2.2 = 0 ∨ (sh.1 + b * sh.2.2.1 * sh.2.2.2 / 8 ≤ s.scratchSize t ∧
        sh.2.1 + sh.2.2.1 * (sh.2.2.2 / (512 / b)) ≤ s.scratchSize t)
      (sh.2.2.2 % (512 / b) ≠ 0 → exec (.cpyp f) s = .next (s.takeTrap k 53 {})) ∧
      (sh.2.2.2 % (512 / b) = 0 → ¬fits → exec (.cpyp f) s = .next (s.takeTrap k 52 {})) ∧
      (sh.2.2.2 % (512 / b) = 0 → fits →
        (s.copyFull (coreOf k) = false → exec (.cpyp f) s = .next ((s.begin k t 0
          (.planes f.f.toNat (t.group f.p 0) (t.group f.p 1) (t.group f.p 2))).complete k t (.cpyp f))) ∧
        (s.copyFull (coreOf k) = true → exec (.cpyp f) s = .next (s.parkTeam k .engine))))) ∧
  ∀ x ∈ ([(Instr.gath, false), (Instr.scat, true)] : List ((FmtE → Instr) × Bool)),
    ∀ (f : FmtE) (s : State) (k : Nat) (t : Team), Ready s k t (x.1 f) →
      let l := bitsOf (t.group f.p 3) 0 32
      let m := bitsOf (t.group f.p 3) 32 16
      ((t.group f.p 2).toNat % 4 ≠ 0 → exec (x.1 f) s = .next (s.takeTrap k 18 {})) ∧
      let fits := m = 0 ∨
        ((t.group f.p 2).toNat + 4 * m ≤ s.scratchSize t ∧ (l = 0 ∨ (t.group f.p 1).toNat + m * l ≤ s.scratchSize t))
      ((t.group f.p 2).toNat % 4 = 0 → ¬fits → exec (x.1 f) s = .next (s.takeTrap k 52 {})) ∧
      ((t.group f.p 2).toNat % 4 = 0 → fits →
        (s.copyFull (coreOf k) = false → exec (x.1 f) s = .next ((s.begin k t 0 (.gather x.2 (t.group f.p 0) (t.group f.p 1)
          (t.group f.p 2) (t.group f.p 3) (t.group f.p 4))).complete k t (x.1 f))) ∧
        (s.copyFull (coreOf k) = true → exec (x.1 f) s = .next (s.parkTeam k .engine)))

/-- R249, R251, R254, R384, R391: an operation of the copy engine, performed whole at its completion (log 24, DEDUCED), ends its
part of the batch where it meets no fault and fails it at a fault other than a miss; one that meets a miss waits for it, and
one whose context does not run or that waits already stays. -/
def Claim.CopiesComplete : Prop :=
  ∀ (s : State) (id n : Nat) (o : Op), s.detail = .place id n → Table.find? s.ops id = some o →
    (o.cls = 0 → (o.miss ≠ none ∨ s.away o.ctx = true) → exec .copyOpComplete s = .next s) ∧
    (o.cls ≠ 0 → exec .copyOpComplete s = .next s) ∧
    (o.cls = 0 → o.miss = none → s.away o.ctx = false → (∀ e ∈ s.flights, e.2.add = none) →
      ((s.copyAct o).2 = none → exec .copyOpComplete s = .next ((s.copyAct o).1.endOp id none)) ∧
      (∀ x, (s.copyAct o).2 = some x →
        (x.cause = 16 ∧ o.unserved ≠ some (x.addr.toNat / 65536) → exec .copyOpComplete s = .next (s.opMiss id o x)) ∧
        (x.cause = 16 ∧ o.unserved = some (x.addr.toNat / 65536) ∨ x.cause ≠ 16 ∧ x.cause ≠ 23 →
          exec .copyOpComplete s = .next ((s.copyAct o).1.endOp id (some (x.cause, x.addr)))) ∧
        (x.cause = 23 → exec .copyOpComplete s = .next (((s.copyAct o).1.pteBad o.key o.ctx x.addr (s.ctx o.ctx).part).endOp id
          (some (23, x.addr))))))

/-- R249, R253 to R257: the bytes that copies, gathers and scatters leave at their destination are those of their sources. A CPY
moves its rows and planes one after another, each at its own stride from the base of its side, within the scratchpad, within
memory or between them, and a line that it copies whole takes its source's descriptor with it. GATH and SCAT take the place
of each element from a list of indices. CPYP leaves each bit of a quantised line in the plane of its weight, and the line's
scale beside them. -/
def Claim.BytesMoved : Prop :=
  ∀ (s : State) (o : Op), (∀ e ∈ s.flights, e.2.add = none) →
    (∀ f src dst len rows planes, o.work = .copy f src dst len rows planes →
      let dir := f % 4
      let dim := f / 4 % 4
      let sh := copyShape dim len
      let n := sh.1 * sh.2.1 * sh.2.2
      let at_ := fun (hi : Bool) (base : Word) (i : Nat) => base + BitVec.ofInt 64
        ((if dim = 0 then 0 else halfInt rows hi * (i / sh.1 % sh.2.1 : Nat)) +
          (if dim ≤ 1 then 0 else halfInt planes hi * (i / (sh.1 * sh.2.1) : Nat))) + BitVec.ofNat 64 (i % sh.1)
      let a := at_ false src
      let d := at_ true dst
      let home := fun (i : Nat) => s.engineAddr o (d i) true
      let from_ := fun (i : Nat) => s.engineAddr o (a i) false
      MayMove s o (dir == 0 || dir == 2) (dir == 1 || dir == 2) n a d →
      (s.copyAct o).2 = none ∧ MovedBytes s (s.copyAct o).1 o (dir == 0 || dir == 2) (dir == 1 || dir == 2) n a d ∧
      (Table.wf s.descs = true → ∀ i, i < n → isCxl (home i) = false →
        (dir = 1 → (s.copyAct o).1.desc (home i) = 0) ∧
        (dir = 2 → i % sh.1 + 64 ≤ sh.1 → (a i).toNat % 64 = 0 → sig57 (d i) % 64 = 0 →
          (∀ x j, x < 64 → i + x < j → j < n → sig57 (d j) ≠ sig57 (d i) + x) → (∀ j, j < n → home j / 64 ≠ from_ i / 64) →
          (s.copyAct o).1.desc (home i) = if isCxl (from_ i) then 0 else s.desc (from_ i)))) ∧
    (∀ scatter base packed index shape stride, o.work = .gather scatter base packed index shape stride →
      let l := bitsOf shape 0 32
      let n := bitsOf shape 32 16 * l
      let place := fun (i : Nat) => base + BitVec.ofNat 64
        (ofBytes ((List.range 4).map fun j => s.engineScratch o (index.toNat + 4 * (i / l) + j))) * stride + BitVec.ofNat 64 (i % l)
      let list := fun (i : Nat) => packed + BitVec.ofNat 64 i
      let a := if scatter then list else place
      let d := if scatter then place else list
      MayMove s o (!scatter) scatter n a d →
      (s.copyAct o).2 = none ∧ MovedBytes s (s.copyAct o).1 o (!scatter) scatter n a d) ∧
    ∀ f src stride shape blk, o.work = .planes f src stride shape → (f ≤ 4 ∨ f = 8) → s.block? o.block = some blk →
      Table.wf (Table.getD blk.scratch o.part []) = true →
      let b := planeWidth f
      let n := 512 / b
      let pbase := (planeShape shape).1
      let sbase := (planeShape shape).2.1
      let rows := (planeShape shape).2.2.1
      let kk := (planeShape shape).2.2.2
      let a := fun (r c : Nat) => src + BitVec.ofNat 64 r * stride + BitVec.ofNat 64 (64 * c)
      let home := fun (r c : Nat) => s.engineAddr o (a r c) false
      let s' := (s.copyAct o).1
      kk % n = 0 → (pbase + b * (rows * kk / 8) ≤ sbase ∨ sbase + rows * (kk / n) ≤ pbase) →
      (s.core o.core).lines = [] → s.flights = [] →
      (∀ r c, r < rows → c < kk / n → s.engineCause o (a r c) false [0, 1] = none ∧ s.badData (home r c) = false ∧
        s.badDesc (home r c) = false ∧ (s.desc (home r c)).toNat % 256 = if f = 8 then 0x20 else 0x10 + f) →
      (s.copyAct o).2 = none ∧ SameMemory s s' ∧
      (∀ r c, r < rows → c < kk / n →
        s'.engineScratch o (sbase + r * (kk / n) + c) = BitVec.ofNat 8 ((s.desc (home r c)).toNat / 256) ∧
        ∀ q e, q < b → e < n →
          (s'.engineScratch o (pbase + q * (rows * kk / 8) + r * (kk / 8) + (c * n + e) / 8)).getLsbD (e % 8) =
            (ofBytes ((List.range 64).map fun i => s.engineByte o (a r c + BitVec.ofNat 64 i))).testBit (b * e + q)) ∧
      ∀ i, (i < pbase ∨ pbase + b * (rows * kk / 8) ≤ i) → (i < sbase ∨ sbase + rows * (kk / n) ≤ i) →
        s'.engineScratch o i = s.engineScratch o i

/-- R246, R254, R256, R257, R268, R249, R251, R384, R391, R253, R255: Copies, plane loads, gathers and scatters start and
complete. -/
def Obligations.Copies : Prop := Claim.CopiesStart ∧ Claim.CopiesComplete ∧ Claim.BytesMoved

/-- R247, R248, R251, R253: the batches of a class. BCLOSE writes the open batch's number and opens the next, operations of it still
running or not, or stalls while 15 are closed and not done; the done number goes on over the batches with no operation left. BWAIT raises cause 13 for a batch that is not closed, waits for one that is not done, and raises the
cause of the lowest batch that failed, its first failure in the order of the program (log 36, DESIGN CHOICE); BSTAT reads a
number. The end of an operation keeps its fault for its batch and lets the done number go on, in order, as far as the closed
batches have no operation left. -/
def Claim.BatchControl : Prop :=
  (∀ (f : FmtE) (s : State) (k : Nat) (t : Team), Ready s k t (.bstat f) → ∃ s', exec (.bstat f) s = .next s' ∧
    Completed (.bstat f) k s s' (t.setS f.p (BitVec.ofNat 64
      (if f.w.getLsbD 0 then (t.batches (classOf f)).opened else (t.batches (classOf f)).done)))) ∧
  (∀ (f : FmtE) (s : State) (k : Nat) (t : Team), Ready s k t (.bwait f) →
    let n := (t.s f.q).toNat
    let b := t.batches (classOf f)
    (b.opened ≤ n → exec (.bwait f) s = .next (s.takeTrap k 13 {})) ∧
    (n < b.opened → b.done < n → exec (.bwait f) s = .next (s.parkTeam k (.batch (classOf f) n))) ∧
    (n < b.opened → n ≤ b.done →
      ((∀ x ∈ b.failed, n < x.batch) → ∃ s', exec (.bwait f) s = .next s' ∧ Completed (.bwait f) k s s' t) ∧
      ∀ x before after, b.failed = before ++ x :: after → x.batch ≤ n → (∀ y ∈ before, x.batch < y.batch) →
        (∀ y ∈ after, x.batch ≤ y.batch) →
        exec (.bwait f) s = .next ((s.putTeam k (t.setBatches (classOf f)
            { b with failed := b.failed.filter fun y => y.batch != x.batch })).takeTrap k x.cause
          { addr := x.addr, eng := true, cls := classOf f, issue := x.issue, batch := BitVec.ofNat 64 x.batch }))) ∧
  (∀ (f : FmtE) (s : State) (k : Nat) (t : Team), Ready s k t (.bclose f) →
    let b := t.batches (classOf f)
    (15 ≤ b.opened - 1 - b.done → exec (.bclose f) s = .next (s.parkTeam k (.close (classOf f) (b.done + 1)))) ∧
    (b.opened - 1 - b.done < 15 → b.done < b.opened → b.wrote = [] → Table.wf s.teams = true →
      (∀ j u, s.team? j = some u → u.uid = t.uid → j = k) →
      let left := fun n => ∃ e ∈ s.ops, e.2.uid = t.uid ∧ e.2.cls = classOf f ∧ e.2.batch = n
      ∃ s' d, exec (.bclose f) s = .next s' ∧ OthersStand k s s' ∧ SameMemory s s' ∧ Past (.bclose f) k s'
          ((t.setS f.p (BitVec.ofNat 64 b.opened)).setBatches (classOf f) { b with opened := b.opened + 1, done := d }) ∧
        b.done ≤ d ∧ d ≤ b.opened ∧ (∀ n, b.done < n → n ≤ d → ¬left n) ∧ (d < b.opened → left (d + 1)))) ∧
  ∀ (s : State) (id k : Nat) (o : Op) (t : Team) (fail : Option (Nat × Word)), Table.find? s.ops id = some o → o.cls < 4 →
    Table.wf s.teams = true → Table.wf s.ops = true → s.team? k = some t → t.uid = o.uid →
    (∀ j u, s.team? j = some u → u.uid = t.uid → j = k) → (t.batches o.cls).done < (t.batches o.cls).opened →
    let s' := s.endOp id fail
    let b := t.batches o.cls
    Table.find? s'.ops id = none ∧ (∀ j, j ≠ id → Table.find? s'.ops j = Table.find? s.ops j) ∧
    ∃ u, s'.team? k = some u ∧ (u.batches o.cls).opened = b.opened ∧
      (u.batches o.cls).failed = b.failed ++ (match fail with
        | some (c, a) => [{ batch := o.batch, cause := c, issue := o.issue, addr := a }]
        | none => []) ∧
      let left := fun n => ∃ e ∈ s'.ops, e.2.uid = t.uid ∧ e.2.cls = o.cls ∧ e.2.batch = n
      b.done ≤ (u.batches o.cls).done ∧ (u.batches o.cls).done < b.opened ∧
      (∀ n, b.done < n → n ≤ (u.batches o.cls).done → ¬left n) ∧
      ((u.batches o.cls).done + 1 < b.opened → left ((u.batches o.cls).done + 1))

/-- R33, R39, R63, R95, R247, R248, R251, R253: Batches complete in order; BCLOSE, BWAIT and BSTAT. -/
def Obligations.Batches : Prop := Claim.Completing ∧ Claim.BatchControl

/-- R258 to R264: the pipes of a group. A push by the producer claims the next slot and fills it from a register at once, or hands
it to the copy engine; a pop by the consumer takes the oldest filled slot, or reports the end of the stream; PEOS ends the stream
and PSTAT reads the pipe. Another team, a closed pipe or a lost end raises cause 99; a full or empty ring makes the team wait. A
scratchpad end beyond the allocation raises cause 52, with no address (log 32, DEDUCED). -/
def Obligations.Pipes : Prop :=
  ∀ (f : FmtE) (s : State) (k : Nat) (t : Team),
    let n := pipeOf f
    (∀ x ∈ ([Instr.push, Instr.pop, Instr.peos, Instr.pstat] : List (FmtE → Instr)), Ready s k t (x f) →
      s.pipe? t n = none → exec (x f) s = .next (s.takeTrap k 99 {})) ∧
    ∀ b p, s.block? t.block = some b → Table.find? b.pipes n = some p →
      (Ready s k t (.push f) →
        (p.producer ≠ k ∨ p.eos = true ∨ p.cret = true → exec (.push f) s = .next (s.takeTrap k 99 { pass := t.resume })) ∧
        (p.producer = k → p.eos = false → p.cret = false →
          (endOf f = 1 → s.scratchSize t < (t.s f.p).toNat + 256 → exec (.push f) s = .next (s.takeTrap k 52 {})) ∧
          (endOf f = 2 → ∀ row, t.passesLeft = [row] → t.poisonOf f.p.toNat row = none →
            (p.slots.length < 16 → exec (.push f) s = .next ((s.putPipe t.block n
              { p with pushed := p.pushed + 1
                       slots := Table.put p.slots p.pushed (some (sliceBytes t f.p.toNat row)) }).complete k t (.push f))) ∧
            (16 ≤ p.slots.length → ∃ s', exec (.push f) s = .next s' ∧
              (s'.team? k).map (fun u => (u.wait, u.pc, u.resume)) = some (.pipe n, t.pc, row) ∧ OthersStand k s s')) ∧
          (endOf f ≠ 2 → (endOf f = 1 → (t.s f.p).toNat + 256 ≤ s.scratchSize t) →
            (16 ≤ p.slots.length → exec (.push f) s = .next (s.parkTeam k (.pipe n))) ∧
            (p.slots.length < 16 → s.copyFull (coreOf k) = false →
              exec (.push f) s = .next (((s.begin k t 0 (.push n p.pushed (endOf f == 0) (t.s f.p))).putPipe t.block n
                { p with pushed := p.pushed + 1, slots := Table.put p.slots p.pushed none }).complete k t (.push f)))))) ∧
      (Ready s k t (.pop f) →
        (p.consumer ≠ k → exec (.pop f) s = .next (s.takeTrap k 99 {})) ∧
        (p.consumer = k →
          (endOf f = 1 → s.scratchSize t < (t.s f.p).toNat + 256 → exec (.pop f) s = .next (s.takeTrap k 52 {})) ∧
          (endOf f = 2 → ∀ row, t.passesLeft = [row] →
            (∀ bs, Table.find? p.slots p.popped = some (some bs) → p.popped ≠ p.pushed → Table.wf p.slots = true → s.SliceRoom k →
              ∃ s', exec (.pop f) s = .next s' ∧ OthersStand k s s' ∧ SameMemory s s' ∧
                Past (.pop f) k s' ((t.writeV f.p.toNat (t.active &&& rowsMask row (row + 1)) fun l =>
                  slotLane bs (l - 32 * row)).setS f.q (BitVec.ofNat 64 t.passes.length)) ∧
                s'.block? t.block = some { b with
                  pipes := Table.put b.pipes n { p with popped := p.popped + 1, slots := Table.del p.slots p.popped } }) ∧
            ((∀ bs, Table.find? p.slots p.popped ≠ some (some bs)) →
              (p.popped = p.pushed ∧ p.eos = true → ∃ s', exec (.pop f) s = .next s' ∧
                Past (.pop f) k s' (t.setS f.q (BitVec.ofNat 64 (t.passes.length - 1))) ∧ OnlyTeam Core.still k s s') ∧
              (p.popped ≠ p.pushed ∨ p.eos = false → ∃ s', exec (.pop f) s = .next s' ∧
                (s'.team? k).map (fun u => (u.wait, u.pc, u.resume)) = some (.pipe n, t.pc, row) ∧ OthersStand k s s'))) ∧
          (endOf f ≠ 2 → (endOf f = 1 → (t.s f.p).toNat + 256 ≤ s.scratchSize t) →
            (p.poppable = 0 → p.popped = p.pushed → p.eos = true →
              ∃ s', exec (.pop f) s = .next s' ∧ Completed (.pop f) k s s' (t.setS f.q 0)) ∧
            (p.poppable = 0 → p.popped ≠ p.pushed ∨ p.eos = false → exec (.pop f) s = .next (s.parkTeam k (.pipe n))) ∧
            (p.poppable ≠ 0 → s.copyFull (coreOf k) = false →
              exec (.pop f) s = .next ((((s.begin k t 0 (.pop n p.popped (endOf f == 0) (t.s f.p))).putPipe t.block n
                { p with popped := p.popped + 1 }).modTeam k fun u => u.setS f.q 1).complete k t (.pop f)))))) ∧
      (Ready s k t (.peos f) →
        (p.producer ≠ k → exec (.peos f) s = .next (s.takeTrap k 99 {})) ∧
        (p.producer = k → exec (.peos f) s = .next ((s.putPipe t.block n { p with eos := true }).complete k t (.peos f)))) ∧
      (Ready s k t (.pstat f) →
        (p.producer ≠ k → p.consumer ≠ k → exec (.pstat f) s = .next (s.takeTrap k 99 {})) ∧
        (p.producer = k ∨ p.consumer = k → p.slots.length ≤ 16 → ∃ s' w, exec (.pstat f) s = .next s' ∧ Completed (.pstat f) k s s' (t.setS f.p w) ∧
          w.getLsbD 16 = p.eos ∧ w.getLsbD 17 = p.cret ∧ w.getLsbD 18 = p.pret ∧ (w.extractLsb' 32 32).toNat = p.popped % 2 ^ 32 ∧
          (w.extractLsb' 0 5).toNat = p.poppable ∧ (w.extractLsb' 5 5).toNat = p.filling))

/-! ### The matrix array -/

/-- R272 to R274, R278, R284: MAPSET sets one operand map, or leaves it invalid and raises cause 54, 53 or 48; the leader's
WINSET sets a team's window of accumulator rows once every operation that the target issued before is complete; GANG names the
members. Teams are of one block where they stand in one and, in a group, have one role (R404). -/
def Claim.MatrixSetup : Prop :=
  (∀ (f : FmtE) (s : State) (k : Nat) (t : Team), Ready s k t (.mapset f) →
    let w := t.s f.p
    let m := (f.w.extractLsb' 0 3).toNat
    let b := if f.f.getLsbD 3 then 1 else 2 ^ (f.f.extractLsb' 0 3).toNat
    let role := if f.f.getLsbD 4 then 1 else 0
    let rows := bitsOf w 40 8 + 1
    let kk := 128 * bitsOf w 48 16
    let dropped := s.putTeam k { t with maps := Table.del t.maps m }
    let shape := kk ≠ 0 ∧ rows ≤ 128 ∧ (role = 1 → rows = 128)
    let fits := bitsOf w 0 20 + b * rows * kk / 8 ≤ s.scratchSize t ∧ bitsOf w 20 20 + rows * kk / (512 / b) ≤ s.scratchSize t
    (¬shape → exec (.mapset f) s = .next (dropped.takeTrap k 54 {})) ∧
    (shape → kk % (512 / b) ≠ 0 → exec (.mapset f) s = .next (dropped.takeTrap k 53 {})) ∧
    (shape → kk % (512 / b) = 0 → ¬fits → exec (.mapset f) s = .next (dropped.takeTrap k 48 {})) ∧
    (shape → kk % (512 / b) = 0 → fits → ∃ s', exec (.mapset f) s = .next s' ∧ Completed (.mapset f) k s s'
      { t with maps := Table.put t.maps m { role := role, pbase := bitsOf w 0 20, sbase := bitsOf w 20 20, rows := rows
                                            ksize := kk, width := b, binary := f.f.getLsbD 3 } })) ∧
  (∀ (f : FmtE) (s : State) (k : Nat) (t : Team) (b : Block), Ready s k t (.winset f) → s.block? t.block = some b →
    let target := 64 * coreOf k + bitsOf (t.s f.p) 0 6
    let base := bitsOf (t.s f.p) 16 10
    let rows := bitsOf (t.s f.p) 32 10
    let room := if t.role = .loader ∨ t.role = .storer then 0 else b.accRows
    let written := ((s.modTeam target fun x => { x with window := (base, rows) }).complete k t (.winset f))
    (t.phase = 1 → exec (.winset f) s = .next written) ∧
    (t.phase ≠ 1 → s.team? target = none → exec (.winset f) s = .next (s.takeTrap k 50 {})) ∧
    ∀ u, t.phase ≠ 1 → s.team? target = some u →
      (t.leader ≠ indexOf k ∨ t.mates u = false → exec (.winset f) s = .next (s.takeTrap k 50 {})) ∧
      (t.leader = indexOf k → t.mates u = true →
        (room < base + rows → exec (.winset f) s = .next (s.takeTrap k 49 {})) ∧
        (base + rows ≤ room → s.matrixOps u.uid = [] → exec (.winset f) s = .next written) ∧
        (base + rows ≤ room → s.matrixOps u.uid ≠ [] → ∃ s', exec (.winset f) s = .next s' ∧ OthersStand k s s' ∧
          (s'.team? k).map (fun x => (x.wait, x.pc, x.phase)) = some (.ops (s.matrixOps u.uid), t.pc, 1)))) ∧
  ∀ (f : FmtE) (s : State) (k : Nat) (t : Team), Ready s k t (.gang f) →
    let n := bitsOf (t.s f.p) 0 3
    let ms := (List.range n).map fun i => bitsOf (t.s f.p) (8 * i + 8) 6
    (n = 0 ∨ n = 7 → exec (.gang f) s = .next (s.takeTrap k 4 {})) ∧
    (n ≠ 0 → n ≠ 7 → (¬ms.Nodup ∨ indexOf k ∉ ms ∨ ∃ i ∈ ms, ∀ u, s.team? (64 * coreOf k + i) = some u → t.mates u = false) →
      exec (.gang f) s = .next (s.takeTrap k 50 {})) ∧
    ∀ us : List Team, n ≠ 0 → n ≠ 7 → ms.Nodup → indexOf k ∈ ms → us.length = n → (∀ u ∈ us, t.mates u = true) →
      (∀ i, i < n → s.team? (64 * coreOf k + ms.getD i 0) = us[i]?) →
      ∃ s', exec (.gang f) s = .next s' ∧ Completed (.gang f) k s s'
        { t with gang := some { members := ms.zip (us.map fun u => u.uid) } }

/-- R277, R279 to R281: ACCZ starts the clearing of the window's rows; ACCRD reads two columns of the accumulator store into each
active lane, and ACCWR writes them. A row outside the window raises cause 49, as does a block without rows, which the loader's
and the storer's are (R404), and a row still to be written makes the team wait. -/
def Claim.Accumulators : Prop :=
  ∀ (f : FmtE) (s : State) (k : Nat) (t : Team) (b : Block), s.block? t.block = some b →
    let r := (t.s f.q).toNat
    let room := if t.role = .loader ∨ t.role = .storer then 0 else b.accRows
    (Ready s k t (.accz f) →
      (room = 0 → exec (.accz f) s = .next (s.takeTrap k 49 {})) ∧
      (room ≠ 0 → s.matrixFull (coreOf k) = true → exec (.accz f) s = .next (s.parkTeam k .engine)) ∧
      (room ≠ 0 → s.matrixFull (coreOf k) = false → exec (.accz f) s = .next
        (((({ s with serial := s.serial + 1 }).begin k t 1 (.clearRows t.window.1 t.window.2 s.serial)).accept (coreOf k)
          s.serial false).complete k t (.accz f)))) ∧
    (∀ x ∈ ([Instr.accrd, Instr.accwr] : List (FmtE → Instr)), Ready s k t (x f) →
      (room = 0 ∨ accInside t r = false → exec (x f) s = .next (s.takeTrap k 49 {})) ∧
      (room ≠ 0 → accInside t r = true → t.poisonStop [f.p.toNat] = none → s.accWaits t r = true →
        exec (x f) s = .next (s.parkTeam k .engine))) ∧
    (Ready s k t (.accrd f) → room ≠ 0 → accInside t r = true → s.accWaits t r = false → s.SliceRoom k →
      ∃ s' u, exec (.accrd f) s = .next s' ∧ CompletedPasses (.accrd f) k s s' u ∧
        LoadedLanes t u f.p.toNat t.resume t.active fun l =>
          b.accAt (t.window.1 + r + l / 64) (64 * (l / 32 % 2) + 2 * (l % 32) + 1) ++
            b.accAt (t.window.1 + r + l / 64) (64 * (l / 32 % 2) + 2 * (l % 32))) ∧
    (Ready s k t (.accwr f) → room ≠ 0 → accInside t r = true → t.poisonStop [f.p.toNat] = none → s.accWaits t r = false →
      Table.wf b.acc = true →
      ∃ s' x, exec (.accwr f) s = .next s' ∧ Past (.accwr f) k s' t ∧ OthersStand k s s' ∧ SameMemory s s' ∧
        (∀ c, (s'.core c).still = (s.core c).still) ∧
        s'.block? t.block = some x ∧ x = { b with acc := x.acc } ∧
        (∀ l, l < t.width → t.active.getLsbD l = true →
          x.accAt (t.window.1 + r + l / 64) (64 * (l / 32 % 2) + 2 * (l % 32)) = (t.lane f.p.toNat l).extractLsb' 0 32 ∧
          x.accAt (t.window.1 + r + l / 64) (64 * (l / 32 % 2) + 2 * (l % 32) + 1) = (t.lane f.p.toNat l).extractLsb' 32 32) ∧
        ∀ row col, col < 128 → (∀ l, l < t.width → t.active.getLsbD l = true →
          ¬(row = t.window.1 + r + l / 64 ∧ col / 2 = 32 * (l / 32 % 2) + l % 32)) → x.accAt row col = b.accAt row col)

/-- R272, R273, R274, R278, R284, R277, R279, R280, R281: Operand maps, gangs, windows, and the accumulator store. -/
def Obligations.MatrixSetupAndAccumulators : Prop := Claim.MatrixSetup ∧ Claim.Accumulators

/-- R275, R276, R281, R282, R285 to R287: MMA and MMAZ of a team that is its gang alone hand one operation to the array and go on;
the members of a larger gang wait at a latch for the last of them, whose arrival hands over one operation with a part for each
member; a map of the wrong kind raises cause 54 and rows beyond the window cause 49. -/
def Claim.MatrixIssue : Prop :=
  ∀ x ∈ ([(Instr.mma, false), (Instr.mmaz, true)] : List ((FmtE → Instr) × Bool)),
    ∀ (f : FmtE) (s : State) (k : Nat) (t : Team), Ready s k t (x.1 f) →
      let ma := Table.find? t.maps (f.p.extractLsb' 0 3).toNat
      let mb := Table.find? t.maps (f.q.extractLsb' 0 3).toNat
      (t.phase = 1 → ∃ s', exec (x.1 f) s = .next s' ∧ Completed (x.1 f) k s s' t) ∧
      (t.phase ≠ 1 → (ma = none ∨ mb = none) → exec (x.1 f) s = .next (s.takeTrap k 54 {})) ∧
      ∀ a b, t.phase ≠ 1 → ma = some a → mb = some b →
        (a.role ≠ 0 ∨ b.role ≠ 1 ∨ a.ksize ≠ b.ksize → exec (x.1 f) s = .next (s.takeTrap k 54 {})) ∧
        (a.role = 0 → b.role = 1 → a.ksize = b.ksize →
          let row := t.window.1 + (t.s f.w).toNat
          let me : Arrival := { index := indexOf k, zero := x.2, a := a, row := row }
          let members := (t.gangList k).map Prod.fst
          (t.window.2 < (t.s f.w).toNat + a.rows → exec (x.1 f) s = .next (s.takeTrap k 49 {})) ∧
          ((t.s f.w).toNat + a.rows ≤ t.window.2 → (t.gangList k).length ≤ 1 →
            (s.matrixFull (coreOf k) = true → exec (x.1 f) s = .next (s.parkTeam k .engine)) ∧
            (s.matrixFull (coreOf k) = false → exec (x.1 f) s = .next (((({ s with serial := s.serial + 1 }).begin k t 1
              (.matrix x.2 a b row s.serial)).accept (coreOf k) s.serial true).complete k t (x.1 f)))) ∧
          ((t.s f.w).toNat + a.rows ≤ t.window.2 → 1 < (t.gangList k).length →
            let fails := fun (n : Nat) (l : Latch) (c : Nat) =>
              exec (x.1 f) s = .next ((s.failLatch (coreOf k) n c).takeTrap k c {}) ∧
              ((s.failLatch (coreOf k) n c).core (coreOf k)).latches = [] ∧
              ∀ z ∈ l.arrived, ∀ u, s.team? (64 * coreOf k + z.index) = some u →
                (s.failLatch (coreOf k) n c).team? (64 * coreOf k + z.index) = some { u with wait := .ready, raised := some (c, 0) }
            (∀ n l i, (s.core (coreOf k)).latches = [(n, l)] → i ∈ members → i ∈ l.members → (l.members ≠ members ∨ l.b ≠ b) →
              fails n l 50) ∧
            (∀ g ∈ t.gangList k, (s.team? (64 * coreOf k + g.1)).map (fun u => u.uid) ≠ some g.2 →
              ((s.core (coreOf k)).latches = [] → exec (x.1 f) s = .next (s.takeTrap k 51 {})) ∧
              ∀ n l, (s.core (coreOf k)).latches = [(n, l)] → l.members = members → l.b = b → fails n l 51)) ∧
          ((t.s f.w).toNat + a.rows ≤ t.window.2 → 1 < (t.gangList k).length →
            (∀ g ∈ t.gangList k, (s.team? (64 * coreOf k + g.1)).map (fun u => u.uid) = some g.2) →
            ((s.core (coreOf k)).latches = [] → ∃ s', exec (x.1 f) s = .next s' ∧
              (s'.team? k).map (fun u => (u.wait, u.pc)) = some (.latch 0, t.pc) ∧ OthersStand k s s' ∧
              (s'.core (coreOf k)).latches = [(0, { members := members, b := b, arrived := [me] })]) ∧
            ∀ n y, (s.core (coreOf k)).latches = [(n, { members := members, b := b, arrived := y })] →
              (y.length + 1 < members.length → ∃ s', exec (x.1 f) s = .next s' ∧
                (s'.team? k).map (fun u => (u.wait, u.pc)) = some (.latch n, t.pc) ∧ OthersStand k s s' ∧
                (s'.core (coreOf k)).latches = [(n, { members := members, b := b, arrived := y ++ [me] })]) ∧
              (y.length + 1 = members.length → s.matrixFull (coreOf k) = true →
                exec (x.1 f) s = .next (s.parkTeam k .engine)) ∧
              (y.length + 1 = members.length → s.matrixFull (coreOf k) = false →
                ((y ++ [me]).map fun z => z.index).Nodup → members.Nodup → (∀ z ∈ y ++ [me], z.index ∈ members ∧ z.index < 64) →
                ∃ s', exec (x.1 f) s = .next s' ∧ Past (x.1 f) k s' t ∧ SameMemory s s' ∧
                  (s'.core (coreOf k)).latches = [] ∧
                  (s'.core (coreOf k)).matrixQueue = (s.core (coreOf k)).matrixQueue ++ [s.serial] ∧
                  (∀ z ∈ y, (s'.team? (64 * coreOf k + z.index)).map (fun u => (u.wait, u.phase)) = some (.ready, 1)) ∧
                  ∀ z ∈ y ++ [me], ∀ u, s.team? (64 * coreOf k + z.index) = some u → ∃ id,
                    (Table.find? s'.ops id).map (fun o => (o.key, o.uid, o.cls, o.batch, o.work)) =
                      some (64 * coreOf k + z.index, u.uid, 1, (u.batches 1).opened, .matrix z.zero z.a b z.row s.serial))))

/-- R285: when a team that a latch waits for leaves its core, every member that has arrived raises cause 51 at its MMA, and the
latch is free. -/
def Claim.GangsLost : Prop :=
  ∀ (s : State) (core index n : Nat) (l : Latch), (s.core core).latches = [(n, l)] → index ∈ l.members →
    ((∀ z ∈ l.arrived, z.index ≠ index) →
      ((s.gangLost core index).core core).latches = [] ∧
      ∀ z ∈ l.arrived, ∀ u, s.team? (64 * core + z.index) = some u →
        (s.gangLost core index).team? (64 * core + z.index) = some { u with wait := .ready, raised := some (51, 0) }) ∧
    ((∃ z ∈ l.arrived, z.index = index) → s.gangLost core index = s)

/-- R275, R276, R279, R282, R286, R287: the array takes accepted operations in order; when one ends, performed whole then (log 24,
DEDUCED), every output holds the sum of its K-blocks, added one by one, and every member's part has ended. -/
def Claim.MatrixArray : Prop :=
  (∀ (s : State) (core n : Nat), s.detail = .place core n → s.away (s.part (s.partOf core)).live = false →
    (∀ m rest, (s.core core).matrixRun = none → (s.core core).matrixQueue = m :: rest →
      exec .matrixOpStart s = .next ((s.putCore core { s.core core with matrixRun := some m, matrixQueue := rest }).wake
        fun k t => isCoreKey k && coreOf k == core && t.wait == .engine)) ∧
    ((s.core core).matrixRun ≠ none ∨ (s.core core).matrixQueue = [] → exec .matrixOpStart s = .next s) ∧
    ∀ m, (s.core core).matrixRun = some m →
      let parts := s.ops.filter fun e => e.2.core == core && e.2.cls == 1 && e.2.work.number == some m
      (∀ id o, parts = [(id, o)] → exec .matrixOpComplete s = .next
        (((s.putCore core { s.core core with matrixRun := none }).matrixAct o 1048576).endOp id none)) ∧
      ∀ blk bn part, s.block? bn = some blk → Table.wf blk.acc = true → Table.wf s.ops = true →
        (∀ e ∈ parts, e.2.block = bn ∧ e.2.part = part ∧ ∃ zero a b row, e.2.work = .matrix zero a b row m ∧
          a.ksize / Nat.min (perLine a.width) (perLine b.width) ≤ 1048576) →
        parts.Pairwise (fun d e => d.2.work.rows.1 + d.2.work.rows.2 ≤ e.2.work.rows.1 ∨
          e.2.work.rows.1 + e.2.work.rows.2 ≤ d.2.work.rows.1) →
        ∃ s' y, exec .matrixOpComplete s = .next s' ∧ (s'.core core).matrixRun = none ∧ s'.block? bn = some y ∧
          (∀ e ∈ parts, Table.find? s'.ops e.1 = none) ∧
          (∀ e ∈ parts, ∀ zero a b row, e.2.work = .matrix zero a b row m → ∀ i j, i < a.rows → j < 128 →
            y.accAt (row + i) j = BitVec.ofNat 32 (outputAfter (fun q => Table.getD (Table.getD blk.scratch part []) q 0)
              zero a b i j a.ksize (blk.accAt (row + i) j).toNat).1) ∧
          ∀ i j, j < 128 → (∀ e ∈ parts, i < e.2.work.rows.1 ∨ e.2.work.rows.1 + e.2.work.rows.2 ≤ i) →
            y.accAt i j = blk.accAt i j) ∧
  ∀ (s : State) (o : Op) (blk : Block) (zero : Bool) (a b : OperandMap) (row m n : Nat), s.block? o.block = some blk →
    Table.wf blk.acc = true →
    (o.work = .matrix zero a b row m → ∃ x, (s.matrixAct o n).block? o.block = some x ∧
      (∀ i j, i < a.rows → j < 128 → x.accAt (row + i) j = BitVec.ofNat 32 (outputAfter
        (fun q => Table.getD (Table.getD blk.scratch o.part []) q 0) zero a b i j n (blk.accAt (row + i) j).toNat).1) ∧
      ∀ i j, j < 128 → (i < row ∨ row + a.rows ≤ i) → x.accAt i j = blk.accAt i j) ∧
    (o.work = .clearRows row n m → ∃ x, (s.matrixAct o 0).block? o.block = some x ∧
      ∀ i j, j < 128 → x.accAt i j = if row ≤ i ∧ i < row + n then 0 else blk.accAt i j)

/-- R275, R276, R281, R282, R285, R286, R287, R279: MMA and MMAZ are queued, started and completed. -/
def Obligations.MatrixOperations : Prop := Claim.MatrixIssue ∧ Claim.GangsLost ∧ Claim.MatrixArray

/-! ### The content-addressed store -/

/-- R292 to R294, R297, R303 to R307, R431: CLOOK and CNODE answer the name of a line, found by its content or allocated; CREAD
answers the content and the descriptor of a name and CWALK the name of a leaf. A name that is found has exactly the content looked
for; none is allocated while some name has it; where the fingerprint has no ordinal left the cause is 64, and where the arena has
no line left 72; an arena that cannot be reached kills the context. The zero line and the zero name need no entry;
a name that does not resolve raises cause 65. An operation is performed as it issues and its value arrives later (log 45,
DEDUCED); a name that comes to be here counts the holds of the nodes that a replica fetched (log 50, DEDUCED). -/
def Obligations.NamesAndContents : Prop :=
  (∀ x ∈ ([Instr.clook, Instr.cnode, Instr.cread, Instr.cwalk] : List (FmtE → Instr)),
    ∀ (f : FmtE) (s : State) (k : Nat) (t : Team), Ready s k t (x f) → t.poisonOf f.q.toNat 0 = none →
      (s.storeHeld t = true → exec (x f) s = .next (s.parkTeam k .engine)) ∧
      (s.storeHeld t = false → (s.ctx t.ctx).key = none → exec (x f) s = .next (s.takeTrap k 22 {}))) ∧
  (∀ (f : FmtE) (s : State) (k : Nat) (t : Team), Ready s k t (.clook f) → t.poisonOf f.q.toNat 0 = none →
    s.storeHeld t = false → (s.ctx t.ctx).key ≠ none →
    let data := nodeLine ((List.range 8).map fun i => t.lane f.q.toNat i)
    let d := (t.s f.w).extractLsb' 0 16
    (d.extractLsb' 0 8 ≠ 0 → tensorOf d = none → exec (.clook f) s = .next (s.takeTrap k 20 {})) ∧
    (d.extractLsb' 0 8 = 0 → data = 0 →
      exec (.clook f) s = .next ((s.answer k t [.scalar f.p zeroName]).complete k t (.clook f))) ∧
    ((d.extractLsb' 0 8 = 0 ∧ data ≠ 0 ∨ tensorOf d ≠ none) → ∀ n s1,
      (s.lookup t.ctx data (leafDesc d) false = .allocated n s1 ∨ ∃ r, s.lookup t.ctx data (leafDesc d) false = .found n r s1) →
      exec (.clook f) s = .next ((s1.answer k t [.scalar f.p n]).complete k t (.clook f))) ∧
    ((d.extractLsb' 0 8 = 0 ∧ data ≠ 0 ∨ tensorOf d ≠ none) →
      (∀ c a, s.lookup t.ctx data (leafDesc d) false = .stop (.cause c a) →
        exec (.clook f) s = .next (s.takeTrap k c { addr := a })) ∧
      ∀ x, s.lookup t.ctx data (leafDesc d) false = .stop (.lost x) → exec (.clook f) s = .next (s.arenaLost k t x))) ∧
  (∀ (f : FmtE) (s : State) (k : Nat) (t : Team), Ready s k t (.cnode f) → s.storeHeld t = false → (s.ctx t.ctx).key ≠ none →
    let es := (List.range 8).map fun i => t.s (f.q + BitVec.ofNat 5 i)
    ((∃ n ∈ es, (s.ctx t.ctx).resolves n = false) → exec (.cnode f) s = .next (s.takeTrap k 65 {})) ∧
    ((∀ n ∈ es, n = zeroName) → exec (.cnode f) s = .next ((s.answer k t [.scalar f.p zeroName]).complete k t (.cnode f))) ∧
    ((∀ n ∈ es, (s.ctx t.ctx).resolves n = true) → (∃ n ∈ es, n ≠ zeroName) → ∀ n s1,
      (s.lookup t.ctx (nodeLine es) nodeDesc true = .allocated n s1 →
        exec (.cnode f) s = .next (((s1.holdAll t.ctx es).answer k t [.scalar f.p n]).complete k t (.cnode f))) ∧
      (s.lookup t.ctx (nodeLine es) nodeDesc true = .found n false s1 →
        exec (.cnode f) s = .next ((s1.answer k t [.scalar f.p n]).complete k t (.cnode f))) ∧
      (s.lookup t.ctx (nodeLine es) nodeDesc true = .found n true s1 →
        exec (.cnode f) s = .next (((s1.holdAll t.ctx es).answer k t [.scalar f.p n]).complete k t (.cnode f)))) ∧
    ((∀ n ∈ es, (s.ctx t.ctx).resolves n = true) → (∃ n ∈ es, n ≠ zeroName) →
      (∀ c a, s.lookup t.ctx (nodeLine es) nodeDesc true = .stop (.cause c a) →
        exec (.cnode f) s = .next (s.takeTrap k c { addr := a })) ∧
      ∀ x, s.lookup t.ctx (nodeLine es) nodeDesc true = .stop (.lost x) → exec (.cnode f) s = .next (s.arenaLost k t x)) ∧
    ∀ (c : Nat) (n : Word), n ≠ zeroName →
      ((s.holdAll c es).ctx c).entry n = ((s.ctx c).entry n).map fun e => { e with count := max e.count (min 0xFFFFFFFF (e.count + es.count n)) }) ∧
  (∀ (f : FmtE) (s : State) (k : Nat) (t : Team), Ready s k t (.cread f) → s.storeHeld t = false → (s.ctx t.ctx).key ≠ none →
    t.policy ≠ 0 →
    let room := s.resultRoom (coreOf k) 1 = true
    (t.s f.q ≠ zeroName → (s.ctx t.ctx).resolves (t.s f.q) = false → exec (.cread f) s = .next (s.takeTrap k 65 {})) ∧
    (t.s f.q = zeroName → ¬room → exec (.cread f) s = .next (s.takeTrap k 42 {})) ∧
    (t.s f.q = zeroName → room → exec (.cread f) s = .next ((s.answer k t
      [.slice f.p.toNat 0 0xFF (List.replicate 8 0) 0 0, .scalar f.w 0]).complete k t (.cread f))) ∧
    ∀ e pa, t.s f.q ≠ zeroName → (s.ctx t.ctx).entry (t.s f.q) = some e → e.quiet = false →
      s.arenaAddr t.ctx (t.s f.q) e.loc = .ok pa →
      (s.badDesc pa = true → exec (.cread f) s = .next (s.takeTrap k 21 { addr := BitVec.ofNat 64 e.loc })) ∧
      (s.badDesc pa = false → ¬room → exec (.cread f) s = .next (s.takeTrap k 42 {})) ∧
      (s.badDesc pa = false → room → exec (.cread f) s = .next ((s.answer k t
        [.slice f.p.toNat 0 0xFF ((List.range 8).map fun i => (s.lineData pa).extractLsb' (64 * i) 64)
          (if s.badData pa then 21 else 0) (BitVec.ofNat 64 e.loc),
         .scalar f.w ((s.desc pa).setWidth 64)]).complete k t (.cread f)))) ∧
  (∀ (f : FmtE) (s : State) (k : Nat) (t : Team), Ready s k t (.cwalk f) → s.storeHeld t = false → (s.ctx t.ctx).key ≠ none →
    let d := (f.f.extractLsb' 0 4).toNat
    (8 ^ d ≤ (t.s f.w).toNat → exec (.cwalk f) s = .next (s.takeTrap k 65 {})) ∧
    ((t.s f.w).toNat < 8 ^ d → t.s f.q = zeroName → exec (.cwalk f) s = .next ((s.answer k t [.scalar f.p
      (if f.f.getLsbD 4 then (match (s.ctx t.ctx).entry zeroName with | some e => BitVec.ofNat 64 e.loc | none => 0)
       else zeroName)]).complete k t (.cwalk f))) ∧
    (∀ c a, s.leafName t.ctx d (t.s f.q) (t.s f.w) = .error (.cause c a) →
      exec (.cwalk f) s = .next (s.takeTrap k c { addr := a })) ∧
    (∀ x, s.leafName t.ctx d (t.s f.q) (t.s f.w) = .error (.lost x) → exec (.cwalk f) s = .next (s.arenaLost k t x)) ∧
    ∀ n, s.leafName t.ctx d (t.s f.q) (t.s f.w) = .ok n → f.f.getLsbD 4 = false →
      exec (.cwalk f) s = .next ((s.answer k t [.scalar f.p n]).complete k t (.cwalk f))) ∧
  (∀ (s : State) (k : Nat) (t : Team) (x : Nat × Word),
    (x.1 ≠ 23 → s.arenaLost k t x = s.kill t.ctx 120 x.1 t.pc (sourceOf k t.part)) ∧
    (x.1 = 23 → s.arenaLost k t x = (s.post { kind := 2, cause := 23, ctx := t.ctx, addr := x.2, data := 0, source := sourceOf k t.part }).kill
      t.ctx 120 23 t.pc (sourceOf k t.part))) ∧
  ∀ (s s1 : State) (c : Nat) (data : BitVec 512) (d : BitVec 16) (node : Bool) (n : Word),
    let fp := fingerprint (s.ctx c).skey d data
    let mine := (s.ctx c).dir.filter fun e => bitsOf e.name 8 54 == fp
    let holds := fun (e : DirEntry) (pa : Nat) => s.arenaAddr c e.name e.loc = .ok pa ∧ s.lineData pa = data ∧ s.desc pa = d
    (∀ r, s.lookup c data d node = .found n r s1 → SameMemory s s1 ∧
      (∃ e ∈ mine, e.name = n ∧ e.quiet = r ∧ ∃ pa, holds e pa) ∧
      (s1.ctx c).dir = (s.ctx c).dir.map fun e => if e.name = n then
        (if e.quiet then { e with quiet := false, count := 1 + s.heldBy c n, bare := false } else e.up) else e) ∧
    (s.lookup c data d node = .allocated n s1 → (∀ e ∈ mine, ∀ pa, ¬holds e pa) ∧
      (∀ e ∈ mine, bitsOf e.name 0 8 ≠ bitsOf n 0 8) ∧ (∀ o, o < bitsOf n 0 8 → ∃ e ∈ mine, bitsOf e.name 0 8 = o) ∧
      ((s.ctx c).entry n = none → Memory.wf s.mem = true → Table.wf s.descs = true →
        ∃ e, (s1.ctx c).entry n = some e ∧ e.count = 1 + s.heldBy c n ∧ e.quiet = false ∧ e.node = node ∧ bitsOf n 8 54 = fp ∧
          ∀ pa, s.arenaAddr c n e.loc = .ok pa → isCxl pa = false → s1.lineData pa = data ∧ s1.desc pa = d)) ∧
    ((∀ e ∈ mine, ∃ pa, s.arenaAddr c e.name e.loc = .ok pa ∧ ¬holds e pa) →
      ((∀ o, o < 256 → ∃ e ∈ mine, bitsOf e.name 0 8 = o) → s.lookup c data d node = .stop (.cause 64 0)) ∧
      ∀ o, o < 256 → (∀ e ∈ mine, bitsOf e.name 0 8 ≠ o) → (s.ctx c).arenaLines ≤ (s.ctx c).dir.length →
        s.lookup c data d node = .stop (.cause 72 0))

/-- R298, R299, R301, R308 to R313, R432: CREF and CREL count, CNEW and CSWAP write root records, CROOT reads one, and COUT hands a
copy to the engine; each operation that returns nothing leaves its failure, if any, to its batch. A name whose count reaches zero becomes QUIET, and a node
that does releases its entries; a record is written only once earlier values of the team have returned. They are performed as they
issue (log 45, DEDUCED). -/
def Obligations.RootsAndCounts : Prop :=
  (∀ x ∈ ([Instr.cref, Instr.crel, Instr.cnew, Instr.croot, Instr.cswap, Instr.cout] : List (FmtE → Instr)),
    ∀ (f : FmtE) (s : State) (k : Nat) (t : Team), Ready s k t (x f) → s.storeHeld t = true →
      exec (x f) s = .next (s.parkTeam k .engine)) ∧
  (∀ (f : FmtE) (s : State) (k : Nat) (t : Team), Ready s k t (.cref f) → s.storeHeld t = false →
    ((s.ctx t.ctx).key = none → exec (.cref f) s = .next ((s.settled k t (some (22, 0))).complete k t (.cref f))) ∧
    ((s.ctx t.ctx).key ≠ none → (s.ctx t.ctx).resolves (t.s f.p) = false →
      exec (.cref f) s = .next ((s.settled k t (some (65, 0))).complete k t (.cref f))) ∧
    ((s.ctx t.ctx).key ≠ none → t.s f.p = zeroName → exec (.cref f) s = .next ((s.settled k t none).complete k t (.cref f))) ∧
    ∀ e, (s.ctx t.ctx).key ≠ none → t.s f.p ≠ zeroName → (s.ctx t.ctx).entry (t.s f.p) = some e → e.quiet = false →
      ∃ s', exec (.cref f) s = .next s' ∧ Past (.cref f) k s' t ∧ OthersStand k s s' ∧ SameMemory s s' ∧
        (s'.ctx t.ctx).entry (t.s f.p) = some { e with count := if e.count < 0xFFFFFFFF then e.count + 1 else e.count } ∧
        (∀ n, n ≠ t.s f.p → (s'.ctx t.ctx).entry n = (s.ctx t.ctx).entry n) ∧
        (Table.find? s'.ops s.serial).map (fun o => (o.cls, o.batch, o.work)) = some (3, t.batchQ.opened, .settled none)) ∧
  (∀ (f : FmtE) (s : State) (k : Nat) (t : Team), Ready s k t (.crel f) → s.storeHeld t = false →
    ((s.ctx t.ctx).key = none → exec (.crel f) s = .next ((s.settled k t (some (22, 0))).complete k t (.crel f))) ∧
    ((s.ctx t.ctx).key ≠ none → t.s f.p = zeroName → exec (.crel f) s = .next ((s.settled k t none).complete k t (.crel f))) ∧
    ((s.ctx t.ctx).key ≠ none → t.s f.p ≠ zeroName → (s.ctx t.ctx).entry (t.s f.p) = none →
      exec (.crel f) s = .next ((s.settled k t (some (65, 0))).complete k t (.crel f))) ∧
    ∀ e, (s.ctx t.ctx).key ≠ none → t.s f.p ≠ zeroName → (s.ctx t.ctx).entry (t.s f.p) = some e →
      (e.quiet = true → exec (.crel f) s = .next ((s.settled k t (some (66, 0))).complete k t (.crel f))) ∧
      (∀ es, Releases s t.ctx (s.ctx t.ctx).entry (t.s f.p) es →
        ∃ s', exec (.crel f) s = .next s' ∧ Past (.crel f) k s' t ∧ OthersStand k s s' ∧ SameMemory s s' ∧
          (∀ n, (s'.ctx t.ctx).entry n = releasedEntry (s.ctx t.ctx).entry (t.s f.p) es n) ∧
          (Table.find? s'.ops s.serial).map (fun o => (o.cls, o.batch, o.work)) = some (3, t.batchQ.opened, .settled none)) ∧
      (e.quiet = false → e.node = true → e.count ≤ 1 →
        let freed := (s.modEntry t.ctx (t.s f.p) fun y => { y with count := 0, quiet := true }).forgetName t.ctx (t.s f.p)
        (s.nodeOf t.ctx e = .ok none →
          exec (.crel f) s = .next (((freed.countNode t.ctx e).settled k t none).complete k t (.crel f))) ∧
        ∀ x, s.nodeOf t.ctx e = .error (.lost x) → exec (.crel f) s = .next (freed.arenaLost k t x))) ∧
  (∀ (f : FmtE) (s : State) (k : Nat) (t : Team) (p : Page), Ready s k t (.cnew f) → s.storeHeld t = false →
    ((t.s f.q).toNat % 16 ≠ 0 → exec (.cnew f) s = .next (s.takeTrap k 18 { addr := t.s f.q })) ∧
    ((t.s f.q).toNat % 16 = 0 → (s.ctx t.ctx).key ≠ none → s.translate (dieOf k) t.ctx (t.s f.q) { wr := true } = .page p →
      (∀ id, s.valueDue t.uid = some id → exec (.cnew f) s =
        .next ((s.begin k t 3 (.newRoot (t.s f.q) (t.s f.w) (f.f.extractLsb' 0 4).toNat)).complete k t (.cnew f))) ∧
      (s.valueDue t.uid = none →
      p.cls = 0 → (s.ctx t.ctx).fits (t.s f.w) (f.f.extractLsb' 0 4).toNat = true → (s.core (coreOf k)).lines = [] →
      s.flights = [] → Memory.wf s.mem = true → p.pa % 16 = 0 → (∀ j u, s.team? j = some u → u.uid = t.uid → j = k) →
      ∃ s' w, exec (.cnew f) s = .next s' ∧ Past (.cnew f) k s' { t with batchQ := { t.batchQ with wrote := w } } ∧ OthersStand k s s' ∧ SameOutside p.pa 16 s s' ∧
        s'.bytes p.pa 8 = toBytes 8 (t.s f.w).toNat ∧ s'.bytes (p.pa + 8) 8 = toBytes 8 (f.f.extractLsb' 0 4).toNat ∧
        (∀ n, (s'.ctx t.ctx).entry n = if n = t.s f.w then ((s.ctx t.ctx).entry n).map DirEntry.up else (s.ctx t.ctx).entry n) ∧
        (Table.find? s'.ops s.serial).map (fun o => (o.cls, o.work)) = some (3, .settled none)))) ∧
  (∀ (f : FmtE) (s : State) (k : Nat) (t : Team) (p : Page), Ready s k t (.croot f) → s.storeHeld t = false →
    ((t.s f.q).toNat % 16 ≠ 0 → exec (.croot f) s = .next (s.takeTrap k 18 { pass := 0, addr := t.s f.q })) ∧
    ((t.s f.q).toNat % 16 = 0 → (s.ctx t.ctx).key ≠ none → s.translate (dieOf k) t.ctx (t.s f.q) { rd := true } = .page p →
      p.cls = 0 → s.badData p.pa = false → (s.core (coreOf k)).lines = [] → s.flights = [] →
      (bitsOf (s.dword (p.pa + 8)) 4 60 ≠ 0 → exec (.croot f) s = .next (s.takeTrap k 65 {})) ∧
      (bitsOf (s.dword (p.pa + 8)) 4 60 = 0 → f.f.getLsbD 0 = false ∨ s.dword p.pa = zeroName →
        ∃ s', exec (.croot f) s = .next s' ∧ Past (.croot f) k s' t ∧ OthersStand k s s' ∧ SameMemory s s' ∧ s'.ctxs = s.ctxs ∧
          Table.find? s'.pendings s.serial = some
            { core := coreOf k, team := t.uid, kind := 3, targets := [.scalar f.p (s.dword p.pa)] }) ∧
      ∀ e, bitsOf (s.dword (p.pa + 8)) 4 60 = 0 → f.f.getLsbD 0 = true → s.dword p.pa ≠ zeroName →
        (s.ctx t.ctx).entry (s.dword p.pa) = some e → e.quiet = false →
        ∃ s', exec (.croot f) s = .next s' ∧ Past (.croot f) k s' t ∧ OthersStand k s s' ∧ SameMemory s s' ∧
          (∀ n, (s'.ctx t.ctx).entry n = if n = s.dword p.pa then some e.up else (s.ctx t.ctx).entry n) ∧
          Table.find? s'.pendings s.serial = some
            { core := coreOf k, team := t.uid, kind := 3, targets := [.scalar f.p (s.dword p.pa)] })) ∧
  (∀ (f : FmtE) (s : State) (k : Nat) (t : Team) (p : Page), Ready s k t (.cswap f) → s.storeHeld t = false →
    ((t.s f.q).toNat % 16 ≠ 0 → exec (.cswap f) s = .next (s.takeTrap k 18 { pass := 0, addr := t.s f.q })) ∧
    ((t.s f.q).toNat % 16 = 0 → (s.ctx t.ctx).key ≠ none → s.translate (dieOf k) t.ctx (t.s f.q) { wr := true } = .page p →
      p.cls = 0 →
      (∀ id, s.valueDue t.uid = some id → exec (.cswap f) s = .next (s.parkTeam k (.value id))) ∧
      (s.valueDue t.uid = none →
      s.badData p.pa = false → (s.core (coreOf k)).lines = [] → s.flights = [] → Memory.wf s.mem = true →
      bitsOf (s.dword (p.pa + 8)) 4 60 = 0 → (s.ctx t.ctx).fits (t.s f.w) (bitsOf (s.dword (p.pa + 8)) 0 4) = true →
      (s.dword p.pa ≠ t.s f.p → ∃ s' id, exec (.cswap f) s = .next s' ∧ Past (.cswap f) k s' t ∧ OthersStand k s s' ∧
        SameMemory s s' ∧ s'.ctxs = s.ctxs ∧ Table.find? s'.pendings id = some
          { core := coreOf k, team := t.uid, kind := 3, targets := [.scalar f.p (s.dword p.pa)] }) ∧
      (∀ es,
        let held := fun (n : Word) => if n = t.s f.w then ((s.ctx t.ctx).entry n).map DirEntry.up else (s.ctx t.ctx).entry n
        s.dword p.pa = t.s f.p → Releases ((s.tlbFill (dieOf k) t.ctx (t.s f.q)).homeWriteRun p.pa (toBytes 8 (t.s f.w).toNat) (some 0))
            t.ctx held (s.dword p.pa) es →
        ∃ s' id, exec (.cswap f) s = .next s' ∧ Past (.cswap f) k s' t ∧ OthersStand k s s' ∧
          s'.bytes p.pa 8 = toBytes 8 (t.s f.w).toNat ∧ SameOutside p.pa 8 s s' ∧
          (∀ n, (s'.ctx t.ctx).entry n = releasedEntry held (s.dword p.pa) es n) ∧ Table.find? s'.pendings id = some
            { core := coreOf k, team := t.uid, kind := 3, targets := [.scalar f.p (s.dword p.pa)] } ∧
          ∃ j, (Table.find? s'.ops j).map (fun o => (o.cls, o.batch, o.work)) = some (3, t.batchQ.opened, .settled none)) ∧
      (s.dword p.pa = t.s f.p → (s.dword p.pa = zeroName ∨
          ((s.ctx t.ctx).entry (s.dword p.pa)).map (fun e => e.node) = some false) →
        ∃ s' id, exec (.cswap f) s = .next s' ∧ Past (.cswap f) k s' t ∧ OthersStand k s s' ∧
          s'.bytes p.pa 8 = toBytes 8 (t.s f.w).toNat ∧ SameOutside p.pa 8 s s' ∧ Table.find? s'.pendings id = some
            { core := coreOf k, team := t.uid, kind := 3, targets := [.scalar f.p (s.dword p.pa)] })))) ∧
  ∀ (f : FmtE) (s : State) (k : Nat) (t : Team), Ready s k t (.cout f) → s.storeHeld t = false →
    let g := fun i => t.s (f.p + BitVec.ofNat 5 i)
    ((g 1).toNat % 64 ≠ 0 → exec (.cout f) s = .next (s.takeTrap k 18 { addr := g 1 })) ∧
    ((g 1).toNat % 64 = 0 →
      exec (.cout f) s = .next ((s.begin k t 3 (.copyOut (g 0) (g 1) (g 2) (g 3))).complete k t (.cout f)))

/-! ### Versions, progress -/

/-- R318 to R325: LDV resolves its page at its record, the newest entry or with .eq the one of its step, and returns the lines of
that version with its step; it waits for a version that is not there yet, and raises cause 73, with no address (log 32, DEDUCED),
where .eq finds none, which is not held to what the team has published (log 54, DEDUCED). At a replica it first asks the home for
the record, and for the lines that are not here, and keeps the version that it resolved to meanwhile. PUBL adds a version once the
team's earlier pins on the page are performed, and where eight are kept evicts the oldest that is not pinned, whose root it
releases; VSTEP reads the newest step, and VPIN and VUNPIN count pins. Operations at a record here are performed as they issue
(log 45, DEDUCED). -/
def Obligations.VersionedPages : Prop :=
  (∀ (f : FmtE) (s : State) (k : Nat) (t : Team), Ready s k t (.ldv f) →
    let a := t.s f.q
    let o := a.toNat % 65536
    let m := (t.s f.w).toNat % 2 ^ 32
    let lines := (List.range (8 * t.width / 64)).map fun j => o / 64 + j
    let absent := fun (e : VersionEntry) => (lines.flatMap fun j => s.absent t.ctx j 4 e.root).eraseDups
    -- the load returns the lines of an entry of a record, every one of which is here, with its step
    let returns := fun (r : VersionRecord) (e : VersionEntry) => ∀ ls, (r.home = true ∨ absent e = []) →
      s.versionLines t.ctx e.root lines = .ok ls →
      (s.resultRoom (coreOf k) t.rows = false → exec (.ldv f) s = .next ((s.loadEnds k t).takeTrap k 42 {})) ∧
      (s.resultRoom (coreOf k) t.rows = true →
        ∃ s', exec (.ldv f) s = .next s' ∧ Past (.ldv f) k s' { t with limit := 0, resolved := none } ∧ OthersStand k s s' ∧
          SameMemory s s' ∧ (t.resolved = none → ∀ c, (s'.core c).still = (s.core c).still) ∧
          Table.find? s'.pendings s.serial = some { core := coreOf k, team := t.uid, kind := 3, targets :=
            ((List.range t.rows).map fun row => Target.slice f.p.toNat row (BitVec.allOnes 32)
              ((List.range 32).map fun i => (ls.getD ((o + 8 * (32 * row + i)) / 64 - o / 64) (0, false)).1.extractLsb'
                (64 * ((o + 8 * (32 * row + i)) % 64 / 8)) 64)
              (if (List.range 32).any fun i => (ls.getD ((o + 8 * (32 * row + i)) / 64 - o / 64) (0, false)).2 then 21 else 0) a) ++
            [.scalar f.w (BitVec.ofNat 64 e.step)] })
    (o % 256 ≠ 0 ∨ 65536 < o + 8 * t.width → exec (.ldv f) s = .next (s.takeTrap k 18 { addr := a })) ∧
    (∀ key pkg page r, o % 256 = 0 → o + 8 * t.width ≤ 65536 → t.policy ≠ 0 → t.resolved = none →
      s.versPage k t a = .ok (key, pkg, page) → s.versionBusy t.uid key = false → s.version? t.ctx key = some r →
      r.fetching = false →
      (f.f.getLsbD 0 = true → m ≤ r.newest → (∀ e ∈ r.entries, e.step ≠ m) →
        exec (.ldv f) s = .next ((s.loadEnds k t).takeTrap k 73 {})) ∧
      ((if f.f.getLsbD 0 then r.newest < m else ∀ e ∈ r.entries, e.step < m) → ∃ s' n, exec (.ldv f) s = .next s' ∧
        (s'.team? k).map (fun u => (u.wait, u.pc, u.phase)) = some (.version key n, t.pc, 1) ∧ m ≤ n ∧ OthersStand k s s') ∧
      ∀ e before after, r.entries = before ++ e :: after →
        (if f.f.getLsbD 0 then e.step = m ∧ m ≤ r.newest ∧ ∀ x ∈ before, x.step ≠ m
          else after = [] ∧ m ≤ e.step ∧ Table.getD t.seen key 0 ≤ e.step) →
        returns r e ∧
        (r.home = false → absent e ≠ [] → s.noRoute pkg = false → ∃ s', exec (.ldv f) s = .next s' ∧
          (s'.team? k).map (fun u => (u.wait, u.pc, u.phase, u.resolved)) = some (.fetch key a, t.pc, 1, some (key, e.step)) ∧
          OthersStand k s s' ∧ SameMemory s s' ∧ s'.messages = s.messages ++ (absent e).map fun n =>
            { dest := pkg, kind := 4, gctx := (s.ctx t.ctx).gid, args := [BitVec.ofNat 64 page, BitVec.ofNat 64 e.step, n] })) ∧
    (∀ key pkg page r e, o % 256 = 0 → o + 8 * t.width ≤ 65536 → t.policy ≠ 0 → s.versPage k t a = .ok (key, pkg, page) →
      s.versionBusy t.uid key = false → s.version? t.ctx key = some r → r.fetching = false →
      t.resolved = some (key, e.step) → r.entry? e.step = some e → returns r e) ∧
    ∀ key pkg page, o % 256 = 0 → o + 8 * t.width ≤ 65536 → t.policy ≠ 0 → t.resolved = none →
      s.versPage k t a = .ok (key, pkg, page) → s.versionBusy t.uid key = false → s.version? t.ctx key = none →
      pkg ≠ s.pkgnum → s.noRoute pkg = false → key = versionKey pkg page → ∃ s', exec (.ldv f) s = .next s' ∧
        (s'.team? k).map (fun u => (u.wait, u.pc, u.phase)) = some (.fetch key a, t.pc, 1) ∧ OthersStand k s s' ∧ SameMemory s s' ∧
        s'.version? t.ctx key = some { home := false, fetching := true } ∧ s'.messages = s.messages ++
          [{ dest := pkg, kind := 3, gctx := (s.ctx t.ctx).gid, args := [BitVec.ofNat 64 page] }]) ∧
  (∀ (f : FmtE) (s : State) (k : Nat) (t : Team), Ready s k t (.publ f) → (s.ctx t.ctx).key ≠ none →
    ∀ key page, s.versPage k t (t.s f.q) = .ok (key, s.pkgnum, page) →
      (s.pinning t.uid key = true → exec (.publ f) s = .next (s.parkTeam k .engine)) ∧
      (s.pinning t.uid key = false → ∀ c a, (s.publishHome t.ctx key ((t.s f.w).toNat % 2 ^ 32) (t.s f.p)).fail = some (c, a) →
        (s.publishHome t.ctx key ((t.s f.w).toNat % 2 ^ 32) (t.s f.p)).lost = none →
        (s.publishHome t.ctx key ((t.s f.w).toNat % 2 ^ 32) (t.s f.p)).release = none →
        exec (.publ f) s = .next (((s.publishHome t.ctx key ((t.s f.w).toNat % 2 ^ 32) (t.s f.p)).state.settled k t
          (some (c, a))).complete k t (.publ f))) ∧
      (s.pinning t.uid key = false → (s.publishHome t.ctx key ((t.s f.w).toNat % 2 ^ 32) (t.s f.p)).fail = none →
        (s.publishHome t.ctx key ((t.s f.w).toNat % 2 ^ 32) (t.s f.p)).lost = none → ∀ c,
        (s.publishHome t.ctx key ((t.s f.w).toNat % 2 ^ 32) (t.s f.p)).release = some c →
        exec (.publ f) s = .next ((((s.publishHome t.ctx key ((t.s f.w).toNat % 2 ^ 32) (t.s f.p)).state.settled k t none).settled
          k t (some (c, 0))).complete k t (.publ f))) ∧
      (∀ r e es, s.pinning t.uid key = false → s.version? t.ctx key = some r → 8 ≤ r.entries.length →
        (∀ x ∈ r.entries, x.step < (t.s f.w).toNat % 2 ^ 32) → (s.ctx t.ctx).entry (t.s f.p) = some e → e.quiet = false →
        nameKind (t.s f.p) = 1 → s.nodeOf t.ctx e = .ok (some es) → (∀ n ∈ es.drop 2, n = zeroName) →
        ((∀ x ∈ r.entries, x.pins ≠ 0) → exec (.publ f) s = .next ((s.settled k t (some (69, 0))).complete k t (.publ f))) ∧
        ∀ before v after gone,
          let held := fun (n : Word) => if n = t.s f.p then ((s.ctx t.ctx).entry n).map DirEntry.up else (s.ctx t.ctx).entry n
          r.entries = before ++ v :: after → v.pins = 0 → (∀ x ∈ before, x.pins ≠ 0) → (∀ x ∈ before ++ after, x.step ≠ v.step) →
          Releases s t.ctx held v.root gone →
          ∃ s' y, exec (.publ f) s = .next s' ∧ Past (.publ f) k s' t ∧ SameMemory s s' ∧ s'.version? t.ctx key = some y ∧
            y.entries = before ++ after ++ [{ step := (t.s f.w).toNat % 2 ^ 32, root := t.s f.p }] ∧
            ∀ n, (s'.ctx t.ctx).entry n = releasedEntry held v.root gone n) ∧
      ∀ r e es, s.pinning t.uid key = false → s.version? t.ctx key = some r → r.entries.length < 8 → (∀ x ∈ r.entries, x.step < (t.s f.w).toNat % 2 ^ 32) →
        0 < (t.s f.w).toNat % 2 ^ 32 → (s.ctx t.ctx).entry (t.s f.p) = some e → e.quiet = false → nameKind (t.s f.p) = 1 →
        s.nodeOf t.ctx e = .ok (some es) → (∀ n ∈ es.drop 2, n = zeroName) →
        ∃ s' y, exec (.publ f) s = .next s' ∧ Past (.publ f) k s' t ∧ SameMemory s s' ∧ s'.version? t.ctx key = some y ∧
          y.entries = r.entries ++ [{ step := (t.s f.w).toNat % 2 ^ 32, root := t.s f.p }] ∧
          (s'.ctx t.ctx).entry (t.s f.p) = some e.up) ∧
  (∀ (f : FmtE) (s : State) (k : Nat) (t : Team), Ready s k t (.vstep f) → ∀ key pkg page,
    s.versPage k t (t.s f.q) = .ok (key, pkg, page) →
    (s.versionBusy t.uid key = true → exec (.vstep f) s = .next (s.parkTeam k .engine)) ∧
    (s.versionBusy t.uid key = false → exec (.vstep f) s = .next ((s.answer k t [.scalar f.p (BitVec.ofNat 64
      (match s.version? t.ctx key with
        | some r => r.newest
        | none => 0))]).complete k t (.vstep f)))) ∧
  ∀ x ∈ ([(Instr.vpin, false), (Instr.vunpin, true)] : List ((FmtE → Instr) × Bool)),
    ∀ (f : FmtE) (s : State) (k : Nat) (t : Team), Ready s k t (x.1 f) → (s.ctx t.ctx).key ≠ none →
    ∀ key page r, s.versPage k t (t.s f.q) = .ok (key, s.pkgnum, page) → s.version? t.ctx key = some r → r.fetching = false →
      s.versionBusy t.uid key = false →
      let step := (t.s f.w).toNat % 2 ^ 32
      ((∀ y ∈ r.entries, y.step ≠ step) → (x.2 = true ∨ r.pinned < 8) →
        exec (x.1 f) s = .next ((s.settled k t (some (73, 0))).complete k t (x.1 f))) ∧
      (x.2 = false → 8 ≤ r.pinned → exec (x.1 f) s = .next ((s.settled k t (some (69, 0))).complete k t (x.1 f))) ∧
      ∀ before y after, r.entries = before ++ y :: after → y.step = step → (∀ z ∈ before ++ after, z.step ≠ step) →
        (x.2 = true → y.pins = 0 → exec (x.1 f) s = .next ((s.settled k t (some (73, 0))).complete k t (x.1 f))) ∧
        ((x.2 = true ∧ 0 < y.pins ∧ r.pending = none) ∨ (x.2 = false ∧ r.pinned < 8) →
          ∃ s' q, exec (x.1 f) s = .next s' ∧ Past (x.1 f) k s' t ∧ OthersStand k s s' ∧ SameMemory s s' ∧
            s'.version? t.ctx key = some q ∧
            q.entries = before ++ { y with pins := if x.2 then y.pins - 1 else y.pins + 1 } :: after)

/-- R320, R323, R347, R431, R435: what arrives for versions. A publish message installs its version in a replica; the entries of a
new replica become visible, or its fetch fails; a line that arrives is stored under its name, held by the version that needs
it, and the loads that waited issue again; a line that cannot be fetched, and a wait that reaches its limit, raise their cause
at the load. What the home answers is an operand of the step (log 18, DESIGN CHOICE); a fetched name counts the holds of the
nodes fetched before (log 50, DEDUCED), its line in the arena is chosen freely (log 91, DESIGN CHOICE), and only the wait for
a version is limited (log 53, DEDUCED). -/
def Obligations.VersionArrivals : Prop :=
  (∀ (s : State) (g key step : Nat) (root : Word), s.detail = .publish g key step root →
    (s.ctxOfGid g = none → exec .publishMessage s = .next s) ∧
    ∀ c r, s.ctxOfGid g = some c → s.version? c key = some r →
      (r.home = true → exec .publishMessage s = .next s) ∧
      (r.home = false → r.entries.length < 8 → (∀ e ∈ r.entries, e.step ≠ step) →
        ∃ s', exec .publishMessage s = .next s' ∧ SameMemory s s' ∧ s'.version? c key = some (r.insert { step := step, root := root }))) ∧
  (∀ (s : State) (c key : Nat) (r : FetchAnswer) (v : VersionRecord), s.detail = .fetched c key r →
    s.version? c key = some v →
    (v.fetching = false → exec .replicaFetchComplete s = .next s) ∧
    (v.fetching = true → v.home = false → v.entries = [] → s.ops = [] → ∀ step root, r = .entries [(step, root)] →
      ∃ s' w, exec .replicaFetchComplete s = .next s' ∧ s'.version? c key = some w ∧ w.fetching = false ∧
        w.entries = [{ step := step, root := root }]) ∧
    (v.fetching = true → Table.wf (s.ctx c).versions = true → ∀ x, r = .failed x →
      ∃ s', exec .replicaFetchComplete s = .next s' ∧ s'.version? c key = none ∧
        ∀ j u a, s.team? j = some u → u.ctx = c → u.resolved = none → u.wait = .fetch key a →
          s'.team? j = some { u with wait := .ready, raised := some (x, a) })) ∧
  (∀ (s : State) (c key step : Nat) (n : Word) (d : BitVec 16) (data : BitVec 512) (v : VersionRecord),
    s.detail = .lines c key step (.lines [(n, d, data)]) → s.version? c key = some v → v.home = false → v.entry? step ≠ none →
    n ≠ zeroName → (s.ctx c).entry n = none → (s.ctx c).dir.length < (s.ctx c).arenaLines →
    (∀ i, i < (s.ctx c).arenaLines → ∃ pa, s.arenaAddr c n ((s.ctx c).csArena.toNat + 64 * i) = .ok pa ∧ isCxl pa = false) →
    Memory.wf s.mem = true → Table.wf s.descs = true →
    ∃ s' e pa w y, exec .replicaLineFetch s = .next s' ∧ (s'.ctx c).entry n = some e ∧ e.count = 1 + s.heldBy c n ∧
      e.quiet = false ∧ e.node = (nameKind n == 1) ∧ s.arenaAddr c n e.loc = .ok pa ∧ s'.lineData pa = data ∧ s'.desc pa = d ∧
      SameOutside (64 * (pa / 64)) 64 s s' ∧
      s'.version? c key = some w ∧ y ∈ w.entries ++ w.leaving ∧ y.step = step ∧ n ∈ y.held ∧
      ∀ j u a, s.team? j = some u → u.ctx = c → u.resolved = some (key, step) → u.wait = .fetch key a →
        s'.team? j = some { u with wait := .ready }) ∧
  (∀ (s : State) (c key step x : Nat) (v : VersionRecord), s.detail = .lines c key step (.failed x) →
    s.version? c key = some v → v.home = false → v.entry? step ≠ none →
    ∃ s', exec .replicaLineFetch s = .next s' ∧ SameMemory s s' ∧
      ∀ j u a, s.team? j = some u → u.ctx = c → u.resolved = some (key, step) → u.wait = .fetch key a →
        s'.team? j = some { u with wait := .ready, raised := some (x, a) }) ∧
  ∀ (s : State) (k n : Nat) (t : Team), s.detail = .place k n → s.team? k = some t →
    (∀ p m, t.wait = .version p m → t.limit = 1 → exec .ldvWaitLimit s =
      .next (s.putTeam k { t with wait := .ready, limit := 0, raised := some (67, 0) })) ∧
    (t.limit ≠ 1 → exec .ldvWaitLimit s = .next s)

/-- R326, R329 to R332, R395: STEPA advances the step of the team's peer once no other peer that counts is more than LEAD
behind, and announces it to the other packages; STEPR reads the table; PEXC and PLEAD change it. -/
def Claim.Progress : Prop :=
  (∀ (f : FmtE) (s : State) (k : Nat) (t : Team), Ready s k t (.stepa f) →
    let n := (t.s f.q).toNat % 2 ^ 32
    let x := s.ctx t.ctx
    let i := t.pself.toNat % 4096
    (n = 0 → exec (.stepa f) s = .next (s.takeTrap k 4 {})) ∧
    (n ≠ 0 → (x.pgSize = 0 ∨ x.peers.length ≤ i) → exec (.stepa f) s = .next (s.takeTrap k 74 {})) ∧
    ∀ p, n ≠ 0 → x.pgSize ≠ 0 → x.peers[i]? = some p → s.publishesOut t.uid = false →
      (n ≤ p.step → ∃ s', exec (.stepa f) s = .next s' ∧ Completed (.stepa f) k s s' t) ∧
      (p.step < n → (∃ j q, j ≠ i ∧ x.peers[j]? = some q ∧ q.excused = false ∧ q.step + x.lead < n) →
        exec (.stepa f) s = .next (s.parkTeam k .step)) ∧
      (p.step < n → (∀ j q, j ≠ i → x.peers[j]? = some q → q.excused = false → n ≤ q.step + x.lead) →
        ∃ s', exec (.stepa f) s = .next s' ∧ Past (.stepa f) k s' t ∧ OthersStand k s s' ∧ SameMemory s s' ∧
          s'.ctx t.ctx = { x with peers := x.peers.set i { p with step := n } } ∧
          (∀ c, c ≠ t.ctx → s'.ctx c = s.ctx c) ∧
          s'.messages = s.messages ++ if p.here then (((x.peers.map fun q => q.pkg).eraseDups).filter (· != s.pkgnum)).map fun d =>
            { dest := d, kind := 1, gctx := x.gid, args := [BitVec.ofNat 64 i, BitVec.ofNat 64 n] } else [])) ∧
  (∀ (f : FmtE) (s : State) (k : Nat) (t : Team), Ready s k t (.stepr f) →
    let x := s.ctx (s.ctxFor k t)
    (x.pgSize = 0 → (f.f.extractLsb' 0 2 ≠ 0 ∨ k < 16384) → exec (.stepr f) s = .next (s.takeTrap k 74 {})) ∧
    (f.f.extractLsb' 0 2 = 0 → 16384 ≤ k → exec (.stepr f) s = .next (s.takeTrap k 4 {})) ∧
    (f.f.extractLsb' 0 2 = 0 → k < 16384 → x.pgSize ≠ 0 → ∀ p, x.peers[t.pself.toNat % 4096]? = some p →
      ∃ s', exec (.stepr f) s = .next s' ∧ Completed (.stepr f) k s s' (t.setS f.p (BitVec.ofNat 64 p.step))) ∧
    (f.f.extractLsb' 0 2 = 1 → x.pgSize ≠ 0 → (∀ p ∈ x.peers, p.step < 2 ^ 32) →
      ∃ s' v, exec (.stepr f) s = .next s' ∧ Completed (.stepr f) k s s' (t.setS f.p (BitVec.ofNat 64 v)) ∧
        ((∀ p ∈ x.peers, p.excused = true) → v = 0xFFFFFFFF) ∧
        ((∃ p ∈ x.peers, p.excused = false) → (∃ p ∈ x.peers, p.excused = false ∧ p.step = v) ∧
          ∀ p ∈ x.peers, p.excused = false → v ≤ p.step)) ∧
    (f.f.extractLsb' 0 2 = 2 → x.pgSize ≠ 0 → ∀ p, x.peers[(t.s f.q).toNat]? = some p → p.step < 2 ^ 32 →
      ∃ s' v, exec (.stepr f) s = .next s' ∧ Completed (.stepr f) k s s' (t.setS f.p v) ∧
        (v.extractLsb' 0 32).toNat = p.step ∧ v.getLsbD 32 = p.excused ∧ v.getLsbD 33 = p.silent ∧ v.toNat < 2 ^ 34) ∧
    (f.f.extractLsb' 0 2 = 3 → x.pgSize ≠ 0 →
      ∃ s', exec (.stepr f) s = .next s' ∧ Completed (.stepr f) k s s' (t.setS f.p (BitVec.ofNat 64 x.lead)))) ∧
  (∀ (f : FmtE) (s : State) (k : Nat) (t : Team), Ready s k t (.pexc f) →
    let c := s.ctxFor k t
    let i := (t.s f.q).toNat
    ((s.ctx c).pgSize = 0 ∨ (s.ctx c).peers.length ≤ i → exec (.pexc f) s = .next (s.takeTrap k 74 {})) ∧
    ∀ p, (s.ctx c).pgSize ≠ 0 → (s.ctx c).peers[i]? = some p →
      ∃ s', exec (.pexc f) s = .next s' ∧ Past (.pexc f) k s' t ∧ OthersStand k s s' ∧ SameMemory s s' ∧
        s'.ctx c = { s.ctx c with peers := (s.ctx c).peers.set i { p with excused := !(f.f.getLsbD 0) } } ∧
        ∀ d, d ≠ c → s'.ctx d = s.ctx d) ∧
  ∀ (f : FmtE) (s : State) (k : Nat) (t : Team), Ready s k t (.plead f) →
    let c := s.ctxFor k t
    let v := (t.s f.q).toNat
    (15 < v → exec (.plead f) s = .next (s.takeTrap k 4 {})) ∧
    (v ≤ 15 → (s.ctx c).pgSize = 0 → exec (.plead f) s = .next (s.takeTrap k 74 {})) ∧
    (v ≤ 15 → (s.ctx c).pgSize ≠ 0 →
      ∃ s', exec (.plead f) s = .next s' ∧ Past (.plead f) k s' t ∧ OthersStand k s s' ∧ SameMemory s s' ∧
        s'.ctx c = { s.ctx c with lead := v } ∧ ∀ d, d ≠ c → s'.ctx d = s.ctx d)

/-- R326 to R328: a write of PGSIZE loads or ends a context's table, an announcement raises a peer's step and ends its silence,
heartbeats announce the peers that live here, and a peer that was not heard for PSILENT falls silent. -/
def Claim.ProgressEvents : Prop :=
  (∀ (s : State) (c n : Nat) (v : Word), s.detail = .value c n v →
    (4096 < v.toNat → exec .pgsizeWrite s = .next s) ∧
    (v = 0 → ∃ s', exec .pgsizeWrite s = .next s' ∧ s'.ctx c = { s.ctx c with pgSize := 0, peers := [] } ∧ SameMemory s s') ∧
    ∀ ps, v ≠ 0 → v.toNat ≤ 4096 → s.readPeers c v.toNat = some ps → ∃ s', exec .pgsizeWrite s = .next s' ∧ SameMemory s s' ∧
      s'.ctx c = { s.ctx c with pgSize := v.toNat, peers := ps, lead := 2 } ∧ ∀ d, d ≠ c → s'.ctx d = s.ctx d) ∧
  (∀ (s : State) (g i step : Nat), s.detail = .announce g i step →
    (s.ctxOfGid g = none → exec .stepAnnouncement s = .next s) ∧
    ∀ c p, s.ctxOfGid g = some c → (s.ctx c).peers[i]? = some p → ∃ s', exec .stepAnnouncement s = .next s' ∧ SameMemory s s' ∧
      s'.ctx c = { s.ctx c with
        peers := (s.ctx c).peers.set i { p with step := max p.step (step % 2 ^ 32), heardAt := s.clock, silent := false } } ∧
      ∀ d, d ≠ c → s'.ctx d = s.ctx d) ∧
  (∀ s : State, (2 * (s.clock - s.beatAt) < s.pbeat.toNat → exec .heartbeatPeriod s = .next s) ∧
    (s.pbeat.toNat ≤ 2 * (s.clock - s.beatAt) → ∃ s', exec .heartbeatPeriod s = .next s' ∧ s'.beatAt = s.clock ∧
      s' = { s with beatAt := s.clock, messages := s'.messages } ∧
      ∀ c x i p q, Table.find? s.ctxs c = some x → x.alive = true → x.peers[i]? = some p → p.here = true → q ∈ x.peers →
        q.pkg ≠ s.pkgnum → ({ dest := q.pkg, kind := 1, gctx := x.gid
                              args := [BitVec.ofNat 64 i, BitVec.ofNat 64 p.step] } : Message) ∈ s'.messages)) ∧
  ∀ (s : State) (c i : Nat), s.detail = .place c i →
    (s.isSilent c i = false → exec .peerSilent s = .next s) ∧
    ∀ p, s.isSilent c i = true → (s.ctx c).peers[i]? = some p → ∃ s', exec .peerSilent s = .next s' ∧
      (s'.ctx c).peers = (s.ctx c).peers.set i { p with silent := true, excused := p.excused || (s.ctx c).pautox }

/-- R326, R329, R330, R331, R332, R395, R327, R328: STEPA, STEPR, PEXC and PLEAD, and what changes the progress table. -/
def Obligations.ProgressTable : Prop := Claim.Progress ∧ Claim.ProgressEvents

/-- R333, R334, R338 to R341: a slot of the quorum engine is opened, anew with .r whatever it holds, waited for and read; a slot
that is not granted or not open raises cause 70, another step cause 71, and words that are not well formed cause 4, bits of a
selector that must be zero among them (log 56, DEDUCED). A slot that another context opened is idle (log 57, DEDUCED). -/
def Obligations.QuorumSlots : Prop :=
  (∀ (f : FmtE) (s : State) (k : Nat) (t : Team), Ready s k t (.qopen f) →
    let a := t.s f.p
    let b := t.s (f.p + 1)
    let d := t.s (f.p + 2)
    let key := slotKey (dieOf k) (bitsOf a 32 6)
    let x := s.slotFor t.ctx key
    let opened := { x with
      state := .opened, ctx := t.ctx, step := bitsOf a 0 32, quorum := bitsOf b 16 13, floor := bitsOf b 32 13
      len := bitsOf b 45 18 + 1, time := bitsOf d 0 32, lambda := BitVec.ofNat 32 (bitsOf d 32 32), openedAt := s.clock
      onTime := {}, late := {}, early := {}, result := [], kind := 0, folded := 0, flags := 0 }
    (openOk a b d = false → exec (.qopen f) s = .next (s.takeTrap k 4 {})) ∧
    (openOk a b d = true → s.granted t.ctx (dieOf k) (bitsOf a 32 6) = false → exec (.qopen f) s = .next (s.takeTrap k 70 {})) ∧
    (openOk a b d = true → s.granted t.ctx (dieOf k) (bitsOf a 32 6) = true → s.slotExpired (Table.getD s.slots key {}) = false →
      f.f.getLsbD 0 = false →
      ((x.state = .opened ∨ x.state = .closed ∧ x.len ≠ bitsOf b 45 18 + 1) →
        exec (.qopen f) s = .next (s.takeTrap k 70 {})) ∧
      (x.state = .closed → x.len = bitsOf b 45 18 + 1 → bitsOf a 0 32 ≠ x.step + 1 →
        exec (.qopen f) s = .next (s.takeTrap k 71 {})) ∧
      ((x.state = .idle ∨ x.state = .closed ∧ x.len = bitsOf b 45 18 + 1 ∧ bitsOf a 0 32 = x.step + 1) →
        (∀ j u r, s.team? j = some u → u.wait ≠ .slot key r) →
        let y := { opened with
          onTime := if x.state = .idle then {} else x.early, late := if x.state = .idle then {} else x.late, drops := x.drops }
        ∃ s', exec (.qopen f) s = .next s' ∧ Past (.qopen f) k s' t ∧ OthersStand k s s' ∧ SameMemory s s' ∧
          Table.find? s'.slots key = some (if y.onTime.count < y.quorum then y else y.close 1) ∧
          ∀ j, j ≠ key → Table.find? s'.slots j = Table.find? s.slots j)) ∧
    (openOk a b d = true → s.granted t.ctx (dieOf k) (bitsOf a 32 6) = true → s.slotExpired (Table.getD s.slots key {}) = false →
      f.f.getLsbD 0 = true → ∃ s', exec (.qopen f) s = .next s' ∧ Past (.qopen f) k s' { t with raised := none } ∧ SameMemory s s' ∧
        Table.find? s'.slots key = some { opened with drops := if x.state = .opened then
          (x.drops + (x.onTime.count + x.late.count + x.early.count)) % 2 ^ 32 else x.drops } ∧
        (∀ j, j ≠ key → Table.find? s'.slots j = Table.find? s.slots j) ∧
        ∀ j u r, j ≠ k → s.team? j = some u → x.state = .opened → u.wait = .slot key r →
          (s'.team? j).map (fun v => (v.wait, v.raised)) = some (.ready, some (71, 0)))) ∧
  (∀ (f : FmtE) (s : State) (k : Nat) (t : Team), Ready s k t (.qcont f) →
    (bitsOf (t.s (f.p + 1)) 56 8 ≠ 0 → exec (.qcont f) s = .next (s.takeTrap k 4 {})) ∧
    (bitsOf (t.s (f.p + 1)) 56 8 = 0 → (t.s f.p).toNat % 64 ≠ 0 →
      exec (.qcont f) s = .next (s.takeTrap k 18 { addr := t.s f.p })) ∧
    (bitsOf (t.s (f.p + 1)) 56 8 = 0 → (t.s f.p).toNat % 64 = 0 →
      let s1 := s.begin k t 3 (.contribute (t.s f.p) (t.s (f.p + 1)) none (bitsOf (t.s (f.p + 1)) 40 16 != s.pkgnum))
      let away := s.noRoute (bitsOf (t.s (f.p + 1)) 40 16)
      (away = false → exec (.qcont f) s = .next (s1.complete k t (.qcont f))) ∧
      (away = true → exec (.qcont f) s = .next ((s1.endOp s.serial (some (83, 0))).complete k t (.qcont f))))) ∧
  (∀ (f : FmtE) (s : State) (k : Nat) (t : Team), Ready s k t (.qread f) →
    (bitsOf (t.s (f.p + 1)) 38 26 ≠ 0 → exec (.qread f) s = .next (s.takeTrap k 4 {})) ∧
    (bitsOf (t.s (f.p + 1)) 38 26 = 0 → (t.s f.p).toNat % 64 ≠ 0 →
      exec (.qread f) s = .next (s.takeTrap k 18 { addr := t.s f.p })) ∧
    (bitsOf (t.s (f.p + 1)) 38 26 = 0 → (t.s f.p).toNat % 64 = 0 →
      exec (.qread f) s = .next ((s.begin k t 3 (.readResult (t.s f.p) (t.s (f.p + 1))
        (slotKey (dieOf k) (bitsOf (t.s (f.p + 1)) 32 6)))).complete k t (.qread f)))) ∧
  ∀ (f : FmtE) (s : State) (k : Nat) (t : Team),
    let key := slotKey (dieOf k) (bitsOf (t.s f.q) 32 6)
    let x := s.slotFor t.ctx key
    let clear := bitsOf (t.s f.q) 38 26 = 0 ∧ s.granted t.ctx (dieOf k) (bitsOf (t.s f.q) 32 6) = true ∧
      s.slotExpired (Table.getD s.slots key {}) = false
    (∀ i ∈ ([.qwait f, .qstat f] : List Instr), Ready s k t i → t.phase ≠ 1 →
      (bitsOf (t.s f.q) 38 26 ≠ 0 → exec i s = .next (s.takeTrap k 4 {})) ∧
      (bitsOf (t.s f.q) 38 26 = 0 → s.granted t.ctx (dieOf k) (bitsOf (t.s f.q) 32 6) = false →
        exec i s = .next (s.takeTrap k 70 {}))) ∧
    (Ready s k t (.qwait f) → (t.phase = 1 → ∃ s', exec (.qwait f) s = .next s' ∧ Completed (.qwait f) k s s' t) ∧
      (t.phase ≠ 1 → clear →
        (x.state = .idle → exec (.qwait f) s = .next (s.takeTrap k 70 {})) ∧
        (x.state ≠ .idle → x.step ≠ bitsOf (t.s f.q) 0 32 → exec (.qwait f) s = .next (s.takeTrap k 71 {})) ∧
        (x.state = .opened → x.step = bitsOf (t.s f.q) 0 32 → exec (.qwait f) s = .next (s.parkTeam k (.slot key f.p))) ∧
        (x.state = .closed → x.step = bitsOf (t.s f.q) 0 32 →
          ∃ s', exec (.qwait f) s = .next s' ∧ Completed (.qwait f) k s s' (t.setS f.p (BitVec.ofNat 64
            (x.onTime.count % 8192 + 2 ^ 16 * (x.folded % 8192) + 2 ^ 30 * x.kind + 2 ^ 32 * x.step)))))) ∧
    (Ready s k t (.qstat f) → clear → ∃ s', exec (.qstat f) s = .next s' ∧
      Completed (.qstat f) k s s' (t.setS f.p (BitVec.ofNat 64 (if f.f.getLsbD 0 then
          x.late.count % 8192 + 2 ^ 16 * (x.early.count % 8192) + 2 ^ 32 * x.drops
        else (match x.state with | .idle => 0 | .opened => 1 | .closed => 2) + 4 * x.kind + 16 * x.flags.toNat +
          2 ^ 16 * (x.onTime.count % 8192) + 2 ^ 32 * x.step))))

/-- R303, R335 to R337, R339, R340, R347, R364: what reaches a slot and what closes it. A slot takes one contribution in an
ACLK, files it by its tag, drops and counts it, or refuses it; the answer to one of another package is kept, and a repeat of one
that was taken is discarded. The contribution that completes the quorum, or the timer, closes the slot, which hands its word,
with the late contributions that the close met (log 55, DEDUCED), to the teams that wait. A refused contribution is sent again
after 64 FCLK, and a posted operation of the Q class ends with its failure, if any. -/
def Obligations.QuorumEvents : Prop :=
  (∀ (s : State) (p g seq die i tag : Nat) (xs : List (BitVec 32)),
    s.detail = .contribution (.fromPackage p g seq die i tag xs) →
    let key := slotKey die i
    let taken := ∃ y ∈ s.verdicts, y.source = p ∧ y.gctx = g ∧ y.seq = seq ∧ y.verdict = 0
    (taken → exec .quorumContribution s = .next s) ∧
    (¬taken → s.ctxOfGid g = none → exec .quorumContribution s = .next (s.verdict p g seq 81)) ∧
    ∀ c, ¬taken → s.ctxOfGid g = some c →
      (s.granted c die i = false → exec .quorumContribution s = .next (s.verdict p g seq 70)) ∧
      (s.granted c die i = true → s.slotExpired (Table.getD s.slots key {}) = false →
        let x := s.slotFor c key
        let z := { x with takenAt := some s.clock }
        (x.takenAt = some s.clock → exec .quorumContribution s = .next s) ∧
        (x.takenAt ≠ some s.clock →
          (x.state = .idle ∨ x.step + 1 < tag → exec .quorumContribution s = .next (s.verdict p g seq 1)) ∧
          (x.state ≠ .idle → tag ≤ x.step + 1 → xs.length ≠ x.len → exec .quorumContribution s = .next (s.verdict p g seq 70)) ∧
          (x.state ≠ .idle → xs.length = x.len →
            (x.state = .opened → tag = x.step → x.onTime.count + 1 < x.quorum → exec .quorumContribution s =
              .next ((s.putSlot key { z with onTime := x.onTime.add xs }).verdict p g seq 0)) ∧
            (x.state = .opened → tag = x.step → x.quorum ≤ x.onTime.count + 1 → exec .quorumContribution s =
              .next ((s.closeSlot key { z with onTime := x.onTime.add xs } 1).verdict p g seq 0)) ∧
            (x.state = .closed ∧ tag = x.step ∨ x.state = .opened ∧ tag + 1 = x.step → exec .quorumContribution s =
              .next ((s.putSlot key { z with late := x.late.add xs }).verdict p g seq 0)) ∧
            (tag = x.step + 1 → exec .quorumContribution s =
              .next ((s.putSlot key { z with early := x.early.add xs }).verdict p g seq 0)) ∧
            (x.state = .closed ∧ tag < x.step ∨ x.state = .opened ∧ tag + 1 < x.step → exec .quorumContribution s =
              .next ((s.putSlot key { z with drops := (x.drops + 1) % 2 ^ 32 }).verdict p g seq 0)))))) ∧
  (∀ (s : State) (id : Nat) (o : Op) (src dst : Word) (sent : Bool), s.detail = .contribution (.fromHere id) → Table.find? s.ops id = some o →
    o.work = .contribute src dst none sent → o.miss = none → bitsOf dst 40 16 = s.pkgnum →
    let key := slotKey (bitsOf dst 38 2) (bitsOf dst 32 6)
    let tag := bitsOf dst 0 32
    let x := s.slotFor o.ctx key
    let z := { x with takenAt := some s.clock }
    (s.granted o.ctx (bitsOf dst 38 2) (bitsOf dst 32 6) = false →
      exec .quorumContribution s = .next (s.endOp id (some (70, 0)))) ∧
    (s.granted o.ctx (bitsOf dst 38 2) (bitsOf dst 32 6) = true → s.slotExpired (Table.getD s.slots key {}) = false →
      (x.takenAt = some s.clock → exec .quorumContribution s = .next s) ∧
      (x.takenAt ≠ some s.clock →
        (x.state = .idle ∨ x.step + 1 < tag → exec .quorumContribution s =
          .next { s with ops := Table.put s.ops id (
            { o with work := .contribute src dst (some s.clock) true, since := if sent then o.since else s.clock } : Op) }) ∧
        (∀ y, x.state ≠ .idle → x.step ≤ tag + 1 → tag ≤ x.step + 1 → (x.state = .closed → x.step ≤ tag) →
          s.contributed o src x.len = .error y → exec .quorumContribution s = .next (s.opStop id o y)) ∧
        (x.state = .closed ∧ tag < x.step ∨ x.state = .opened ∧ tag + 1 < x.step → exec .quorumContribution s =
          .next ((s.putSlot key { z with drops := (x.drops + 1) % 2 ^ 32 }).endOp id none)) ∧
        ∀ xs, s.contributed o src x.len = .ok xs →
          (x.state = .opened → tag = x.step → x.onTime.count + 1 < x.quorum → exec .quorumContribution s =
            .next ((s.putSlot key { z with onTime := x.onTime.add xs }).endOp id none)) ∧
          (x.state = .opened → tag = x.step → x.quorum ≤ x.onTime.count + 1 → exec .quorumContribution s =
            .next ((s.closeSlot key { z with onTime := x.onTime.add xs } 1).endOp id none)) ∧
          (x.state = .closed ∧ tag = x.step ∨ x.state = .opened ∧ tag + 1 = x.step → exec .quorumContribution s =
            .next ((s.putSlot key { z with late := x.late.add xs }).endOp id none)) ∧
          (x.state ≠ .idle → tag = x.step + 1 → exec .quorumContribution s =
            .next ((s.putSlot key { z with early := x.early.add xs }).endOp id none))))) ∧
  (∀ (s : State) (key n : Nat), s.detail = .place key n →
    let x := Table.getD s.slots key {}
    (s.slotExpired x = false → exec .quorumTimerExpiry s = .next s) ∧
    (s.slotExpired x = true → exec .quorumTimerExpiry s =
      .next (s.closeSlot key x (if x.floor ≤ x.onTime.count then 2 else 3)))) ∧
  (∀ (s : State) (key kind : Nat) (x : Slot),
    let y := x.close kind
    y.state = .closed ∧ y.step = x.step ∧ y.len = x.len ∧ y.early = x.early ∧ y.folded = x.late.count ∧ y.late = {} ∧
    y.onTime.count = x.onTime.count ∧
    (kind = 3 → y.kind = 3 ∧ y.result = List.replicate x.len 0 ∧ y.flags = 0 ∧
      y.drops = (x.drops + (x.onTime.count + x.late.count)) % 2 ^ 32) ∧
    (kind ≠ 3 → x.onTime.count ≠ 0 → y.kind = kind ∧ y.drops = x.drops ∧
      y.result = (closeResult x.lambda.toNat x.onTime x.late).1) ∧
    Table.find? (s.closeSlot key x kind).slots key = some y ∧
    ∀ j t r, s.team? j = some t → t.wait = .slot key r →
      (s.closeSlot key x kind).team? j = some { t.setS r y.word with phase := 1, wait := .ready }) ∧
  (∀ (s : State) (id n m : Nat) (o : Op) (src dst : Word) (sent : Bool), s.detail = .place id n → Table.find? s.ops id = some o →
    o.work = .contribute src dst (some m) sent →
    (2 * (s.clock - m) < 64 → exec .qcontResend s = .next s) ∧
    (64 ≤ 2 * (s.clock - m) → s.noRoute (bitsOf dst 40 16) = true → exec .qcontResend s = .next (s.endOp id (some (83, 0)))) ∧
    (64 ≤ 2 * (s.clock - m) → s.noRoute (bitsOf dst 40 16) = false → exec .qcontResend s =
      .next { s with ops := Table.put s.ops id { o with work := .contribute src dst none sent } })) ∧
  ∀ (s : State) (id n : Nat) (o : Op) (fail : Option (Nat × Word)), s.detail = .place id n → Table.find? s.ops id = some o →
    o.work = .settled fail → (∀ c a, fail = some (c, a) → c ≠ 16 ∧ c ≠ 23) →
    (o.miss = none → s.away o.ctx = false → (∀ e ∈ s.flights, e.2.add = none) → exec .storeOpComplete s = .next (s.endOp id fail)) ∧
    (o.miss ≠ none ∨ s.away o.ctx = true → exec .storeOpComplete s = .next s)

/-! ### The fabric -/

/-- R346, R350 to R356, R363: RLD sends one read for each distinct line and waits for the replies, with which it completes; RST
and RATOM hand one request for each lane in order to the fabric as an operation of the open F batch and go on. A failing check
raises its cause before anything leaves the core: a miss parks the team at the mask word of its lane, and a malformed entry writes its event. Where no route
is left (log 18, DESIGN CHOICE) RLD raises cause 83 and the others fail their batch; where the slice store can hold no result cause 42 stops a form that returns
one (R129). -/
def Claim.RemoteLanes : Prop :=
  (∀ (f : FmtE) (s : State) (k : Nat) (t : Team) (x : (FmtE → Instr) × Bool × Nat),
    x ∈ ([(Instr.rld, false, 1), (Instr.rst, true, 2), (Instr.ratom, true, 3)] : List ((FmtE → Instr) × Bool × Nat)) →
    Ready s k t (x.1 f) →
    let z := if x.2.2 = 3 then (if f.f.getLsbD 4 then 4 else 8) else sizeOfZ (f.f.extractLsb' 0 2)
    let off := if x.2.2 = 3 then some (f.p.toNat + 1) else if f.f.getLsbD 2 then some f.w.toNat else none
    let srcs := if x.2.2 = 1 then off.toList else if x.2.2 = 2 then f.p.toNat :: off.toList
      else if (f.f.extractLsb' 0 4).toNat = 9 then [f.p.toNat, f.p.toNat + 1, f.p.toNat + 2] else [f.p.toNat, f.p.toNat + 1]
    let ls := laneAddrs t t.active (t.s f.q) z off
    (x.2.2 = 1 → t.phase ≠ 1 ∧ t.active ≠ 0) → t.poisonRead srcs = none →
    (∀ c a row, s.remoteCause k t ls z x.2.1 = some (c, a, row) →
      (c ≠ 16 → exec (x.1 f) s = .next
        ((if c = 23 then s.pteBad k t.ctx a t.part else s).takeTrap k c { pass := row, addr := a })) ∧
      (c = 16 → let r := s.noteMiss t.ctx a (.team k t.uid false a) x.2.2 (sourceOf k t.part)
        exec (x.1 f) s = .next ((r.1.modTeam k fun u => { u with resume := row }).parkTeam k (.miss r.2)))) ∧
    (s.remoteCause k t ls z x.2.1 = none → s.remoteLanes k t ls x.2.1 ≠ [] → s.unsent t = true →
      exec (x.1 f) s = .next (s.parkTeam k .fabric))) ∧
  (∀ (f : FmtE) (s : State) (k : Nat) (t : Team), Ready s k t (.rld f) →
    let z := sizeOfZ (f.f.extractLsb' 0 2)
    let off := if f.f.getLsbD 2 then some f.w.toNat else none
    let ls := laneAddrs t t.active (t.s f.q) z off
    (t.phase = 1 ∨ t.active = 0 → ∃ s', exec (.rld f) s = .next s' ∧ Completed (.rld f) k s s' t) ∧
    (t.phase ≠ 1 → t.active ≠ 0 → t.poisonRead off.toList = none → s.remoteCause k t ls z false = none → s.unsent t = false →
      let rs := s.remoteLanes k t ls false
      (∀ x, (rs.find? fun y => s.noRoute y.page.pkg) = some x →
        exec (.rld f) s = .next (s.takeTrap k 83 { pass := x.lane / 32, addr := x.addr })) ∧
      let rows := (rs.map fun x => x.lane / 32).eraseDups
      ((∀ x ∈ rs, s.noRoute x.page.pkg = false) → s.resultRoom (coreOf k) rows.length = false →
        exec (.rld f) s = .next (s.takeTrap k 42 { pass := rows.headD 0 })) ∧
      ((∀ x ∈ rs, s.noRoute x.page.pkg = false) → s.resultRoom (coreOf k) rows.length = true →
        ∃ s' p ss, exec (.rld f) s = .next s' ∧ OthersStand k s s' ∧ SameMemory s s' ∧
          (s'.team? k).map (fun u => (u.wait, u.pc)) = some (.reply s.serial, t.pc) ∧
          (Table.find? s'.ops s.serial).map (fun o => (o.uid, o.cls, o.work)) = some (t.uid, 4, .remote ss) ∧
          ss.map (fun x => (x.pkg, x.req.addr, x.req.kind)) = (linesOf rs).map (fun y => (y.1, y.2, .read 64)) ∧
          Table.find? s'.pendings s.serial = some p ∧ p.team = t.uid ∧ p.kind = 2 ∧ p.size = z ∧
          p.reads = rs.map fun x => (x.lane, (linesOf rs).idxOf (x.page.pkg, x.page.pa / 64 * 64), x.addr)))) ∧
  ∀ (f : FmtE) (s : State) (k : Nat) (t : Team) (x : (FmtE → Instr) × Bool),
    x ∈ ([(Instr.rst, false), (Instr.ratom, true)] : List ((FmtE → Instr) × Bool)) → Ready s k t (x.1 f) →
    let op := (f.f.extractLsb' 0 4).toNat
    let z := if x.2 then (if f.f.getLsbD 4 then 4 else 8) else sizeOfZ (f.f.extractLsb' 0 2)
    let off := if x.2 then some (f.p.toNat + 1) else if f.f.getLsbD 2 then some f.w.toNat else none
    let srcs := if x.2 = false then f.p.toNat :: off.toList
      else if op = 9 then [f.p.toNat, f.p.toNat + 1, f.p.toNat + 2] else [f.p.toNat, f.p.toNat + 1]
    let ls := laneAddrs t t.active (t.s f.q) z off
    let rs := s.remoteLanes k t ls true
    let does := fun (y : RemoteLane) => if x.2 then
        .atomic op z (f.w.getLsbD 0) (t.lane f.p.toNat y.lane) (if op = 9 then t.lane (f.p.toNat + 2) y.lane else 0)
          (!f.f.getLsbD 5)
      else RemoteKind.write (toBytes z (t.lane f.p.toNat y.lane).toNat)
    let rows := (rs.map fun y => y.lane / 32).eraseDups
    let room := x.2 = false ∨ f.f.getLsbD 5 = true ∨ s.resultRoom (coreOf k) rows.length = true
    t.poisonRead srcs = none → s.remoteCause k t ls z true = none →
      (rs = [] → ∃ s', exec (x.1 f) s = .next s' ∧ Completed (x.1 f) k s s' t) ∧
      (rs ≠ [] → s.unsent t = false → ¬room → exec (x.1 f) s = .next (s.takeTrap k 42 {})) ∧
      (rs ≠ [] → s.unsent t = false → room → (∀ y ∈ rs, s.noRoute y.page.pkg = false) →
        ∃ s' o ss, exec (x.1 f) s = .next s' ∧ Past (x.1 f) k s' t ∧ OthersStand k s s' ∧ SameMemory s s' ∧
          Table.find? s'.ops s.serial = some o ∧ o.cls = 2 ∧ o.batch = t.batchF.opened ∧ o.work = .remote ss ∧
          ss.map (fun r => (r.pkg, r.va, r.req.addr, r.req.kind)) = rs.map (fun y => (y.page.pkg, y.addr, y.page.pa, does y)) ∧
          (x.2 = true → f.f.getLsbD 5 = false → ∃ p, Table.find? s'.pendings s.serial = some p ∧ p.team = t.uid ∧ p.kind = 2 ∧
            p.size = z ∧ p.targets = rows.map fun row => .slice f.p.toNat row (rowBits t.active row) [] 0 0) ∧
          (x.2 = false ∨ f.f.getLsbD 5 = true → s'.pendings = s.pendings)) ∧
      ∀ y, s.unsent t = false → room → (rs.find? fun r => s.noRoute r.page.pkg) = some y → Table.wf s.ops = true →
        (∀ j u, s.team? j = some u → u.uid = t.uid → j = k) →
        ∃ s' u, exec (x.1 f) s = .next s' ∧ OthersStand k s s' ∧ SameMemory s s' ∧ Table.find? s'.ops s.serial = none ∧
          s'.team? k = some u ∧ u.batchF.failed =
            t.batchF.failed ++ [{ batch := t.batchF.opened, cause := 83, issue := t.pc, addr := y.addr }]

/-- R354 to R356, R358: PUTSIG checks its length and its flag's address at issue and is then one operation of the open F batch,
which sends what it can at once; RFENCE waits until none of the team's operations is unacknowledged, reports the lowest batch that
failed, by its first failure in program order (log 36, DESIGN CHOICE), or performs the release of its scope. -/
def Claim.SignalsAndFences : Prop :=
  (∀ (f : FmtE) (s : State) (k : Nat) (t : Team), Ready s k t (.putsig f) →
    let r := fun i => t.s (f.p + BitVec.ofNat 5 i)
    let len := r 2 &&& 0xFFFFFFFF
    let short := r 2 >>> 32 = 0 ∧ len.toNat ≤ 1048576
    (¬short → exec (.putsig f) s = .next (s.takeTrap k 4 {})) ∧
    (short → (r 3).toNat % 8 ≠ 0 → exec (.putsig f) s = .next (s.takeTrap k 18 { addr := r 3 })) ∧
    (short → (r 3).toNat % 8 = 0 → s.unsent t = true → exec (.putsig f) s = .next (s.parkTeam k .fabric)) ∧
    (short → (r 3).toNat % 8 = 0 → s.unsent t = false → exec (.putsig f) s = .next
      (((s.begin k t 2 (.putsig (r 0) (r 1) len (r 3) (r 4) (f.f.getLsbD 0) 0 [] none)).putsigGo s.serial).complete k t
        (.putsig f)))) ∧
  ∀ (f : FmtE) (s : State) (k : Nat) (t : Team), Ready s k t (.rfence f) →
    let b := t.batchF
    (s.fabricBusy t = true → exec (.rfence f) s = .next (s.parkTeam k .fabric)) ∧
    (s.fabricBusy t = false →
      (∀ x before after, b.failed = before ++ x :: after → x.batch ≤ b.opened → (∀ y ∈ before, x.batch < y.batch) →
        (∀ y ∈ after, x.batch ≤ y.batch) →
        exec (.rfence f) s = .next ((s.putTeam k { t with
            batchF := { b with failed := b.failed.filter fun y => y.batch != x.batch } }).takeTrap k x.cause
          { addr := x.addr, eng := true, cls := 2, issue := x.issue, batch := BitVec.ofNat 64 x.batch })) ∧
      ((∀ y ∈ b.failed, b.opened < y.batch) →
        (∀ s1 w, s.release k t (f.f.extractLsb' 0 3).toNat = (s1, some w) →
          exec (.rfence f) s = .next (s1.parkTeam k w)) ∧
        (s.valueDue t.uid = none → (∀ l ∈ (s.core (coreOf k)).lines, l.ctx = t.ctx → l.dirty = 0) →
          s.flightsOf (coreOf k) t.ctx = [] → ∃ s', exec (.rfence f) s = .next s' ∧ Past (.rfence f) k s' t ∧ OnlyTeam Core.stillL1 k s s')))

/-- R346, R350, R351, R352, R353, R354, R355, R356, R363, R358: RLD, RST, RATOM, PUTSIG and RFENCE. -/
def Obligations.RemoteAccess : Prop := Claim.RemoteLanes ∧ Claim.SignalsAndFences

/-- R351 to R355: what a PUTSIG sends. One that meets no fault has sent its payload, each byte to the home of its place and in
order, and its flag after it: together with the payload where all of it goes to one package, which orders them by the numbers that
the requests carry, and otherwise only once the payload has been acknowledged. -/
def Claim.SignalsSent : Prop :=
  ∀ (s : State) (id : Nat) (o : Op) (src dst len flag val : Word) (add : Bool), Table.find? s.ops id = some o →
    o.work = .putsig src dst len flag val add 0 [] none → o.miss = none → (∀ e ∈ s.flights, e.2.add = none) →
    s.putsigCause o flag = none →
    (s.putsigPull o ((List.range len.toNat).map fun i => (src + BitVec.ofNat 64 i, dst + BitVec.ofNat 64 i)) []).2 = none →
    let s' := s.putsigGo id
    let fl := s.remoteHome o flag
    let runs := (putsigRuns dst ((List.range len.toNat).map fun i => s.engineByte o (src + BitVec.ofNat 64 i))).filter
      fun w => !w.2.isEmpty
    let one := ∀ w ∈ runs, (s.remoteHome o w.1).1 = fl.1
    SameMemory s s' ∧
    (one → ∃ x rs l, Table.find? s'.ops id = some x ∧ x.since = s.clock ∧ x.work = .remote (rs ++ [l]) ∧
      rs.map (fun r => ((r.pkg, r.req.addr), r.va, r.req.kind, r.req.signal)) =
        runs.map (fun w => (s.remoteHome o w.1, w.1, .write w.2, some (id, 0))) ∧
      ((l.pkg, l.req.addr), l.va, l.req.kind) = (fl, flag, flagKind val add) ∧
      l.req.signal = if runs = [] then none else some (id, runs.length)) ∧
    (¬one → ∃ x rs l, Table.find? s'.ops id = some x ∧
      x.work = .putsig src dst len flag val add len.toNat rs (some l) ∧
      rs.map (fun r => ((r.pkg, r.req.addr), r.va, r.req.kind)) = runs.map (fun w => (s.remoteHome o w.1, w.1, .write w.2)) ∧
      ((l.pkg, l.req.addr), l.va, l.req.kind) = (fl, flag, flagKind val add) ∧
      Table.find? (s'.putsigAcked id x).ops id = some { x with work := .remote [l] })

/-- R351 to R355, R363, R364: what the fabric brings to this package's operations (log 18, DESIGN CHOICE). A reply with all
lines of a read gives each lane its bytes, zero-extended, and poisons the slices of the lanes whose line was uncorrectable; the
old values of an atomic arrive in its lanes; an acknowledgement ends a posted operation or fails it, and so does a timeout. A
failed read raises its cause when its word issues again, at the mask word and with the address of the request that failed (log
41, DEDUCED). What is not sent yet does not time out. -/
def Claim.FabricReplies : Prop :=
  (∀ (s : State) (id k : Nat) (r : RemoteAnswer) (p : Pending) (o : Op) (t : Team), s.detail = .answer id r →
    Table.find? s.pendings id = some p → Table.find? s.ops id = some o → Table.wf s.teams = true →
    Table.wf s.pendings = true → Table.wf s.ops = true → s.team? k = some t → t.uid = o.uid →
    (∀ j u, s.team? j = some u → u.uid = t.uid → j = k) →
    let plain := ∀ x ∈ o.work.requests, ∀ d b v, x.req.kind ≠ .performed d b v
    let room := (s.core (coreOf k)).slices.length + p.targets.length ≤ sliceRoom
    (∀ ls, r = .lines ls → o.cls = 4 → plain → ls.length = o.work.requests.length → room →
      ∃ s', exec .remoteReply s = .next s' ∧ Table.find? s'.pendings id = none ∧ Table.find? s'.ops id = none ∧ SameMemory s s' ∧
        OthersStand k s s' ∧ s'.team? k = some { (p.targets.map fun g => g.fromLines p ls).foldl Team.deliver t with
          phase := 1, wait := .ready }) ∧
    (∀ vs, r = .done vs → o.cls = 2 → plain → vs.length = o.work.requests.length → room → (∀ e ∈ s.teams, e.2.wait ≠ .retire) →
      ∃ s' u, exec .remoteReply s = .next s' ∧ Table.find? s'.pendings id = none ∧ Table.find? s'.ops id = none ∧
        SameMemory s s' ∧ OthersStand k s s' ∧ s'.team? k = some u ∧ u.v = ((fillTargets p.size p.targets vs).foldl Team.deliver t).v ∧ u.pc = t.pc) ∧
    (∀ c, r = .failed c → o.cls = 4 → ∃ s', exec .remoteReply s = .next s' ∧ Table.find? s'.pendings id = none ∧
      Table.find? s'.ops id = none ∧ SameMemory s s' ∧ OthersStand k s s' ∧
      ∃ va, s'.team? k = some { t with resume := p.rowOf 0, raised := some (c, va), wait := .ready } ∧
        ∀ x rest, o.work.requests = x :: rest → va = x.va) ∧
    (∀ c n x, r = .failedAt n c → o.work.requests[n]? = some x →
      (o.cls = 4 → ∃ s', exec .remoteReply s = .next s' ∧ Table.find? s'.pendings id = none ∧ Table.find? s'.ops id = none ∧
        SameMemory s s' ∧ OthersStand k s s' ∧
        s'.team? k = some { t with resume := p.rowOf n, raised := some (c, x.va), wait := .ready }) ∧
      (o.cls = 2 → exec .remoteReply s = .next ({ s with pendings := Table.del s.pendings id }.endOp id (some (c, x.va))))) ∧
    (∀ c, r = .failed c → o.cls = 2 → ∀ x rest, o.work.requests = x :: rest → exec .remoteReply s = .next
      ({ s with pendings := Table.del s.pendings id }.endOp id (some (c, x.va))))) ∧
  (∀ (p : Pending) (ls : List (BitVec 512 × Bool)) (d row : Nat) (m : BitVec 32) (vs : List Word) (c : Nat) (a : Word),
    ∃ vs' c' a', (Target.slice d row m vs c a).fromLines p ls = .slice d row m vs' c' a' ∧
      (∀ i x, i < 32 → x ∈ p.reads → x.1 = 32 * row + i → (∀ y ∈ p.reads, y.1 = x.1 → y = x) →
        vs'.getD i 0 = BitVec.ofNat 64 (lineNumber (ls.getD x.2.1 (0, false)).1 (x.2.2.toNat % 64) p.size)) ∧
      ((∀ x ∈ p.reads, x.1 / 32 = row → (ls.getD x.2.1 (0, false)).2 = false) → c' = 0) ∧
      ((∃ x ∈ p.reads, x.1 / 32 = row ∧ (ls.getD x.2.1 (0, false)).2 = true) → c' = 84)) ∧
  (∀ (p : Pending) (n i a : Nat) (w : Word), p.reads.find? (fun x => x.2.1 == n) = some (i, a, w) → p.rowOf n = i / 32) ∧
  (∀ (z r row : Nat) (m : BitVec 32) (vals vs : List Word) (c : Nat) (a : Word), ∃ vs',
    fillTargets z [.slice r row m vals c a] vs = [.slice r row m vs' 0 a] ∧
      ∀ i, i < 32 → m.getLsbD i = true → vs'.getD i 0 =
        BitVec.ofNat 64 ((vs.getD ((List.range i).filter fun j => m.getLsbD j).length 0).toNat % 2 ^ (8 * z))) ∧
  (∀ (s : State) (id : Nat) (r : RemoteAnswer) (o : Op), s.detail = .answer id r → Table.find? s.ops id = some o →
    (o.cls = 4 ∨ Table.find? s.pendings id ≠ none ∨ o.work.requests = [] → exec .fabricAck s = .next s) ∧
    ∀ x rest, o.cls ≠ 4 → Table.find? s.pendings id = none → o.work.requests = x :: rest →
      (∀ c, r = .failed c → exec .fabricAck s = .next
        (({ s with pendings := Table.del s.pendings id }.endOp id (some (c, x.va))).pinsAfter o (x :: rest))) ∧
      (∀ c n y, r = .failedAt n c → (x :: rest)[n]? = some y → exec .fabricAck s = .next
        (({ s with pendings := Table.del s.pendings id }.endOp id (some (c, y.va))).pinsAfter o (x :: rest))) ∧
      (∀ vs, r = .done vs →
        (o.work = .remote (x :: rest) → (∀ y ∈ x :: rest, ∀ a b, y.req.kind ≠ .publish a b) →
          exec .fabricAck s = .next (s.endOp id o.fault)) ∧
        (o.work = .remote (x :: rest) → (∃ y ∈ x :: rest, ∃ a b, y.req.kind = .publish a b) →
          exec .fabricAck s = .next ((s.endOp id (o.fault.or (vs.head?.map fun c => (c.toNat, 0)))).publishedAll o (x :: rest))) ∧
        (o.work ≠ .remote (x :: rest) → exec .fabricAck s = .next (s.putsigAcked id o)))) ∧
  ∀ (s : State) (id n : Nat) (o : Op), s.detail = .place id n → Table.find? s.ops id = some o →
    (2 * (s.clock - o.since) < max 1 s.fabto.toNat → exec .fabricTimeout s = .next s) ∧
    (max 1 s.fabto.toNat ≤ 2 * (s.clock - o.since) →
      (∀ a b c sent, o.work = .contribute a b c sent →
        (sent = true → o.miss = none → exec .fabricTimeout s = .next (s.endOp id (some (80, 0)))) ∧
        (sent = false ∨ o.miss ≠ none → exec .fabricTimeout s = .next s)) ∧
      ∀ x rest, o.work.requests = x :: rest →
        (o.cls ≠ 4 → exec .fabricTimeout s = .next
          (({ s with pendings := Table.del s.pendings id }.endOp id (some (80, x.va))).pinsAfter o (x :: rest))))

/-- R361, R363, R364: forwarding, replay and links. A forwarded request goes on to where its page is, in another package or a CXL
pool, with the number that it had, and its event and its count say so; the fifth forwarding fails it. A flag whose payload has
moved is held until the payload is acknowledged. A replay counts what is not acknowledged, and a
link that retrains comes up where the two summaries agree (what LINKUP shows meanwhile is log 40, DEDUCED). -/
def Claim.FabricEvents : Prop :=
  (∀ (s : State) (id n pkg base : Nat) (cxl : Bool) (ptr : Word) (o : Op) (x : Sent),
    s.detail = .forwarded id n cxl pkg ptr base → Table.find? s.ops id = some o → o.work.requests[n]? = some x →
    let c := s.ctx o.ctx
    let s1 := (s.putCtx o.ctx { c with fwdcnt := c.fwdcnt + 1 }).post
      { kind := 6, cause := 0, ctx := o.ctx, addr := x.va, data := ptr, source := sourceOf o.key c.part }
    let pa := ptr.toNat / 65536 * 65536 + x.req.addr % 65536
    -- the request as it goes on: its number and the line that it was sent to first stay with it
    let there := fun (p : Nat) => { x with
      pkg := p, forwards := x.forwards + 1
      req := { x.req with addr := pa, origin := some (x.req.origin.getD (x.pkg, x.req.addr / 64)), base := base } }
    let moved := fun (z : State) (y : Sent) => { z with ops := Table.put z.ops id { o with work := o.work.redirect n y } }
    (4 ≤ x.forwards → exec .forwardingPointer s = .next (s1.failRemote id n 82)) ∧
    (x.forwards < 4 → cxl = false → exec .forwardingPointer s = .next (moved s1 (there pkg))) ∧
    (x.forwards < 4 → cxl = true → o.work.flagHeld n = true → exec .forwardingPointer s = .next (moved s1 (there x.pkg))) ∧
    (x.forwards < 4 → cxl = true → o.work.flagHeld n = false →
      ((isCxl pa = false ∨ Config.cxlMapped (pa / 64) = false) → exec .forwardingPointer s = .next (s1.failRemote id n 21)) ∧
      (isCxl pa = true → Config.cxlMapped (pa / 64) = true →
        let done := fun (z : State) (q : RemoteKind) => moved z { there x.pkg with req := { (there x.pkg).req with kind := q } }
        (∀ m, x.req.kind = .read m → exec .forwardingPointer s =
          .next (done s1 (.performed (s1.lineData pa) (s1.badData pa) 0))) ∧
        (∀ bs, x.req.kind = .write bs → exec .forwardingPointer s =
          .next (done (s1.homeWriteRun pa bs (some 0)) (.performed 0 false 0))) ∧
        ∀ op w u d new ret, x.req.kind = .atomic op w u d new ret →
          (s1.atomicAt pa op w u d.toNat new.toNat = none → exec .forwardingPointer s = .next (s1.failRemote id n 84)) ∧
          ∀ s2 old, s1.atomicAt pa op w u d.toNat new.toNat = some (s2, old) →
            exec .forwardingPointer s = .next (done s2 (.performed 0 false (BitVec.ofNat 64 old)))))) ∧
  (∀ (rs : List Sent) (n : Nat) (y : Sent), n < rs.length →
    (y.req.signal = none → (Work.remote rs).redirect n y = .remote (rs.set n y)) ∧
    (y.req.signal ≠ none → ∃ a b c d v e g ps l, (Work.remote rs).redirect n y = .putsig a b c d v e g ps (some l) ∧
      ps ++ [l] = (rs.set n y).map fun r => { r with req := { r.req with signal := none } })) ∧
  (∀ (s : State) (id : Nat) (o : Op) (a b c d v : Word) (e : Bool) (g : Nat) (rs : List Sent) (l : Sent),
    o.work = .putsig a b c d v e g rs (some l) → 0 < l.forwards → isCxl l.req.addr = true →
    let sent := { s with ops := Table.put s.ops id { o with work := .remote [l] } }
    (Config.cxlMapped (l.req.addr / 64) = false → s.putsigAcked id o = sent.failRemote id 0 21) ∧
    (Config.cxlMapped (l.req.addr / 64) = true → ∀ bs, l.req.kind = .write bs →
      s.putsigAcked id o = (sent.homeWriteRun l.req.addr bs (some 0)).endOp id o.fault)) ∧
  (∀ s : State, ∃ n, exec .fabricReplay s = .next { s with fabreplay := s.fabreplay + BitVec.ofNat 64 n } ∧
    ((∀ e ∈ s.ops, e.2.work.requests = [] ∧ ∀ a b, e.2.work ≠ .contribute a b none true) → n = 0) ∧
    ((∀ e ∈ s.ops, e.2.work.requests ≠ [] ∨
        ∃ a b, e.2.work = .contribute a b none true ∧ bitsOf b 40 16 ≠ s.pkgnum ∧ e.2.miss = none) → n = s.ops.length)) ∧
  (∀ (s : State) (j n : Nat), s.detail = .place j n →
    let l := Table.getD s.links j {}
    (30 ≤ j ∨ l.retraining = true → exec .retrainingStart s = .next s) ∧
    (j < 30 → l.retraining = false → exec .retrainingStart s =
      .next { s with links := Table.put s.links j { l with retraining := true }, linkrt := s.linkrt + 1 })) ∧
  ∀ (s : State) (j : Nat) (a b : LinkSummary), s.detail = .summary j a b →
    let l := Table.getD s.links j {}
    (l.retraining = false → exec .linkRetrain s = .next s) ∧
    (l.retraining = true → a = b →
      exec .linkRetrain s = .next { s with links := Table.put s.links j { up := true, width := a.width } }) ∧
    (l.retraining = true → a ≠ b → l.mismatches < 2 → exec .linkRetrain s = .next { s with
      links := Table.put s.links j { l with mismatches := l.mismatches + 1 }, linkrt := s.linkrt + 1 }) ∧
    (l.retraining = true → a ≠ b → 2 ≤ l.mismatches → exec .linkRetrain s = .next { s with links := Table.put s.links j {} })

/-- R346, R347, R354, R356, R361, R364: a request of another package is performed once, in its turn among those of its team to its
line, and a flag after the payload that it counts: a repeat is discarded and one that comes early is held. It reads and changes
only device memory that the context of its group owns, and not a page that has migrated (log 18), whose answer tells up to which number it was performed here: the home that a request
goes on to counts from there. A merging FP32 sum that need
not return may join a contribution on its way, as free values choose (log 23, DESIGN CHOICE). -/
def Claim.RemoteRequests : Prop :=
  (∀ (s : State) (page pkg a : Nat) (cxl : Bool), s.detail = .migrated page cxl pkg a →
    exec .remoteRequest s = .next { s with moved := Table.put s.moved page (cxl, pkg, a) }) ∧
  ∀ (s : State) (r : RemoteRequest), s.detail = .request r →
    (r.seq ≤ s.heardSeq r → exec .remoteRequest s = .next s) ∧
    (s.heardSeq r + 1 < r.seq → r ∉ s.held → exec .remoteRequest s = .next { s with held := s.held ++ [r] }) ∧
    (r.seq = s.heardSeq r + 1 → r.signal = none → s.held = [] →
      exec .remoteRequest s = .next (s.hear r) ∧ (s.hear r).heardSeq r = r.seq) ∧
    (∀ n m, r.signal = some (n, m) → r.seq = s.heardSeq r + 1 →
      ((s.signalOf r n).count < m → r ∉ s.held → exec .remoteRequest s = .next { s with held := s.held ++ [r] }) ∧
      (m ≤ (s.signalOf r n).count → s.held = [] → exec .remoteRequest s = .next (s.hear r)) ∧
      (m = 0 → (∀ cxl pkg a x, (s.performRequest r).2 ≠ .moved cxl pkg a x) →
        ((s.hear r).signalOf r n).count = ((s.performRequest r).1.signalOf r n).count + 1) ∧
      (m = 0 → (Table.find? s.moved (r.addr / 65536)).isSome → ((s.hear r).signalOf r n).count = (s.signalOf r n).count) ∧
      (0 < m → ∀ c, (s.signalOf r n).failed = some c → SameMemory s (s.hear r))) ∧
    (∀ cxl pkg a, Table.find? s.moved (r.addr / 65536) = some (cxl, pkg, a) → s.performRequest r = (s, .moved cxl pkg a (s.performedSeq r))) ∧
    r.base ≤ s.heardSeq r ∧
    (Table.find? s.moved (r.addr / 65536) = none →
      (s.ctxOfGid r.gctx = none → s.performRequest r = (s, .failed 81)) ∧
      ∀ c, s.ctxOfGid r.gctx = some c →
        (isDevice r.addr = false ∨ s.owner r.addr ≠ c → ∀ n bs op z u d new ret,
          (r.kind = .read n ∨ r.kind = .write bs ∨ r.kind = .atomic op z u d new ret → s.performRequest r = (s, .failed 81))) ∧
        (isDevice r.addr = true → s.owner r.addr = c → Memory.wf s.mem = true →
          (∀ n, r.kind = .read n → s.performRequest r = (s, .lines ((List.range ((n + 63) / 64)).map fun i =>
            (s.lineData (r.addr + 64 * i), s.badData (r.addr + 64 * i))))) ∧
          (∀ bs, r.kind = .write bs → bs ≠ [] → s.badRun r.addr bs.length = false → (s.performRequest r).2 = .done [] ∧
            (∀ i, i < bs.length → (s.performRequest r).1.byte (r.addr + i) = bs.getD i 0) ∧
            SameOutside r.addr bs.length s (s.performRequest r).1) ∧
          (∀ op z u d new ret, r.kind = .atomic op z u d new ret → s.badData r.addr = false → r.addr % z = 0 → (z = 4 ∨ z = 8) →
            (ret = true ∨ op ≠ 1 ∨ (∀ e ∈ s.flights, e.2.add = none)) →
            (s.performRequest r).2 = .done (if ret then [BitVec.ofNat 64 (ofBytes (s.bytes r.addr z))] else []) ∧
            (s.performRequest r).1.bytes r.addr z = toBytes z
              (atomicResult op z u (ofBytes (s.bytes r.addr z)) (d.toNat % 2 ^ (8 * z)) (new.toNat % 2 ^ (8 * z))) ∧
            SameOutside r.addr z s (s.performRequest r).1) ∧
          ∀ z u d new, r.kind = .atomic 1 z u d new false → s.badData r.addr = false → r.addr % z = 0 → (z = 4 ∨ z = 8) →
            Table.wf s.flights = true → (s.performRequest r).2 = .done [] ∧
            (((s.performRequest r).1.bytes r.addr z = toBytes z
                (atomicResult 1 z u (ofBytes (s.bytes r.addr z)) (d.toNat % 2 ^ (8 * z)) (new.toNat % 2 ^ (8 * z))) ∧
              SameOutside r.addr z s (s.performRequest r).1) ∨
            ∃ id g y, Table.find? s.flights id = some g ∧ g.ctx = c ∧ g.into = none ∧ g.add = some (r.addr, y) ∧
              SameMemory s (s.performRequest r).1 ∧ Table.find? (s.performRequest r).1.flights id =
                some { g with add := some (r.addr, (fp32.add y (d.toNat % 2 ^ 32)).1) })))

/-- R351, R352, R353, R354, R355, R363, R364, R361, R346, R347, R356: What the fabric brings: replies, timeouts, retraining, and
requests of other packages. -/
def Obligations.FabricSide : Prop := Claim.SignalsSent ∧ Claim.FabricReplies ∧ Claim.FabricEvents ∧ Claim.RemoteRequests

/-! ### Traps and special registers -/

/-- R375: TRAP raises cause 5 and BKPT cause 6, each with its IMM as the CODE of TINFO, and neither has another effect: a team
with a handler enters it, and nothing but that team has changed. -/
def Obligations.SoftwareTraps : Prop :=
  ∀ (f : FmtE) (s : State) (k : Nat) (t : Team) (i : Instr) (c : Nat), (i, c) ∈ [(Instr.trap f, 5), (Instr.bkpt f, 6)] →
    Ready s k t i →
    exec i s = .next (s.takeTrap k c { code := immOfE f }) ∧
    (isCoreKey k = true → t.role ≠ .system → t.role ≠ .prologue → t.role ≠ .loader → t.trap.entry ≠ 0 → t.trap.inh = false →
      ∃ s' u, exec i s = .next s' ∧ s'.team? k = some u ∧ s' = { s with teams := s'.teams } ∧
        (∀ j, j ≠ k → s'.team? j = s.team? j) ∧ u.trap.cause = c ∧ u.trap.code = immOfE f ∧ u.trap.tpc = t.pc ∧ u.pc = t.trap.entry)

/-- R205, R369, R371 to R373, R376: a cause at a word kills the context where the team has no handler, is in it, or is a loader,
and otherwise fills the trap registers and goes to the handler, with registers, masks, stack and loops as they are. A system
thread restarts the supervisor image after an event (its entry is log 20, DESIGN CHOICE; firmware-level code alike, log 22,
DEDUCED), and a prologue fails its launch. RETT goes back to the word and its pass, or past the word; where that is no legal
target it raises cause 11 (R33), and outside a handler cause 2 (log 10, DEDUCED, against its other checks). A poisoned slice
that the cause names has been read. -/
def Obligations.Traps : Prop :=
  (∀ (s : State) (k : Nat) (t : Team) (c : Nat) (i : TrapInfo), s.team? k = some t → t.role ≠ .system → t.role ≠ .prologue →
    let s' := s.takeTrap k c i
    (t.trap.entry = 0 ∨ t.trap.inh = true ∨ t.role = .loader → s' = s.kill t.ctx 120 c t.pc (sourceOf k t.part)) ∧
    (t.trap.entry ≠ 0 → t.trap.inh = false → t.role ≠ .loader →
      s' = { s with teams := s'.teams } ∧ (∀ j, j ≠ k → s'.team? j = s.team? j) ∧
      ∃ u, s'.team? k = some u ∧ u.pc = t.trap.entry ∧
        u.trap = { t.trap with
          cause := c, inh := true, tpc := t.pc, addr := i.addr, pass := i.pass, eng := i.eng, cls := i.cls, code := i.code
          issue := i.issue, batch := i.batch, depth := t.stack.length } ∧
        u.poison = t.poison.map (fun q => if i.slice = some (q.reg, q.row) then { q with read := true } else q) ∧
        u.v = t.v ∧ u.p = t.p ∧ u.sr = t.sr ∧ u.x = t.x ∧ u.live = t.live ∧ u.active = t.active ∧ u.stack = t.stack ∧
        u.loops = t.loops ∧ u.nflags = t.nflags ∧ u.pendingBars = t.pendingBars ∧
        u.batchC = t.batchC ∧ u.batchM = t.batchM ∧ u.batchF = t.batchF ∧ u.batchQ = t.batchQ)) ∧
  (∀ (s : State) (k : Nat) (t : Team) (c : Nat) (i : TrapInfo), s.team? k = some t → isCoreKey k = false → t.role = .system →
    s.evq.full = false →
    ∃ u, (s.takeTrap k c i).team? k = some u ∧ u.pc = BitVec.ofNat 64 s.supEntry ∧ u.level = 1 ∧ u.loops = [] ∧ u.stack = [] ∧
      (∀ r, u.s r = if r = 2 then 3 else 0) ∧ (s.takeTrap k c i).evq.tail = (s.evq.tail + 1) % s.evq.size) ∧
  (∀ (s : State) (k : Nat) (t : Team) (c : Nat) (i : TrapInfo), s.team? k = some t → t.role = .prologue →
    s.takeTrap k c i = (s.failLaunch t.launch c).putTeam k (Team.thread t.uid .prologue 0 .idle)) ∧
  (∀ (f : FmtE) (s : State) (k : Nat) (t : Team), s.actor = k → s.team? k = some t → t.role ∈ [Role.alone, .computer, .storer] →
    t.trap.inh = false → exec (.rett f) s = .next (s.takeTrap k 2 {})) ∧
  ∀ (f : FmtE) (s : State) (k : Nat) (t : Team), Ready s k t (.rett f) →
    (t.trap.inh = true → t.stack.length ≠ t.trap.depth → exec (.rett f) s = .next (s.takeTrap k 7 {})) ∧
    ∀ pc : Word, t.trap.inh = true → t.stack.length = t.trap.depth →
      (f.f.getLsbD 0 = false ∧ pc = t.trap.tpc ∨ f.f.getLsbD 0 = true ∧
        ∃ w, s.peek k t t.trap.tpc = some w ∧ pc = t.trap.tpc + if isLiteralWord w then 8 else 4) →
      (targetAddrOk pc = false → exec (.rett f) s = .next (s.takeTrap k 11 {})) ∧
      (targetAddrOk pc = true →
        ∃ s' u, exec (.rett f) s = .next s' ∧ OnlyTeam Core.still k s s' ∧ s'.team? k = some u ∧ u.pc = pc ∧
          u.trap = { t.trap with inh := false } ∧ u.chained = false ∧ u.inPacket = false ∧ u.v = t.v ∧ u.p = t.p ∧ u.sr = t.sr ∧
          u.active = t.active ∧ u.live = t.live ∧ u.stack = t.stack ∧ u.nflags = t.nflags ∧
          u.resume = if f.f.getLsbD 0 then 0 else t.trap.pass)

/-- R369, R377, R394: which unit's register an access addresses: a core that of the issuing team; a control core that of SYSSEL
and LQSEL. -/
def Claim.RegisterPlaces : Prop :=
  ∀ (s : State) (k : Nat) (t : Team),
    let p := s.placeOf k t
    (isCoreKey k = true → p.key = k ∧ p.core = k / 64 ∧ p.die = k / 4096 ∧ p.ctx = t.ctx ∧ p.part = t.part) ∧
    (isCoreKey k = false → ∀ w n, s.syssel[dieOf k]? = some w → s.lqsel[dieOf k]? = some n →
      p.ctx = bitsOf w 0 8 ∧ p.die = bitsOf w 8 2 ∧ p.core = 64 * bitsOf w 8 2 + bitsOf w 10 6 ∧
      p.key = 64 * p.core + bitsOf w 16 6 ∧ p.part = bitsOf w 22 4 ∧ p.queue = n ∧ p.own = dieOf k)

/-- R99, R145, R291, R345, R368, R373, R377, R394, R396, R411, R428, R437, R440: SRD writes the register that IMM names, with the
value of its table; an index with no register raises cause 4, one beyond the level cause 2. Registers of a team that is not there
read zero (log 62, DEDUCED), PARTSTAT codes a partition as log 65 (DEDUCED) says, and MMAOPS counts as log 46 (DEDUCED) says. -/
def Claim.RegisterReads : Prop :=
  (∀ (f : FmtE) (s : State) (k : Nat) (t : Team), Ready s k t (.srd f) →
    (regLevel (immOfE f) = none → exec (.srd f) s = .next (s.takeTrap k 4 {})) ∧
    (immOfE f = 0x030 → isCoreKey k = true → s.matrixBusy t.uid = true → exec (.srd f) s = .next (s.parkTeam k .engine)) ∧
    (∀ n, immOfE f = n → regLevel n ≠ none → n ≠ 0x0C7 → s.flagsBusy k t n = false →
      let p := s.placeOf k t
      let reads := fun v => ∃ s', exec (.srd f) s = .next s' ∧ Completed (.srd f) k s s' (t.setS f.p v)
      let w := BitVec.ofNat 64
      (n = 0x0A1 → reads (w t.level)) ∧
      (∀ u v, s.team? p.key = some u → (n, v) ∈ [(0x013, w u.loops.length), (0x014, w u.stack.length), (0x015, u.dsbase),
          (0x022, w u.policy), (0x023, w u.vdecl), (0x030, u.nflags.setWidth 64), (0x050, w (p.key % 64 + 256 * u.leader)),
          (0x052, w (u.window.1 + 65536 * u.window.2)), (0x070, u.ldvlim), (0x071, u.pself), (0x090, u.trap.entry),
          (0x091, w (u.trap.cause + if u.trap.inh then 256 else 0)), (0x092, u.trap.tpc), (0x093, u.trap.addr),
          (0x094, w (u.trap.pass + (if u.trap.eng then 32 + 64 * u.trap.cls else 0) + 65536 * u.trap.code)),
          (0x095, u.trap.issue), (0x096, u.trap.batch), (0x097, u.trap.scratch)] → reads v) ∧
      (∀ u l, s.team? p.key = some u → (n = 0x010 → u.loops.reverse[0]? = some l → reads (w l.count)) ∧
        (n = 0x011 → u.loops.reverse[1]? = some l → reads (w l.count)) ∧
        (n = 0x012 → u.loops.reverse[2]? = some l → reads (w l.count))) ∧
      (∀ v, let x := s.core p.core
        (n, v) ∈ [(0x001, w s.clock), (0x002, w (2 * s.clock)), (0x003, w p.core), (0x016, x.slips), (0x020, x.ruhits), (0x021, x.rulook),
          (0x024, w (sliceRoom - x.resident)), (0x025, x.slspill), (0x026, x.slbase), (0x027, w x.spillres),
          (0x054, x.mmaops), (0x0BC, w x.tasks.length)] → reads v) ∧
      (∀ v, let x := s.ctx p.ctx
        let q := s.queue p.ctx p.queue
        (n, v) ∈ [(0x017, Table.getD x.dspool p.core 0), (0x040, x.bargrant), (0x060, x.csArena), (0x061, x.csSize),
          (0x072, x.pgBase), (0x073, w x.pgSize), (0x074, x.psilent), (0x076, if x.pautox then 1 else 0),
          (0x077, Table.getD x.qgrant p.die 0), (0x078, x.psdef), (0x085, x.fwdcnt), (0x086, w x.gid), (0x0A2, x.ptroot),
          (0x0A3, w ((if x.alive then 1 else 0) + (if x.key.isSome then 2 else 0) + (if x.killed then 4 else 0))),
          (0x0A4, 0), (0x0A5, 0), (0x0A6, 0), (0x0A7, 0),
          (0x0B1, q.base), (0x0B2, w q.size), (0x0B3, w q.head), (0x0B4, w q.tail), (0x0B5, w q.seq),
          (0x0B6, w (q.prio + (if q.enable then 8 else 0) + (if q.serial then 16 else 0) + (if q.devpost then 32 else 0) +
            (if q.halted then 64 else 0)))] → reads v) ∧
      (∀ v, (n, v) ∈ [(0x064, s.cscoll), (0x075, s.pbeat), (0x080, w s.pkgnum), (0x081, s.fabto), (0x083, s.linkrt),
          (0x084, s.fabreplay), (0x0A8, s.evq.base), (0x0A9, w s.evq.size), (0x0AA, w s.evq.head), (0x0AB, w s.evq.tail),
          (0x0AC, s.evq.lost), (0x0AD, 0), (0x0B9, w s.lease.length), (0x0C0, w (s.update.state + 16 * s.update.active)),
          (0x0C1, 0), (0x0C2, s.update.hbto), (0x0C3, s.update.tbaddr), (0x0C8, s.update.stgver),
          (0x098, w (s.pgown + 2 ^ 48 * s.owner (65536 * s.pgown)))] → reads v))) ∧
  ∀ (f : FmtE) (s : State) (k : Nat) (t : Team) (i : Instr) (l : Nat), i ∈ [Instr.srd f, Instr.swr f] → s.actor = k →
    s.team? k = some t → isCoreKey k = true → t.role ∉ [Role.system, Role.prologue, Role.loader] → regLevel (immOfE f) = some l →
    t.level < l →
    exec i s = .next (s.takeTrap k 2 {})

/-- R99, R145, R291, R345, R373, R377, R394: SWR writes the register that IMM names, less the bits that read as zero; one marked
RO raises cause 4; a value or a time that the register's table does not allow leaves it as it is (CTXSKEY while its context
lives: log 63, DEDUCED). A write to another team inside its packet waits (log 89, DEDUCED). -/
def Claim.RegisterWrites : Prop :=
  ∀ (f : FmtE) (s : State) (k : Nat) (t : Team), Ready s k t (.swr f) →
    let n := immOfE f
    let p := s.placeOf k t
    let v := t.s f.q
    (regWritable n = false → exec (.swr f) s = .next (s.takeTrap k 4 {})) ∧
    (n ∈ [0x030, 0x070, 0x090, 0x097] → s.flagsBusy k t n = false → isCoreKey k = true →
      ∃ s' u, exec (.swr f) s = .next s' ∧ Completed (.swr f) k s s' u ∧
        (n = 0x030 → u = { t with nflags := v.extractLsb' 0 6 }) ∧ (n = 0x070 → u = { t with ldvlim := v }) ∧
        (n = 0x090 → u = { t with trap := { t.trap with entry := v &&& ~~~3 } }) ∧
        (n = 0x097 → u = { t with trap := { t.trap with scratch := v } })) ∧
    (isCoreKey k = false → (s.core p.core).power = .running → s.writeWaits k p n = false → p.key ≠ k →
      (∀ x u, s.team? p.key = some x → (n, u) ∈ [(0x030, { x with nflags := v.extractLsb' 0 6 }), (0x070, { x with ldvlim := v }),
          (0x071, { x with pself := v &&& 0xFFF }), (0x090, { x with trap := { x.trap with entry := v &&& ~~~3 } }),
          (0x097, { x with trap := { x.trap with scratch := v } })] →
        ∃ s', exec (.swr f) s = .next s' ∧ Past (.swr f) k s' t ∧ (s'.team? p.key).map Team.unstamped = some u.unstamped ∧
          SameMemory s s') ∧
      (let x := s.ctx p.ctx
       ∀ y, (n, y) ∈ [(0x040, { x with bargrant := v &&& 0xFFFFFFFF }), (0x060, { x with csArena := v &&& ~~~0xFFFF }),
          (0x061, if x.dir = [] then { x with csSize := v } else x), (0x072, { x with pgBase := v &&& ~~~7 }),
          (0x074, { x with psilent := v }), (0x076, { x with pautox := v.getLsbD 0 }), (0x078, { x with psdef := v &&& 0xFFF }),
          (0x0A2, { x with ptroot := v &&& ~~~0xFFF }),
          (0x0A4, if x.alive then x else { x with skey := x.skey.set 0 v }),
          (0x0A5, if x.alive then x else { x with skey := x.skey.set 1 v }),
          (0x0A6, if x.alive then x else { x with skey := x.skey.set 2 v }),
          (0x0A7, if x.alive then x else { x with skey := x.skey.set 3 v })] →
        ∃ s', exec (.swr f) s = .next s' ∧ Past (.swr f) k s' t ∧ OthersStand k s s' ∧ SameMemory s s' ∧ s'.ctx p.ctx = y ∧
          ∀ c, c ≠ p.ctx → s'.ctx c = s.ctx c) ∧
      (∀ y, (n, y) ∈ [(0x075, { s with pbeat := v }), (0x081, { s with fabto := if v = 0 then 1 else v }),
          (0x0A8, { s with evq := { s.evq with base := v &&& ~~~31 } }),
          (0x0A9, if s.evq.head = s.evq.tail ∧ v.toNat ∈ [64, 128, 256, 512, 1024, 2048, 4096, 8192, 16384, 32768, 65536] then
            { s with evq := { s.evq with size := v.toNat } } else s),
          (0x0A0, { s with syssel := s.syssel.set (dieOf k) (v &&& 0x3FFFFFF) }),
          (0x0B0, { s with lqsel := s.lqsel.set (dieOf k) (v.toNat % 64) }),
          (0x0B9, { s with lease := { s.lease with length := v.toNat } }),
          (0x0C2, { s with update := { s.update with hbto := v } }),
          (0x0C3, { s with update := { s.update with tbaddr := v &&& ~~~63 } }),
          (0x0C5, s.putDigest (dieOf k) { s.digest (dieOf k) with addr := v })] →
        exec (.swr f) s = .next (y.complete k t (.swr f))))

/-- R440: the digest unit: a write of DGLEN starts it afresh at DGADDR as it then is; it ends with the SHAKE256 of its bytes
(log 19, PRESUMED: FIPS 202), or free values where they cannot be read (log 83, DESIGN CHOICE); DGOUT gives their doublewords in
turn and waits for the end. -/
def Claim.DigestUnit : Prop :=
  (∀ (s : State) (die n : Nat) (v : Word), s.detail = .value die n v → die < 4 → s.digests.length = 4 →
    ∃ s', exec .dglenWrite s = .next s' ∧ SameMemory s s' ∧
      s'.digests = s.digests.set die { s.digest die with
        len := v &&& 0xFFFFF, start := (s.digest die).addr, out := [], reads := 0, running := true }) ∧
  (∀ (s : State) (die n : Nat), s.detail = .place die n → die < 4 → s.digests.length = 4 →
    let x := s.digest die
    (x.running = false → exec .digestComplete s = .next s) ∧
    (x.running = true → ∃ s' out, exec .digestComplete s = .next s' ∧ SameMemory s s' ∧
      s'.digests = s.digests.set die { x with out := out, running := false } ∧
      (s.readable x.start.toNat x.len.toNat = true →
        out.flatMap (fun w => toBytes 8 w.toNat) = shake256 (s.bytes x.start.toNat x.len.toNat) 32))) ∧
  (∀ (s : State) (die n : Nat), s.detail = .place die n →
    let x := s.digest die
    (x.running = true → exec .dgoutRead s = .next s) ∧
    (x.running = false → exec .dgoutRead s = .next { s with digests := s.digests.set die { x with reads := x.reads + 1 } })) ∧
  ∀ (f : FmtE) (s : State) (k : Nat) (t : Team), Ready s k t (.srd f) → immOfE f = 0x0C7 → isCoreKey k = false →
    let x := s.digest (dieOf k)
    (x.running = true → exec (.srd f) s = .next (s.parkTeam k .digest)) ∧
    (x.running = false → ∃ s', exec (.srd f) s = .next s' ∧ Past (.srd f) k s' (t.setS f.p (x.out.getD (x.reads % 4) 0)) ∧
      OthersStand k s s' ∧ SameMemory s s' ∧ s'.digests = s.digests.set (dieOf k) { x with reads := x.reads + 1 })

/-- R369, R377, R394, R99, R145, R291, R345, R368, R373, R396, R411, R428, R437, R440: SRD and SWR read and write the special
registers; the digest unit. -/
def Obligations.SpecialRegisters : Prop := Claim.RegisterPlaces ∧ Claim.RegisterReads ∧ Claim.RegisterWrites ∧ Claim.DigestUnit

/-! ### Instruction supply, write-backs, contexts, events, partitions -/

/-- R63, R67, R68, R165, R208, R442, R443: an issue run of 256 of a core or of its affine engine ends with the age stamp set anew; a line of
a quad's instruction cache arrives with the words of its pages, those that cannot be fetched left out (log 39, DEDUCED), stands
first of those filled (log 99, DESIGN CHOICE) and frees the teams that wait for it; a write on its way reaches the bytes of its
line that it names and no others, and one of all 64 bytes writes the line's descriptor and ends its errors. -/
def Obligations.LinesAndRuns : Prop :=
  (∀ (s : State) (core n : Nat), s.detail = .place core n →
    ((s.core core).runCount < 256 → (s.core core).affineCount < 256 → exec .issueRunEnd s = .next s) ∧
    ∀ a k t, 256 ≤ (s.core core).issuesOf a → (a = true → (s.core core).runCount < 256) →
      (s.core core).runOf a = some k → s.team? k = some t →
      ∃ s', exec .issueRunEnd s = .next s' ∧ s'.team? k = some { t with stamp := s.clock } ∧ OnlyTeam Core.still k s s' ∧
        s'.core core = (s.core core).setRun a none 0) ∧
  (∀ (s : State) (q c line : Nat), s.detail = .numbers [q, c, line] →
    ((c, line) ∉ (s.quad q).filling → exec .icacheLineFill s = .next s) ∧
    ((c, line) ∈ (s.quad q).filling → ∃ s' ws, exec .icacheLineFill s = .next s' ∧ SameMemory s s' ∧
      (s'.quad q).icache.head? = some (c, line, ws) ∧ ws.length = 48 ∧ (c, line) ∉ (s'.quad q).filling ∧
      (∀ i a, i < 48 → a.toNat = 192 * line + 4 * i →
        (∀ p, s.fetchPage (q / 16) c a = .ok p → ws[i]? = some (some (s.codeAt p.pa))) ∧
        ∀ e, s.fetchPage (q / 16) c a = .error e → ws[i]? = some none) ∧
      (∀ r, r ≠ q → s'.quad r = s.quad r) ∧
      ∀ k t, s.team? k = some t → isCoreKey k = true → k / 64 / 4 = q → t.ctx = c → t.wait = .line line →
        s'.team? k = some { t with wait := .ready })) ∧
  ∀ (s : State) (id n : Nat) (f : Flight), s.detail = .place id n → Table.find? s.flights id = some f →
    Memory.wf s.mem = true → Table.wf s.flights = true → Table.wf s.descs = true → f.into = none → f.add = none →
    (∀ e ∈ s.flights, e.2.into ≠ some id) → (∀ e ∈ s.flights, e.1 < id → e.2.core = f.core → e.2.pa ≠ f.pa) →
    ∃ s', exec .writeBackAck s = .next s' ∧ Table.find? s'.flights id = none ∧
      (∀ j, j ≠ id → Table.find? s'.flights j = Table.find? s.flights j) ∧
      (∀ i, i < 64 → s'.byte (64 * f.pa + i) = if f.mask.getLsbD i then lineByte f.data i else s.byte (64 * f.pa + i)) ∧
      (∀ a, a / 64 ≠ f.pa → s'.byte a = s.byte a ∧ s'.desc a = s.desc a) ∧
      (f.mask ≠ BitVec.allOnes 64 → s'.descs = s.descs ∧ s'.bad = s.bad) ∧
      (f.mask = BitVec.allOnes 64 → s'.badData (64 * f.pa) = false ∧ s'.badDesc (64 * f.pa) = false ∧
        (isCxl (64 * f.pa) = false → s'.desc (64 * f.pa) = f.desc.getD 0))

/-- R378, R379, R392: TLBINV (of one page: the lines of its 1 GiB block, log 60, DEDUCED) discards what the caches hold of a
context, or of one page of it, the reserved parts of the L1s included, and writes back its dirty bytes first; KEYKILL destroys a context's key and its cached state, and
kills a context that has teams. -/
def Obligations.Invalidation : Prop :=
  (∀ (f : FmtE) (s : State) (k : Nat) (t : Team), Ready s k t (.tlbinv f) →
    let c := (t.s f.p).toNat % 256
    let a := (t.s f.q).toNat % 2 ^ 57
    let whole := f.f.getLsbD 0
    ((s.ctx c).alive = false → ∃ s', exec (.tlbinv f) s = .next s' ∧ Completed (.tlbinv f) k s s' t) ∧
    ((s.ctx c).alive = true → ∃ s', exec (.tlbinv f) s = .next s' ∧ Past (.tlbinv f) k s' t ∧ OthersStand k s s' ∧
      (∀ d, s'.ctx d = s.ctx d) ∧
      (∀ die e, e ∈ Table.getD s'.tlb die [] ↔
        e ∈ Table.getD s.tlb die [] ∧ ¬(e.ctx = c ∧ (whole = true ∨ e.base ≤ a ∧ a < e.base + e.size))) ∧
      (∀ n l, l ∈ (s'.core n).lines ++ (s'.core n).reserved → l.ctx = c → whole = false ∧ inBlock 64 l.va a = false) ∧
      (∀ q l, l ∈ (s'.quad q).icache → l.1 = c → whole = false ∧ inBlock 192 l.2.1 a = false) ∧
      (∀ n e, e ∈ (s'.core n).reuse → e.ctx = c → e.load = false) ∧
      (∀ n x l, s.cores = [(n, x)] → (x.lines = [l] ∧ x.reserved = [] ∨ x.lines = [] ∧ x.reserved = [l]) → l.ctx = c → (whole = true ∨ inBlock 64 l.va a = true) → s.flights = [] →
        Memory.wf s.mem = true → (∀ i, i < 64 → l.dirty.getLsbD i = true → s'.byte (64 * l.pa + i) = lineByte l.data i) ∧
          ∀ b, (b / 64 ≠ l.pa ∨ l.dirty.getLsbD (b % 64) = false) → s'.byte b = s.byte b))) ∧
  ∀ (f : FmtE) (s : State) (k : Nat) (t : Team), Ready s k t (.keykill f) →
    let c := (t.s f.p).toNat % 256
    (s.hasTeams c = true → exec (.keykill f) s = .next
      ((s.kill c 121 121 0 (BitVec.ofNat 64 (65536 * (s.ctx c).part))).complete k t (.keykill f))) ∧
    (s.hasTeams c = false → ∃ s', exec (.keykill f) s = .next s' ∧ Past (.keykill f) k s' t ∧ OthersStand k s s' ∧
      (s'.ctx c).key = none ∧ (s'.ctx c).skey = [0, 0, 0, 0] ∧ (∀ d, d ≠ c → s'.ctx d = s.ctx d) ∧
      (∀ die e, e ∈ Table.getD s'.tlb die [] → e.ctx ≠ c) ∧ (∀ n l, l ∈ (s'.core n).lines ++ (s'.core n).reserved → l.ctx ≠ c) ∧
      (∀ q l, l ∈ (s'.quad q).icache → l.1 ≠ c) ∧ ∀ n e, e ∈ (s'.core n).reuse → e.ctx ≠ c)

/-- R388, R389, R394, R427: a kill (the DATA of its event: log 66, DEDUCED) removes a context's teams, operations, misses, cached
state and keys, clears its tables, returns its pages, fails its launches with cause 120, leaves its partition, counts the
poisoned slices of its teams that were overwritten unread, and writes a CTXKILLED event. Other contexts stand; a control thread
that waited for a miss of it goes on. -/
def Claim.Kills : Prop :=
  ∀ (s : State) (c cause original : Nat) (tpc source : Word),
    let x := s.ctx c
    let s' := s.kill c cause original tpc source
    (x.alive = false → s' = s) ∧
    (x.alive = true →
      (s'.ctx c).alive = false ∧ (s'.ctx c).killed = true ∧ (s'.ctx c).key = none ∧ (s'.ctx c).skey = [0, 0, 0, 0] ∧
      (s'.ctx c).gid = 0 ∧ (s'.ctx c).part = 0 ∧ (s'.ctx c).dir = [] ∧ (s'.ctx c).versions = [] ∧ (s'.ctx c).peers = [] ∧
      (∀ n q, Table.find? (s'.ctx c).queues n = some q → q.enable = false) ∧
      (∀ d, d ≠ c → s'.ctx d = s.ctx d) ∧
      (∀ e ∈ s'.teams, isCoreKey e.1 = true → e.2.ctx ≠ c) ∧
      (Table.wf s.teams = true → ∀ k t, s.team? k = some t → t.ctx ≠ c → (s'.team? k).map Team.registers = some t.registers) ∧
      (∀ e ∈ s'.blocks, e.2.ctx ≠ c) ∧ (∀ e ∈ s'.ops, e.2.ctx ≠ c) ∧ (∀ e ∈ s'.misses, e.2.ctx ≠ c) ∧
      (∀ e ∈ s'.owners, e.2 ≠ c) ∧ (∀ die e, e ∈ Table.getD s'.tlb die [] → e.ctx ≠ c) ∧
      (∀ n l, l ∈ (s'.core n).lines ++ (s'.core n).reserved → l.ctx ≠ c) ∧ (∀ n e, e ∈ (s'.core n).reuse → e.ctx ≠ c) ∧
      (∀ q l, l ∈ (s'.quad q).icache → l.1 ≠ c) ∧ (Table.wf s.flights = true →
        (∀ e ∈ s.flights, ∀ n, e.2.into = some n → ∃ g, Table.find? s.flights n = some g ∧ g.into = none) →
        ∀ e ∈ s'.flights, e.2.ctx ≠ c) ∧
      (∀ e ∈ s'.slots, e.2.ctx = c → e.2.state = .idle) ∧
      (∀ e ∈ s'.launches, e.2.ctx = c → e.2.state ≠ .taken ∧ e.2.state ≠ .prologue ∧ e.2.state ≠ .dealing ∧ e.2.state ≠ .draining) ∧
      (∀ k t m y, isCoreKey k = false → s.team? k = some t → t.ctx ≠ c → t.wait = .miss m → Table.find? s.misses m = some y →
        y.ctx = c → Table.wf s.teams = true → (s'.team? k).map (fun u => u.wait) = some .ready) ∧
      (∀ k t, isCoreKey k = true → t.ctx = c → s.teams = [(k, t)] → ((s.part x.part).live = c ∨ s.cellars = []) →
        s'.health.unread = s.health.unread + t.unread) ∧
      (∀ k t, isCoreKey k = true → t.ctx = c → s.teams = [] → (s.part x.part).live ≠ c →
        (Table.getD s.cellars x.part {}).teams = [(k, t)] → s'.health.unread = s.health.unread + t.unread) ∧
      (x.part ≠ 0 → (s.part x.part).live = c → (s'.part x.part).live = 0 ∧ (s'.part x.part).stopped = true) ∧
      (∀ p, p ≠ x.part → s'.part p = s.part p) ∧
      (s.evq.full = false → Memory.wf s.mem = true → s'.evq.tail = (s.evq.tail + 1) % s.evq.size ∧
        s'.bytes (s.evq.base.toNat % 2 ^ 52 + 32 * s.evq.tail) 32 =
          toBytes 8 (3 + 256 * cause + 2 ^ 16 * c + 2 ^ 32 * (s.evq.next % 2 ^ 32)) ++ toBytes 8 tpc.toNat ++
          toBytes 8 (BitVec.ofNat 64 original).toNat ++ toBytes 8 source.toNat))

/-- R347, R388 to R390, R392 to R394: a context is created on a stopped partition that has none; a write of CTXCTL kills it with
cause 120 and a machine check with cause 112; its group number is unique and is not changed while a team of it is resident;
PGOWN gives a page of device memory to an owner, and ends the mark that the page has migrated (log 18, DESIGN CHOICE).
Partitions start running (log 28, DEDUCED), and launches of an earlier context of the number are forgotten (log 77, DEDUCED). -/
def Claim.ContextEvents : Prop :=
  (∀ (s : State) (c p : Nat), s.detail = .place c p →
    let x := s.part p
    ((c = 0 ∨ p = 0 ∨ (s.ctx c).alive = true ∨ x.stopped = false ∨ x.swapping = true ∨ x.live ≠ 0 ∨
      x.phase ≠ 0) →
      exec .ctxctlCreate s = .next s) ∧
    (c ≠ 0 → p ≠ 0 → (s.ctx c).alive = false → x.stopped = true → x.swapping = false → x.live = 0 → x.phase = 0 →
      ∃ s', exec .ctxctlCreate s = .next s' ∧ ((∀ e ∈ s.owners, e.2 ≠ c) → SameMemory s s') ∧ s'.part p = { x with live := c } ∧
        (∃ key, s'.ctx c = { s.ctx c with alive := true, killed := false, key := some key, part := p }) ∧
        (∀ d, d ≠ c → s'.ctx d = s.ctx d) ∧ ∀ e ∈ s'.launches, e.2.ctx ≠ c)) ∧
  (∀ (s : State) (c p : Nat), s.detail = .place c p →
    exec .ctxctlKill s = .next (s.kill c 120 120 0 (BitVec.ofNat 64 (65536 * (s.ctx c).part)))) ∧
  (∀ (s : State) (die : Nat) (c : Nat), s.detail = .numbers [die, c] → die < 4 →
    exec .machineCheck s = .next
      (let s1 := s.post { kind := 4, cause := 112, ctx := 0, addr := 0, data := 0, source := BitVec.ofNat 64 die }
       s1.kill c 112 112 0 (BitVec.ofNat 64 (65536 * (s1.ctx c).part)))) ∧
  (∀ (s : State) (c n : Nat) (v : Word), s.detail = .value c n v →
    let g := v.toNat % 2 ^ 32
    let teams := ∃ e ∈ s.teams, isCoreKey e.1 = true ∧ e.2.ctx = c
    (teams → exec .ctxgidWrite s = .next s) ∧
    let live := fun (x : Context) => x.alive = true ∧ x.key ≠ none
    (g ≠ 0 → live (s.ctx c) → (∃ e ∈ s.ctxs, e.1 ≠ c ∧ live e.2 ∧ e.2.gid = g) →
      exec .ctxgidWrite s = .next s) ∧
    (¬teams → (g = 0 ∨ ¬live (s.ctx c) ∨ ∀ e ∈ s.ctxs, e.1 ≠ c → live e.2 → e.2.gid ≠ g) →
      exec .ctxgidWrite s = .next (s.putCtx c { s.ctx c with gid := g }))) ∧
  ∀ (s : State) (n m : Nat) (v : Word), s.detail = .value n m v →
    let page := v.toNat % 2 ^ 36
    let o := bitsOf v 48 8
    bitsOf v 36 12 = 0 → bitsOf v 56 8 = 0 →
      (isDevice (65536 * page) = false → isReserved (65536 * page) = false → exec .pgownWrite s = .next s) ∧
      (isDevice (65536 * page) = true → ∃ s', exec .pgownWrite s = .next s' ∧ s'.pgown = page ∧
        s' = { s with pgown := page, moved := Table.del s.moved page, owners := s'.owners } ∧
        (Table.wf s.owners = true → (∀ b, b < 65536 → s'.owner (65536 * page + b) = o) ∧
          ∀ j, j ≠ page → Table.find? s'.owners j = Table.find? s.owners j))

/-- R388, R389, R394, R427, R347, R390, R392, R393: Contexts are created and killed, own groups and pages. -/
def Obligations.Contexts : Prop := Claim.Kills ∧ Claim.ContextEvents

/-- R384 to R388: an event is written at the tail of the queue with its four doublewords and the next number, and rings the
threads that wait; of those that find the queue full, four kinds wait for room and the others are counted. A write of EVQHEAD
makes room (one outside the ring is ignored, log 61, DEDUCED). A write of FQDONE lets what waits go on, or fails it: a team
raises its cause when its word issues again (log 90, DEDUCED), a fetch that is lost when the word to be fetched does (R33), and
an operation fails at the page. -/
def Obligations.SupervisorEvents : Prop :=
  (∀ (s : State) (e : Event),
    (s.evq.full = true → s.post e = { s with evq := if e.kind = 1 ∨ e.kind = 3 ∨ e.kind = 4 ∨ e.kind = 8
        then { s.evq with waiting := s.evq.waiting ++ [e] } else { s.evq with lost := s.evq.lost + 1 } }) ∧
    (s.evq.full = false → Memory.wf s.mem = true →
      let at_ := s.evq.base.toNat % 2 ^ 52 + 32 * s.evq.tail
      (s.post e).evq = { s.evq with tail := (s.evq.tail + 1) % s.evq.size, next := (s.evq.next + 1) % 2 ^ 32 } ∧
      (s.post e).bytes at_ 32 = toBytes 8 (e.kind + 256 * e.cause + 2 ^ 16 * e.ctx + 2 ^ 32 * (s.evq.next % 2 ^ 32)) ++
        toBytes 8 e.addr.toNat ++ toBytes 8 e.data.toNat ++ toBytes 8 e.source.toNat ∧
      SameOutside at_ 32 s (s.post e) ∧
      ∀ k t, s.team? k = some t → (s.post e).team? k = some (if t.wait = .doorbell then { t with wait := .ready } else t))) ∧
  (∀ (s : State) (n m : Nat) (v : Word), s.detail = .value n m v →
    (s.evq.size ≤ v.toNat → exec .evqheadWrite s = .next s) ∧
    (v.toNat < s.evq.size → s.evq.waiting = [] → exec .evqheadWrite s = .next { s with evq := { s.evq with head := v.toNat } }) ∧
    ∀ e, v.toNat < s.evq.size → s.evq.waiting = [e] → (s.evq.tail + 1) % s.evq.size ≠ v.toNat →
      exec .evqheadWrite s = .next ({ s with evq := { s.evq with head := v.toNat, waiting := [] } }.post e)) ∧
  ∀ (s : State) (n m : Nat) (v : Word), s.detail = .value n m v →
    ((∀ e ∈ s.misses, e.2.seq ≠ some (v.toNat % 2 ^ 32)) → exec .fqdoneWrite s = .next s) ∧
    (∀ id x n a o, s.misses = [(id, x)] → x.seq = some (v.toNat % 2 ^ 32) → x.waiters = [.op n a] → Table.find? s.ops n = some o →
      o.cls = 0 → (∀ b c d, o.work ≠ .newRoot b c d) → (∀ b c d e f g h i j, o.work ≠ .putsig b c d e f g h i j) →
      (∀ b c d e, o.work ≠ .contribute b c d e) →
      (v.getLsbD 32 = true ∨ (s.ctx x.ctx).key = none ∨ s.walk x.ctx (sig57 x.addr) ≠ .miss) →
      ∃ s', exec .fqdoneWrite s = .next s' ∧ s' = { s with misses := [], ops := s'.ops, ctxs := s'.ctxs } ∧
        Table.find? s'.ops n = some { o with
          miss := none, unserved := if v.getLsbD 32 then some (a.toNat / 65536) else o.unserved } ∧
        (∀ j, j ≠ n → Table.find? s'.ops j = Table.find? s.ops j) ∧
        ∀ c, s'.ctx c = { s.ctx c with raised := (s'.ctx c).raised }) ∧
    ∀ id x k uid fetch a t, s.misses = [(id, x)] → x.seq = some (v.toNat % 2 ^ 32) → x.waiters = [.team k uid fetch a] →
      s.team? k = some t → t.uid = uid → (∀ j u, s.team? j = some u → u.uid = uid → j = k) → Table.wf s.teams = true →
      t.wait = .miss id →
      (v.getLsbD 32 = true → ∃ s', exec .fqdoneWrite s = .next s' ∧ s'.misses = [] ∧ SameMemory s s' ∧
        s'.team? k = some (if fetch then { t with wait := .ready, lost := some a }
          else { t with wait := .ready, raised := some (16, a) })) ∧
      (v.getLsbD 32 = false → (s.ctx x.ctx).key.isSome = true → s.walk x.ctx (sig57 x.addr) = .miss →
        exec .fqdoneWrite s = .next ({ s with misses := [(id, { x with seq := none })] }.post
          { kind := 1, cause := 16, ctx := x.ctx, addr := x.addr, data := BitVec.ofNat 64 x.kinds, source := x.source
            miss := some id })) ∧
      (v.getLsbD 32 = false → ((s.ctx x.ctx).key = none ∨ s.walk x.ctx (sig57 x.addr) ≠ .miss) →
        ∃ s', exec .fqdoneWrite s = .next s' ∧ s'.misses = [] ∧ SameMemory s s' ∧ s'.team? k = some { t with wait := .ready })

/-- R26, R27, R62, R63, R380, R390, R391, R395: HALT.idle waits for an event or a doorbell; HALT.stop and HALT.swap halt a partition and wait; a
partition that has drained (its teams at packet boundaries or parked, log 8, DEDUCED; its engine operations kept, log 59,
DEDUCED) is stopped, its dirty bytes written back, or exchanges its teams, blocks and per-core state with its cellar; HALT.go
restarts it. HALT.idle stops the die's prologue thread as well. A team that stalls inside its packet has not drained, and a run
ends as its team goes to the cellar. -/
def Obligations.Partitions : Prop :=
  (∀ (s : State) (k : Nat) (t : Team), Ready s k t .haltIdle →
    (t.phase ≠ 1 → exec .haltIdle s = .next ((s.modTeam k fun u => { u with phase := 1 }).parkTeam k .doorbell)) ∧
    (t.phase = 1 → ∃ s', exec .haltIdle s = .next s' ∧ Completed .haltIdle k s s' t)) ∧
  (∀ (s : State) (k : Nat) (t u : Team), isCoreKey k = false → t.role = .prologue → s.team? (sysKey (dieOf k)) = some u →
    u.wait = .doorbell → s.mayRun k t = false) ∧
  (∀ (s : State) (k c n : Nat) (t : Team), s.team? k = some t → isCoreKey k = true → t.inPacket = true → t.wait = .close c n →
    s.drained t.ctx = false) ∧
  (∀ (f : FmtE) (s : State) (k : Nat) (t : Team) (i : Instr), i ∈ [Instr.haltStop f, .haltSwap f, .haltGo f] → Ready s k t i →
    (t.s f.q).toNat = 0 ∨ 16 ≤ (t.s f.q).toNat → exec i s = .next (s.takeTrap k 4 {})) ∧
  (∀ (f : FmtE) (s : State) (k : Nat) (t : Team) (p : Nat), (t.s f.q).toNat = p → 0 < p → p < 16 →
    let x := s.part p
    let begun := fun (y : Partition) => Host.Outcome.next (φ := Fault) (ρ := Refusal)
      (((s.putPart p y).modTeam k fun u => { u with phase := 1 }).parkTeam k (.halt p))
    (Ready s k t (.haltStop f) →
      (t.phase = 1 ∨ x.phase = 0 ∧ x.stopped = true →
        ∃ s', exec (.haltStop f) s = .next s' ∧ Completed (.haltStop f) k s s' t) ∧
      (t.phase ≠ 1 → x.phase ≠ 0 → exec (.haltStop f) s = .next (s.parkTeam k (.halt p))) ∧
      (t.phase ≠ 1 → x.phase = 0 → x.stopped = false →
        exec (.haltStop f) s = begun { x with phase := 1, wasRunning := true })) ∧
    (Ready s k t (.haltSwap f) → (∀ c ∈ s.coresOf p, (s.core c).power = .running) →
      (t.phase = 1 → ∃ s', exec (.haltSwap f) s = .next s' ∧ Completed (.haltSwap f) k s s' t) ∧
      (t.phase ≠ 1 → x.phase ≠ 0 → exec (.haltSwap f) s = .next (s.parkTeam k (.halt p))) ∧
      (t.phase ≠ 1 → x.phase = 0 → x.stopped = false →
        exec (.haltSwap f) s = begun { x with phase := 2, wasRunning := true }) ∧
      (t.phase ≠ 1 → x.phase = 0 → x.stopped = true →
        exec (.haltSwap f) s = begun { x with phase := 3, swapping := true, wasRunning := false })) ∧
    (Ready s k t (.haltGo f) → (∀ c ∈ s.coresOf p, (s.core c).power = .running) →
      (x.phase ≠ 0 → exec (.haltGo f) s = .next (s.parkTeam k (.halt p))) ∧
      (x.phase = 0 → exec (.haltGo f) s = .next ((s.putPart p { x with stopped := false }).complete k t (.haltGo f))))) ∧
  (∀ (s : State) (p n : Nat), s.detail = .place p n →
    let x := s.part p
    ((s.drained x.live = false ∨ x.phase = 0 ∨ x.phase = 3) → exec .partitionDrainComplete s = .next s) ∧
    (s.drained x.live = true → (x.phase = 1 ∨ x.phase = 2) → ∃ s', exec .partitionDrainComplete s = .next s' ∧
      (∀ c ∈ s.coresOf p, ∀ l ∈ (s'.core c).lines, l.ctx = x.live → l.dirty = 0) ∧
      (∀ c ∈ s.coresOf p, (s'.core c).reserved = []) ∧
      (Table.wf s.flights = true →
        (∀ e ∈ s.flights, ∀ n, e.2.into = some n → ∃ g, Table.find? s.flights n = some g ∧ g.into = none) → ∀ e ∈ s'.flights, e.2.ctx ≠ x.live) ∧
      (x.phase = 1 → s'.part p = { x with phase := 0, stopped := true } ∧
        ∀ k t, s.team? k = some t → t.wait = .halt p → s'.team? k = some { t with wait := .ready }) ∧
      (x.phase = 2 → s'.part p = { x with phase := 3, swapping := true }))) ∧
  ∀ (s : State) (p : Nat), s.detail = .place p 0 →
    let x := s.part p
    let old := Table.getD s.cellars p {}
    let mine := fun k => isCoreKey k = true ∧ k / 64 ∈ s.coresOf p
    (x.phase ≠ 3 → exec .swapExchangeComplete s = .next s) ∧
    (x.phase = 3 → Table.wf s.teams = true → Table.wf old.teams = true → (∀ e ∈ old.teams, mine e.1) →
      ∃ s' y, exec .swapExchangeComplete s = .next s' ∧ SameMemory s s' ∧
        s'.part p = { x with
          live := x.cellar, cellar := x.live, stopped := !x.cellarRunning, swapping := false, phase := 0
          cellarRunning := x.wasRunning, wasRunning := false } ∧
        (∀ k, mine k → (s'.team? k).map Team.registers = (Table.find? old.teams k).map Team.registers) ∧
        (∀ k, ¬mine k → (s'.team? k).map Team.registers = (s.team? k).map Team.registers) ∧
        Table.find? s'.cellars p = some y ∧ (∀ k, mine k → (Table.find? y.teams k).map Team.unstamped = (s.team? k).map Team.unstamped) ∧
        (∀ k t a, mine k → s.team? k = some t → (s.core (k / 64)).runOf a = some k →
          (Table.find? y.teams k).map (fun u => u.stamp) = some s.clock) ∧
        ∀ n ∈ s.coresOf p, s'.core n = (s.core n).exchange (old.shadow n))

/-! ### Lease, queues, launches -/

/-- R396, R400: the lease is acquired when it is free or has expired, renewed and released by its holder, and falls at its
expiry; the OK bit of the writer says which. An acquire raises the term and returns the entries of stale tickets. -/
def Claim.Lease : Prop :=
  (∀ (s : State) (die n : Nat), s.detail = .place die n → die < 4 →
    let x := s.lease
    let now := 2 * s.clock
    let held := x.held = true ∧ now < x.expiry
    (held → exec .leaseAcquire s = .next { s with lease := { x with ok := x.ok.set die false } }) ∧
    (¬held → s.launches = [] → s.update.state ≠ 5 → exec .leaseAcquire s = .next { s with
      lease := { x with
        holder := die, held := true, term := (x.term + 1) % 2 ^ 32, expiry := now + x.length, ok := x.ok.set die true } }) ∧
    (∀ id l, ¬held → s.launches = [(id, l)] → l.state = .taken → l.term ≠ (x.term + 1) % 2 ^ 32 →
      ∃ s', exec .leaseAcquire s = .next s' ∧ s'.launches = [] ∧ s'.lease.holder = die ∧ s'.lease.held = true ∧
        s'.queue l.ctx l.queue = { s.queue l.ctx l.queue with
          head := l.back.head, seq := l.back.seq, nest := l.back.nest, takenAt := l.back.takenAt }) ∧
    (held → x.holder = die → exec .leaseRenew s = .next { s with
      lease := { x with expiry := now + x.length, ok := x.ok.set die true } }) ∧
    (¬(held ∧ x.holder = die) → exec .leaseRenew s = .next { s with lease := { x with ok := x.ok.set die false } }) ∧
    (held → x.holder = die → s.update.state ≠ 2 → exec .leaseRelease s = .next { s with
      lease := { x with held := false, ok := x.ok.set die true } }) ∧
    (¬(held ∧ x.holder = die) → s.update.state ≠ 2 → exec .leaseRelease s = .next { s with
      lease := { x with ok := x.ok.set die false } })) ∧
  ∀ s : State, exec .leaseExpiry s = .next (if s.lease.held = true ∧ s.lease.expiry ≤ 2 * s.clock
    then { s with lease := { s.lease with held := false } } else s)

/-- R397, R398, R402, R409, R411: doorbells and queue controls, after which the priorities are computed anew (a doorbell outside
the ring or of a queue of device posts is ignored, logs 61, 71, DEDUCED); QPOST, after a release at PKG scope of a core's team,
writes a LAUNCH entry at the tail, advances it and gives the entry's SEQ, which counts what stands before it (log 72, DEDUCED),
or 0 where the queue does not accept one. An entry is passed as its kind says; one that is not well formed has cause 97, a fifth
level of buffers 96 (97 before 96, log 70, DEDUCED), and one that cannot be read the cause that it met (log 68, DEDUCED). -/
def Claim.LaunchQueues : Prop :=
  (∀ (s : State) (c q : Nat) (v : Word), s.detail = .value c q v → q < 64 →
    let x := s.queue c q
    (x.devpost = true ∨ x.size ≤ v.toNat → exec .lqtailDoorbell s = .next s) ∧
    (x.devpost = false → v.toNat < x.size → exec .lqtailDoorbell s = .next ((s.putQueue c q { x with tail := v.toNat }).track c).ring) ∧
    let y := s.putQueue c q { x with
      prio := v.toNat % 8, enable := v.getLsbD 3, serial := v.getLsbD 4, devpost := v.getLsbD 5
      halted := x.halted && !v.getLsbD 6 }
    exec .lqctlWrite s = .next (if x.enable = false ∧ v.getLsbD 3 = true then y.track c else y)) ∧
  (∀ (f : FmtE) (s : State) (k : Nat) (t : Team), Ready s k t (.qpost f) →
    let c := s.ctxFor k t
    let q := (t.s f.w).toNat % 64
    let x := s.queue c q
    let shut := x.enable = false ∨ x.halted = true ∨ (x.tail + 1) % x.size = x.head
    (isCoreKey k = true → x.devpost = false → exec (.qpost f) s = .next (s.takeTrap k 2 {})) ∧
    ((isCoreKey k = true → x.devpost = true) → (t.s f.q).toNat % 64 ≠ 0 → exec (.qpost f) s = .next (s.takeTrap k 4 {})) ∧
    let may := (isCoreKey k = true → x.devpost = true) ∧ (t.s f.q).toNat % 64 = 0
    (∀ w, isCoreKey k = true → may → (s.release k t 4).2 = some w →
      exec (.qpost f) s = .next ((s.release k t 4).1.parkTeam k w)) ∧
    (may → (isCoreKey k = true → (s.release k t 4).2 = none) → shut →
      ∃ s', exec (.qpost f) s = .next s' ∧ Past (.qpost f) k s' (t.setS f.p 0) ∧ OthersStand k s s' ∧ SameMemory s s') ∧
    (∀ e, isCoreKey k = false → may → ¬shut → e ≠ 16 → e ≠ 23 →
      s.deviceAddr c (x.base + BitVec.ofNat 64 (32 * x.tail)) true [0] = .error e →
      exec (.qpost f) s = .next (s.takeTrap k e { addr := x.base + BitVec.ofNat 64 (32 * x.tail) })) ∧
    ∀ pa, may → (isCoreKey k = true → (s.release k t 4).2 = none) → ¬shut → Memory.wf s.mem = true →
      s.deviceAddr c (x.base + BitVec.ofNat 64 (32 * x.tail)) true [0] = .ok pa →
      ∃ s' seq, exec (.qpost f) s = .next s' ∧ Past (.qpost f) k s' (t.setS f.p (BitVec.ofNat 64 seq)) ∧ OthersStand k s s' ∧
        SameOutside pa 32 s s' ∧ s'.queue c q = { x with tail := (x.tail + 1) % x.size } ∧
        s'.bytes pa 32 = toBytes 8 (1 + 2 ^ 32 * seq) ++ toBytes 8 (t.s f.q).toNat ++ List.replicate 16 0 ∧
        (x.head = x.tail → x.nest = [] → seq = x.seq)) ∧
  (∀ (s : State) (c n cause : Nat) (q after : Queue) (a b : Word), q.next = some (a, after) →
    s.deviceRead c [0] 4 a = .error (cause, b) → s.scan c (n + 1) q = .failed q cause q.seq b) ∧
  ∀ (s : State) (c n : Nat) (q after : Queue) (a : Word) (d0 d1 d2 d3 : Word), q.next = some (a, after) →
    s.deviceRead c [0] 4 a = .ok [d0, d1, d2, d3] →
    let kind := d0.toNat % 2 ^ 32
    let good := d0.toNat / 2 ^ 32 = q.seq ∧ d2.toNat < 2 ^ 32 ∧ d3 = 0
    let past := { after with seq := if q.seq = 0xFFFFFFFF then 1 else q.seq + 1 }
    (good → kind = 1 → d1.toNat % 64 = 0 → d2 = 0 → s.scan c (n + 1) q = .launch q past d1 q.seq) ∧
    (good → kind = 3 → d2 = 0 → s.scan c (n + 1) q = s.scan c n past) ∧
    (good → kind = 2 → d1.toNat % 32 = 0 → d2 ≠ 0 → (q.nest.dropWhile fun f => f.2 == 0).length < 4 →
      s.scan c (n + 1) q = s.scan c n { past with nest := (d1.toNat, d2.toNat) :: past.nest }) ∧
    (good → kind = 2 → d1.toNat % 32 = 0 → d2 ≠ 0 → 4 ≤ (q.nest.dropWhile fun f => f.2 == 0).length →
      s.scan c (n + 1) q = .failed q 96 q.seq a) ∧
    (¬good ∨ kind = 1 ∧ (d1.toNat % 64 ≠ 0 ∨ d2 ≠ 0) ∨ kind = 2 ∧ (d1.toNat % 32 ≠ 0 ∨ d2 = 0) ∨ kind = 3 ∧ d2 ≠ 0 ∨
        kind ∉ [1, 2, 3] → s.scan c (n + 1) q = .failed q 97 (d0.toNat / 2 ^ 32) a)

/-- R397 to R401, R408: QTAKE gives the holder the ticket and card of an eligible entry, and zeros otherwise (whose card it reads,
and what a card that cannot be read does, are logs 67, 69, 104); an entry that cannot be taken halts its queue with an event.
LAUNCH starts the launch of a ticket, reads its card, and enters its prologue or dealing; a card that cannot be read fails it with
that cause, and one that is not well formed (the given argument array too, logs 75, 105) with cause 97. -/
def Claim.Taking : Prop :=
  (∀ (f : FmtE) (s : State) (k : Nat) (t : Team), Ready s k t (.qtake f) →
    let none2 := ∃ s', exec (.qtake f) s = .next s' ∧ Completed (.qtake f) k s s' ((t.setS f.p 0).setS (f.p + 1) 0)
    ((s.holds (dieOf k) = false ∨ s.update.state = 2 ∨ s.considered = []) → none2) ∧
    ∀ c q b after card seq, s.holds (dieOf k) = true → s.update.state ≠ 2 → s.considered = [(c, q)] →
      s.scan c scanBound (s.queue c q) = .launch b after card seq → (s.putQueue c q b).cardDeps c card = [] → b.serial = false →
      (∀ a, (s.putQueue c q b).deviceRead c [0] 16 card ≠ .error (16, a)) →
      ∃ s' l, exec (.qtake f) s = .next s' ∧ SameMemory s s' ∧ OthersStand k s s' ∧
        Past (.qtake f) k s' ((t.setS f.p l.ticket).setS (f.p + 1) card) ∧ Table.find? s'.launches s.serial = some l ∧
        l.ctx = c ∧ l.queue = q ∧ l.seq = seq ∧ l.term = s.lease.term ∧ l.state = .taken ∧
        l.ticket = BitVec.ofNat 64 (q + 2 ^ 6 * c + 2 ^ 16 * (s.lease.term % 2 ^ 16) + 2 ^ 32 * seq) ∧
        (s'.queue c q).head = after.head ∧ (s'.queue c q).seq = after.seq) ∧
  (∀ (f : FmtE) (s : State) (k : Nat) (t : Team) (c q cause seq : Nat) (b : Queue) (a : Word), Ready s k t (.qtake f) →
    s.holds (dieOf k) = true → s.update.state ≠ 2 → s.considered = [(c, q)] →
    s.scan c scanBound (s.queue c q) = .failed b cause seq a → exec (.qtake f) s = .next
      (((((s.putQueue c q { b with halted := true }).deviceBad c cause a).launchEvent c q cause seq).modTeam k fun u =>
        (u.setS f.p 0).setS (f.p + 1) 0).complete k t (.qtake f))) ∧
  ∀ (f : FmtE) (s : State) (k : Nat) (t : Team), Ready s k t (.launch f) →
    ((∀ e ∈ s.launches, e.2.state = .taken → e.2.ticket ≠ t.s f.q) →
      ∃ s', exec (.launch f) s = .next s' ∧ Completed (.launch f) k s s' (t.setS f.p 0)) ∧
    (∀ id l c a, s.launches = [(id, l)] → l.state = .taken → l.ticket = t.s f.q → l.cause = 0 → l.miss = none →
      s.deviceRead l.ctx [0] 16 (BitVec.ofNat 64 l.card) = .error (c, a) → c ≠ 16 → c ≠ 23 →
      ∃ s' y, exec (.launch f) s = .next s' ∧ Past (.launch f) k s' (t.setS f.p 1) ∧ OthersStand k s s' ∧ SameMemory s s' ∧
        s'.launches = [(id, y)] ∧ y.state = .draining ∧ y.cause = c) ∧
    ∀ id l ws, s.launches = [(id, l)] → l.state = .taken → l.ticket = t.s f.q → l.cause = 0 → l.miss = none → l.pro = none →
      s.deviceRead l.ctx [0] 16 (BitVec.ofNat 64 l.card) = .ok ws →
      let x : Card := ws
      let n := bitsOf (x.dw 3) 16 32
      ∃ s' y, exec (.launch f) s = .next s' ∧ Past (.launch f) k s' (t.setS f.p 1) ∧ OthersStand k s s' ∧ SameMemory s s' ∧
        s'.launches = [(id, y)] ∧ y.dws = ws ∧ y.reading = false ∧
        (x.dw 7 ≠ 0 → y.state = .prologue ∧ y.cause = 0) ∧
        (x.dw 7 = 0 → Card.ok x (x.dw 2) = false → y.state = .draining ∧ y.cause = 97) ∧
        (x.dw 7 = 0 → Card.ok x (x.dw 2) = true → depsOf ws = [] → y.argbase = x.dw 2 ∧ y.reccount = n ∧
          (n = 0 → y.state = .draining ∧ y.cause = 0) ∧
          (n ≠ 0 → (∃ c ∈ s.coresOf (s.ctx l.ctx).part,
              ({} : Needs).fit x.needs (16 * (s.core c).spillres) = true) →
            y.state = .dealing ∧ y.cause = 0) ∧
          (n ≠ 0 → (∀ c ∈ s.coresOf (s.ctx l.ctx).part,
              ({} : Needs).fit x.needs (16 * (s.core c).spillres) = false) →
            y.state = .draining ∧ y.cause = 98))

/-- R399, R405: a prologue runs on an idle thread with the card, the ticket and its run count in s1 to s3, at its first word, a
multiple of 4 (log 105, DEDUCED); LAUNCH.pro, LCANCEL and LCANCEL.again free the thread and start dealing, cancel the launch, or
let it wait for its delay. -/
def Claim.Prologues : Prop :=
  (∀ (s : State) (die n id : Nat) (l : Launch) (t : Team), s.detail = .place die n → s.team? (proKey die) = some t →
    s.firstWaiting = some (id, l) →
    (t.role ≠ .prologue ∨ t.wait ≠ .idle → exec .prologueStart s = .next s) ∧
    (t.role = .prologue → t.wait = .idle → ∃ s' u, exec .prologueStart s = .next s' ∧ s'.team? (proKey die) = some u ∧
      u.pc = l.dws.getD 7 0 &&& ~~~3 ∧ u.wait = .ready ∧ u.ctx = l.ctx ∧ u.launch = id ∧ u.s 1 = BitVec.ofNat 64 l.card ∧
      u.s 2 = l.ticket ∧ u.s 3 = BitVec.ofNat 64 l.runs ∧ (∀ r, 3 < r.toNat → u.s r = 0) ∧
      Table.find? s'.launches id = some { l with die := some die } ∧ (∀ j, j ≠ proKey die → s'.team? j = s.team? j))) ∧
  (∀ (s : State) (id n at_ : Nat) (l : Launch), s.detail = .place id n → Table.find? s.launches id = some l → l.again = some at_ →
    (2 * s.clock < at_ ∨ l.state ≠ .prologue → exec .prologueRepeat s = .next s) ∧
    (at_ ≤ 2 * s.clock → l.state = .prologue → exec .prologueRepeat s = .next { s with
      launches := Table.put s.launches id { l with again := none } })) ∧
  ∀ (f : FmtE) (s : State) (k : Nat) (t : Team) (l : Launch), Table.find? s.launches t.launch = some l →
    let free := Team.thread t.uid .prologue 0 .idle
    (Ready s k t (.lcancel f) → exec (.lcancel f) s = .next ({ s with
      launches := Table.put s.launches t.launch { l with state := .draining, cancel := true, die := none } }.putTeam k free)) ∧
    (Ready s k t (.lcancelAgain f) → exec (.lcancelAgain f) s = .next ({ s with
      launches := Table.put s.launches t.launch { l with
        die := none, runs := l.runs + 1, again := some (2 * s.clock + (t.s f.q).toNat) } }.putTeam k free)) ∧
    (∀ ws, Ready s k t (.launchPro f) → l.miss = none → l.ended = false → l.cause = 0 →
      s.deviceRead l.ctx [0] 16 (BitVec.ofNat 64 l.card) = .ok ws →
      let x : Card := ws
      let base := if t.s f.p = 0 then x.dw 2 else t.s f.p
      let n := (t.s f.q).toNat % 2 ^ 32
      ∃ s' y, exec (.launchPro f) s = .next s' ∧ s'.team? k = some free ∧ (∀ j, j ≠ k → s'.team? j = s.team? j) ∧
        SameMemory s s' ∧ Table.find? s'.launches t.launch = some y ∧
        (Card.ok x base = false → y.state = .draining ∧ y.cause = 97) ∧
        (Card.ok x base = true → depsOf ws = [] → y.argbase = base ∧ y.reccount = n ∧
          (n = 0 → y.state = .draining ∧ y.cause = 0) ∧
          (n ≠ 0 → (∃ c ∈ s.coresOf (s.ctx l.ctx).part,
              ({} : Needs).fit x.needs (16 * (s.core c).spillres) = true) →
            y.state = .dealing ∧ y.cause = 0)))

/-- R397, R398, R399, R400, R401, R408, R405: QTAKE, LAUNCH and the prologues. -/
def Obligations.Launches : Prop := Claim.Taking ∧ Claim.Prologues

/-- R403, R404, R426: a core with room takes a chunk of the launch that deals to it, with the acquire of the boundary (log 74,
DEDUCED), and places its records in order as blocks whose teams hold the registers of R404 (first words are multiples of 4, log
105, and a loader is checked by the card's counts and charged no lanes, log 35, DEDUCED). -/
def Claim.Dealing : Prop :=
  (∀ (s : State) (core n : Nat), s.detail = .place core n →
    let p := s.partOf core
    (p = 0 ∨ s.partRuns p = false ∨ (s.core core).chunk ≠ none ∨ s.dealer core = none → exec .chunkRequest s = .next s) ∧
    ∀ id l, p ≠ 0 → s.partRuns p = true → (s.core core).chunk = none → s.dealer core = some (id, l) →
      let r := l.reccount - l.next
      let m := min r (max (max 1 (bitsOf (l.dws.getD 3 0) 48 16)) (r / (2 * (s.coresOf p).length)))
      (s.room core l.dws = false → exec .chunkRequest s = .next s) ∧
      (s.room core l.dws = true → (s.core core).power = .gated →
        exec .chunkRequest s = .next (s.putCore core { s.core core with wakeHeld := true })) ∧
      (s.room core l.dws = true → (s.core core).power = .running → ∃ s', exec .chunkRequest s = .next s' ∧
        (s'.core core).chunk = some (id, l.next, m) ∧
        Table.find? s'.launches id = some { l with next := l.next + m, state := if m = r then .draining else .dealing } ∧
        (∀ x ∈ (s'.core core).lines, x.ctx = l.ctx → x.ro = true) ∧ ∀ c, c ≠ core → s'.core c = s.core c)) ∧
  ∀ (s : State) (core n id first m : Nat) (l : Launch) (at_ : List Nat) (ws : List Word), s.detail = .place core n →
    (s.core core).chunk = some (id, first, m) → m ≠ 0 → Table.find? s.launches id = some l → core ∉ l.waiting →
    (l.cause ≠ 0 → exec .blockPlacement s = .next (s.putCore core { s.core core with chunk := none })) ∧
    (l.cause = 0 → s.partRuns (s.partOf core) = true → (s.core core).power = .running → s.room core l.dws = true →
    let x : Card := l.dws
    let a := l.argbase + BitVec.ofNat 64 (first * x.recsize)
    let roles : List Role := if x.group then
      [.computer] ++ (if x.loader then [.loader] else []) ++ (if x.storer then [.storer] else []) else at_.map fun _ => .alone
    s.sweep.places core x.needs.teams (!x.group) = some at_ → s.sweep.deviceRead l.ctx [0, 1, 4] (x.recsize / 8) a = .ok ws →
    ∃ s', exec .blockPlacement s = .next s' ∧ SameMemory s s' ∧
      (s'.core core).chunk = (if m = 1 then none else some (id, first + 1, m - 1)) ∧
      (∃ b, Table.find? s'.launches id = some { l with blocks := l.blocks ++ [b] } ∧
        (Table.find? s'.blocks b).map (fun y => (y.core, y.ctx, y.launch, y.record, y.scratchSize, y.accRows)) =
          some (core, l.ctx, id, first, x.scratch, x.acc)) ∧
      (∀ j, (∀ i ∈ at_, j ≠ 64 * core + i) → s'.team? j = s.team? j) ∧
      ∀ j i r, at_[j]? = some i → roles[j]? = some r → ∃ u, s'.team? (64 * core + i) = some u ∧
        u.role = r ∧ u.ctx = l.ctx ∧ u.launch = id ∧ u.record = first ∧ u.level = 0 ∧ u.wait = .ready ∧ u.loops = [] ∧ u.stack = [] ∧
        u.nflags = 0 ∧ u.trap.entry = x.dw 6 &&& ~~~3 ∧ u.trap.inh = false ∧
        u.width = (if r = .loader then 32 else x.width) ∧ u.live = fullMask u.width ∧ u.active = fullMask u.width ∧
        u.pc = (match r with | .loader => x.dw 12 &&& ~~~3 | .storer => x.dw 13 &&& ~~~3 | _ => x.dw 1) ∧
        u.s 1 = a ∧ u.s 2 = BitVec.ofNat 64 first ∧ u.s 3 = BitVec.ofNat 64 (if x.group then 0 else j) ∧
        u.s 4 = ws.getD 0 0 ∧ u.s 5 = ws.getD 1 0 ∧ u.s 6 = ws.getD 2 0 ∧ u.s 7 = ws.getD 3 0 ∧ ∀ q, 7 < q.toNat → u.s q = 0)

/-- R220, R299, R401: a launch ends once its teams and operations are gone: the boundary of its context, the completion record,
and for a failed one the halt of its queue with an event (records dropped undealt: log 76, DEDUCED). A completion record that
cannot be written halts the queue as well. -/
def Claim.LaunchEnds : Prop :=
  ∀ (s : State) (id n : Nat) (l : Launch), s.detail = .place id n → Table.find? s.launches id = some l →
    (s.launchOver id l = false → exec .launchEnd s = .next s) ∧
    (s.launchOver id l = true → (l.dws = [] ∨ l.dws.getD 15 0 = 0) → ∃ s' y, exec .launchEnd s = .next s' ∧
      Table.find? s'.launches id = some y ∧
      (l.cause ≠ 0 → y = { l with state := .failed } ∧ (s'.queue l.ctx l.queue).halted = true ∧
        (s.evq.full = false → s'.evq.tail = (s.evq.tail + 1) % s.evq.size)) ∧
      (l.cause = 0 → y = { l with state := if l.cancel then .cancelled else .done } ∧
        (∀ c x, x ∈ (s'.core c).lines → x.ctx ≠ l.ctx) ∧ ∀ e ∈ (s'.ctx l.ctx).dir, e.quiet = false)) ∧
    (∀ c, s.launchOver id l = true → l.dws.getD 15 0 ≠ 0 → s.deviceAddr l.ctx (l.dws.getD 15 0) true [0, 4] = .error c → c ≠ 16 →
      ∃ s' y, exec .launchEnd s = .next s' ∧ Table.find? s'.launches id = some y ∧ y.ended = true ∧
        (s'.queue l.ctx l.queue).halted = true) ∧
    ∀ pa, s.launchOver id l = true → l.dws.getD 15 0 ≠ 0 → s.deviceAddr l.ctx (l.dws.getD 15 0) true [0, 4] = .ok pa →
      l.cause = 0 → Memory.wf s.mem = true → ∃ s', exec .launchEnd s = .next s' ∧
        Table.find? s'.launches id = some { l with state := if l.cancel then .cancelled else .done } ∧
        s'.bytes pa 64 = toBytes 8 ((if l.cancel then 2 else 1) + 2 ^ 32 * l.seq) ++ toBytes 8 l.next ++ toBytes 8 l.unrep ++
          (match l.firstFail with | some x => toBytes 8 x.1 ++ toBytes 8 x.2.toNat | none => List.replicate 16 0) ++
          List.replicate 24 0

/-- R403, R404, R426, R220, R299, R401: Chunks, block placement and the end of a launch. -/
def Obligations.DealingAndEnds : Prop := Claim.Dealing ∧ Claim.LaunchEnds

/-- R406, R410: TSPAWN pushes a record on the core's task queue, or with .spill on its die's ring where the queue is full (the
ring in memory is physical, log 106, DEDUCED), or raises cause 100; TSTEAL takes the newest of its own core, then the oldest of
the richest core of its quad, then of its die, of the partition (log 73, DEDUCED), then of the ring, and answers 0 where no
source has one. -/
def Claim.TaskQueues : Prop :=
  (∀ (f : FmtE) (s : State) (k : Nat) (t : Team), Ready s k t (.tspawn f) →
    let core := k / 64
    let ring := s.ringOf t.ctx (dieOf k)
    let full := 256 ≤ (s.core core).tasks.length
    let none4 := full ∧ (f.f.getLsbD 0 = false ∨ ring.size ≤ ring.count)
    let rec4 := [t.s f.p, t.s (f.p + 1), t.s (f.p + 2), t.s (f.p + 3)]
    let s1 := (s.release k t 3).1
    (none4 → exec (.tspawn f) s = .next (s.takeTrap k 100 {})) ∧
    (∀ w, ¬none4 → (s.release k t 3).2 = some w → exec (.tspawn f) s = .next (s1.parkTeam k w)) ∧
    (¬none4 → (s.release k t 3).2 = none →
      (full → exec (.tspawn f) s = .next ((s1.ringPush t.ctx (dieOf k) rec4).complete k t (.tspawn f)) ∧
        ∀ i, i < 4 → Memory.wf s.mem = true →
          (s1.ringPush t.ctx (dieOf k) rec4).dword (ring.addr ring.count + 8 * i) = rec4.getD i 0) ∧
      (¬full → exec (.tspawn f) s = .next
        ((s1.putCore core { s1.core core with tasks := (s.core core).tasks ++ [rec4] }).complete k t (.tspawn f))))) ∧
  ∀ (f : FmtE) (s : State) (k : Nat) (t : Team), Ready s k t (.tsteal f) → isCoreKey k = true →
    let core := k / 64
    let ring := s.ringOf t.ctx (dieOf k)
    let got := fun (r : List Word) => ((((t.setS f.p (r.getD 0 0)).setS (f.p + 1) (r.getD 1 0)).setS (f.p + 2) (r.getD 2 0)).setS
      (f.p + 3) (r.getD 3 0)).setS f.q 1
    let dry := (s.core core).tasks = [] ∧ ∀ c ∈ s.coresOf t.part, (s.core c).tasks = []
    (dry → ring.count = 0 → ∃ s', exec (.tsteal f) s = .next s' ∧ Completed (.tsteal f) k s s' (t.setS f.q 0)) ∧
    (dry → ring.count ≠ 0 → ∃ s', exec (.tsteal f) s = .next s' ∧ OthersStand k s s' ∧ SameMemory s s' ∧
      Past (.tsteal f) k s' (got ((List.range 4).map fun i => s.dword (ring.addr 0 + 8 * i))) ∧
      s'.ringOf t.ctx (dieOf k) = { ring with head := (ring.head + 1) % ring.size, count := ring.count - 1 }) ∧
    (∀ rest r, (s.core core).tasks = rest ++ [r] → ∃ s', exec (.tsteal f) s = .next s' ∧ Past (.tsteal f) k s' (got r) ∧
      OthersStand k s s' ∧ SameMemory s s' ∧ (s'.core core).tasks = rest ∧ ∀ c, c ≠ core → s'.core c = s.core c) ∧
    ∀ c r rest, (s.core core).tasks = [] → c ∈ s.coresOf t.part → (s.core c).tasks = r :: rest → c / 64 = core / 64 →
      (c / 4 = core / 4 ∧ (∀ d ∈ s.coresOf t.part, d / 4 = core / 4 → d ≠ c → (s.core d).tasks.length < (s.core c).tasks.length) ∨
        (∀ d ∈ s.coresOf t.part, d / 4 = core / 4 → (s.core d).tasks = []) ∧
          ∀ d ∈ s.coresOf t.part, d / 64 = core / 64 → d ≠ c → (s.core d).tasks.length < (s.core c).tasks.length) →
      ∃ s', exec (.tsteal f) s = .next s' ∧ Past (.tsteal f) k s' (got r) ∧ OthersStand k s s' ∧ SameMemory s s' ∧
        (s'.core c).tasks = rest

/-- R396, R400, R397, R398, R402, R409, R411, R406, R410: The lease, launch queues and task queues. -/
def Obligations.Queues : Prop := Claim.Lease ∧ Claim.LaunchQueues ∧ Claim.TaskQueues

/-! ### The device as the host and firmware meet it -/

/-- R412, R413, R417, R419, R421, R438, R439: IMGWRITE fills the inactive slot; a good verdict on its signature and version
makes it ready for UPDATE, a bad one ends with BADIMG; once the four threads have halted the new image starts on them; a
heartbeat commits it and raises the counter; none within HBTO of its first fetch restarts the old image and frees the lease. The
verdict, the entry and the first write of a staging are the model's (logs 20, 79), and so is which write of LEASE halts the
holder (log 78, DEDUCED). -/
def Obligations.LiveUpdate : Prop :=
  (∀ (s : State) (off n : Nat) (data : List Byte), s.detail = .bytes off n data → off < 2 ^ 64 →
    let free := s.mailbox.cmd.getLsbD 8 = false ∧ s.update.fault = false
    (¬free → exec .imgwrite s = .next s) ∧
    (free → 2 ≤ s.update.state → ∃ s', exec .imgwrite s = .next s' ∧ s'.mailbox.stat = 1 ∧
      s'.mailbox.cmd.getLsbD 8 = false ∧ s' = { s with mailbox := s'.mailbox }) ∧
    (free → s.update.state < 2 → ∃ s', exec .imgwrite s = .next s' ∧ s'.mailbox.stat = 0 ∧
      s'.update = { s.update with state := 1, stgver := 0 } ∧ s'.slot s.runningSlot = s.slot s.runningSlot ∧
      (s.update.active < 2 → (s'.slot (1 - s.update.active)).verified = false ∧
        ((s.update.state = 0 ∨ Table.wf (s.slot (1 - s.update.active)).bytes = true) → ∀ i, i < 4096 →
          Table.getD (s'.slot (1 - s.update.active)).bytes (off + i) 0 = data.getD i 0)))) ∧
  (∀ (s : State) (v : ImageCheck), s.detail = .image v →
    let n := 1 - s.update.active
    let secver := v.secver % 2 ^ 32
    (s.update.state ≠ 1 → exec .imageVerify s = .next s) ∧
    (s.update.state = 1 → (v.signed = false ∨ secver < s.rollback) → ∃ s', exec .imageVerify s = .next s' ∧
      s'.update.state = 0 ∧ (s.mailbox.cmd.getLsbD 8 = false → s'.mailbox.stat = 3) ∧ s'.imageA = s.imageA ∧ s'.imageB = s.imageB ∧ s'.rollback = s.rollback) ∧
    (s.update.state = 1 → v.signed = true → s.rollback ≤ secver → s.update.active < 2 → ∃ s', exec .imageVerify s = .next s' ∧
      s'.slot n = { s.slot n with verified := true, secver := secver, entry := v.entry, sup := v.sup } ∧
      s'.update = { s.update with stgver := BitVec.ofNat 64 secver })) ∧
  (∀ s : State, s.mailbox.cmd.getLsbD 8 = false → s.update.fault = false →
    let ready := s.update.state = 1 ∧ (s.slot (1 - s.update.active)).verified = true ∧ s.leased = true
    (ready → ∃ s', exec .update s = .next s' ∧ s'.update.state = 2 ∧
      s'.update.halted = (List.range 4).map (fun d => d != s.lease.holder)) ∧
    (¬ready → ∃ s', exec .update s = .next s' ∧ s'.mailbox.stat = 5 ∧ s' = { s with mailbox := s'.mailbox })) ∧
  (∀ s : State,
    (s.update.state ≠ 2 ∨ s.threadsQuiet = false ∨ false ∈ s.update.halted → exec .handover s = .next s) ∧
    (s.update.state = 2 → s.threadsQuiet = true → (∀ h ∈ s.update.halted, h = true) → ∃ s', exec .handover s = .next s' ∧
      s'.update.state = 3 ∧ s'.update.since = none ∧ s'.lease = s.lease ∧
      ∀ k t, s.team? k = some t → t.role = .system → ∃ u, s'.team? k = some u ∧ u.level = 2 ∧ u.wait = .ready ∧
        u.pc = BitVec.ofNat 64 (s.slot (1 - s.update.active)).entry ∧ u.s 2 = 1 ∧ ∀ r, r ≠ 2 → u.s r = 0)) ∧
  (∀ (s : State) (t : Team), s.update.state = 3 → t.role = .system → s.update.since = none →
    s.beginImage t = { s with update := { s.update with since := some (2 * s.clock) } }) ∧
  ∀ s : State,
    let late := s.update.state = 3 ∧ ∃ n, s.update.since = some n ∧ s.update.hbto.toNat ≤ 2 * s.clock - n
    (s.update.state ≠ 3 ∨ late → exec .hbeatWrite s = .next s) ∧
    (s.update.state = 3 → ¬late → ∃ s', exec .hbeatWrite s = .next s' ∧ s'.update.state = 0 ∧
      s'.update.active = 1 - s.update.active ∧ s'.rollback = max s.rollback (s.slot (1 - s.update.active)).secver ∧
      (s.mailbox.cmd.getLsbD 8 = false ∨ s.mailbox.cmd.toNat % 256 = 2 → s'.mailbox.stat = 0) ∧ s'.lease = s.lease ∧
      s'.teams = s.teams ∧ s'.mem = s.mem) ∧
    (¬late ∨ s.threadsQuiet = false → exec .hbtoExpiry s = .next s) ∧
    (late → s.threadsQuiet = true →
      ∃ s', exec .hbtoExpiry s = .next s' ∧ s'.update.state = 5 ∧ s'.lease.held = false ∧ s'.update.active = s.update.active ∧
        s'.rollback = s.rollback ∧ ∀ k t, s.team? k = some t → t.role = .system → ∃ u, s'.team? k = some u ∧
          u.pc = BitVec.ofNat 64 (s.slot s.update.active).entry ∧ u.s 2 = 2 ∧ ∀ r, r ≠ 2 → u.s r = 0)

/-- R392, R393, R412, R421, R443: the host reads and writes pages of live contexts at their homes, within a line, and the
register block, where an offset that names no register reads zero (log 107, DESIGN CHOICE); an access that is refused completes
with an error. A write of a whole line is a store of a whole line (log 84, DEDUCED). GO starts a command with the arguments that
stand in the block; an unknown one ends with BADCMD; in the error state, and while a command runs, none starts. -/
def Claim.HostAccesses : Prop :=
  (∀ (s : State) (h n : Nat) (data : List Byte) (i : HostAccess), s.detail = .host i →
    i = .read h n ∨ i = .write h data ∧ n = data.length →
    let pa := hdmAddr h
    let may := 1 ≤ n ∧ h % 64 + n ≤ 64 ∧ isDevice pa = true ∧ s.owner pa ≠ 0 ∧ (s.ctx (s.owner pa)).alive = true ∧
      (s.ctx (s.owner pa)).key.isSome = true ∧ s.update.fault = false
    (h < 0x3000000000 → pa = h / 0xC00000000 * 0x1000000000 + h % 0xC00000000) ∧
    (0x3000000000 ≤ h → pa = 0x10000000000 + (h - 0x3000000000)) ∧
    (¬may → exec .hostMemAccess s = .next { s with hostReply := .failed }) ∧
    (may → i = .read h n → exec .hostMemAccess s =
      .next { s with hostReply := if s.badRun pa n then .failed else .data (s.bytes pa n) }) ∧
    (may → i = .write h data → Memory.wf s.mem = true → ∃ s', exec .hostMemAccess s = .next s' ∧ s'.hostReply = .done ∧
      s'.bytes pa n = data ∧ SameOutside pa n s s' ∧ (n < 64 → s'.descs = s.descs) ∧
      s' = { s with mem := s'.mem, keyTags := s'.keyTags, descs := s'.descs, bad := s'.bad, hostReply := .done })) ∧
  (∀ (s : State) (a : Nat) (data : List Byte), s.detail = .host (.writeHostMemory a data) → data ≠ [] → Memory.wf s.mem = true →
    isCxl a = true → isCxl (a + data.length - 1) = true → ∃ s', exec .hostMemAccess s = .next s' ∧
      s'.bytes a data.length = data ∧ SameOutside a data.length s s') ∧
  (∀ (s : State) (o : Nat), s.detail = .host (.readRegister o) →
    ∃ v, exec .hostMemAccess s = .next { s with hostReply := .data (toBytes 8 v) } ∧
      (o = 0 → v = s.mailbox.cmd.toNat) ∧ (o = 8 → v = (s.mailbox.stat + BitVec.ofNat 64 (256 * s.update.state)).toNat) ∧
      (∀ i, i < 4 → o = 0x10 + 8 * i → v = (s.mailbox.args.getD i 0).toNat) ∧
      (∀ i, i < 512 → o = 0x1000 + 8 * i → v = ofBytes ((List.range 8).map fun j => s.mailbox.data.getD (8 * i + j) 0))) ∧
  ∀ (s : State) (o : Nat) (v : Word), s.detail = .host (.writeRegister o v) →
    let said := fun (z : State) => exec .hostMemAccess s = .next { z with hostReply := .done }
    let code := v.toNat % 256
    let go := { s with mailbox := { s.mailbox with cmd := BitVec.ofNat 64 (code + 256), stat := 1 } }
    (∀ i, i < 4 → o = 0x10 + 8 * i → said { s with mailbox := { s.mailbox with args := s.mailbox.args.set i v } }) ∧
    (o = 0 → v.getLsbD 8 = true → s.mailbox.cmd.getLsbD 8 = true ∨ s.update.fault = true → said s) ∧
    (o = 0 → v.getLsbD 8 = true → s.mailbox.cmd.getLsbD 8 = false → s.update.fault = false →
      (code = 1 → said go.imgwrite) ∧ (code = 2 → said go.updateCommand) ∧ (code = 3 → said (go.transferCommand false)) ∧
      (code = 4 → said go.healthCommand) ∧ (code = 6 → said (go.transferCommand true)) ∧
      (code = 5 → s.mailbox.args.getD 0 0 = 2 → said go.portReset) ∧ (code = 5 → s.mailbox.args.getD 0 0 = 1 → said go.warmReset) ∧
      (code = 0 ∨ 6 < code ∨ code = 5 ∧ s.mailbox.args.getD 0 0 ∉ [1, 2] → ∃ z, said z ∧ z.mailbox.stat = 2 ∧
        z.mailbox.cmd.getLsbD 8 = false ∧ z = { s with mailbox := z.mailbox }))

/-- R421 to R425: CKPT and RESTORE begin where the context's partition is stopped and end with the image in CXL memory or its
pages back, or with FAULT (when memory is read, log 80, and what stands in a page restored, log 81, DEDUCED). The bytes of a
page are decrypted under the checkpoint key (the halves of its key, log 27, DEDUCED; SHAKE256 and AES, log 19, PRESUMED). -/
def Claim.Checkpoints : Prop :=
  (∀ (s : State) (c : Nat) (addr flags names : Word) (i : Instr) (restore : Bool), s.detail = .values c addr flags names →
    (i, restore) ∈ [(Instr.ckpt, false), (Instr.restore, true)] → c < 2 ^ 64 →
    let free := s.mailbox.cmd.getLsbD 8 = false ∧ s.update.fault = false
    let good := s.allStopped c = true ∧ addr.toNat % 64 = 0 ∧ isCxl addr.toNat = true ∧ (names = 0 ∨ isCxl names.toNat = true)
    (¬free → exec i s = .next s) ∧
    (free → good → ∃ s' x, exec i s = .next s' ∧ s'.transfer = some x ∧ x.restore = restore ∧ x.ctx = c ∧
      x.addr = addr.toNat ∧ x.names = names ∧ (restore = false → x.flags = flags) ∧ s'.mailbox.cmd.getLsbD 8 = true ∧
      s' = { s with transfer := s'.transfer, mailbox := s'.mailbox }) ∧
    (free → ¬good → ∃ s', exec i s = .next s' ∧ s'.mailbox.stat = 5 ∧ s'.mailbox.cmd.getLsbD 8 = false ∧
      s' = { s with mailbox := s'.mailbox })) ∧
  (∀ s : State, (s.transfer = none → exec .ckptComplete s = .next s ∧ exec .restoreComplete s = .next s) ∧
    ∀ x, s.transfer = some x →
      (x.restore = true → exec .ckptComplete s = .next s) ∧ (x.restore = false → exec .restoreComplete s = .next s) ∧
      (x.restore = false → s.allStopped x.ctx = false → ∃ s', exec .ckptComplete s = .next s' ∧ s'.transfer = none ∧
        s'.mailbox.stat = 5 ∧ s'.mem = s.mem) ∧
      (x.restore = false → s.allStopped x.ctx = true → (∀ o ∈ s.owners, o.2 = x.ctx → s.badRun (65536 * o.1) 65536 = false) →
        Memory.wf s.mem = true →
        let image := s.image x.ctx x.addr (if x.flags.getLsbD 0 then (s.nameList x.names.toNat).map Prod.fst else [])
        ∃ s', exec .ckptComplete s = .next s' ∧ s'.transfer = none ∧ s'.mailbox.stat = 0 ∧
          (x.addr % 64 = 0 → isCxl x.addr = true → isCxl (x.addr + image.length - 1) = true →
            s'.bytes x.addr image.length = image ∧ SameOutside x.addr image.length s s')) ∧
      (x.restore = true →
        (s.allStopped x.ctx = false ∨ (s.dword x.addr).toNat ≠ 1 + 2 ^ 32 * (s.ctx x.ctx).gid) → ∃ s',
          exec .restoreComplete s = .next s' ∧ s'.transfer = none ∧ s'.mailbox.stat = 5 ∧ s'.mem = s.mem) ∧
      (x.restore = true → s.allStopped x.ctx = true → (s.dword x.addr).toNat = 1 + 2 ^ 32 * (s.ctx x.ctx).gid →
        s.dword (x.addr + 16) = 0 → ∃ s', exec .restoreComplete s = .next s' ∧ s'.transfer = none ∧
          (s.dword (x.addr + 8) = 0 → s'.mailbox.stat = 0 ∧ s'.mem = s.mem) ∧
          (s.dword (x.addr + 8) ≠ 0 → s.owner (65536 * bitsOf (s.dword (x.addr + 64)) 0 36) ≠ x.ctx →
            s'.mailbox.stat = 5 ∧ s'.mem = s.mem)) ∧
      let page := bitsOf (s.dword (x.addr + 64)) 0 36
      let k := (s.ctx x.ctx).pair
      let one := x.restore = true ∧ s.allStopped x.ctx = true ∧ (s.dword x.addr).toNat = 1 + 2 ^ 32 * (s.ctx x.ctx).gid ∧
        s.dword (x.addr + 8) = 1 ∧ s.dword (x.addr + 16) = 0 ∧ s.owner (65536 * page) = x.ctx
      (one → bitsOf (s.dword (x.addr + 72)) 0 3 = 0 → isCxl (65536 * page) = false → Memory.wf s.mem = true →
        Table.wf s.descs = true → ∃ s', exec .restoreComplete s = .next s' ∧ s'.transfer = none ∧ s'.mailbox.stat = 0 ∧
          (∀ i, i < 65536 → s'.byte (65536 * page + i) = (s.decrypted k (x.addr + 128 + 2048) 65536).getD i 0) ∧
          (∀ j, j < 1024 → s'.desc (65536 * page + 64 * j) = BitVec.ofNat 16 (ofBytes (s.bytes (x.addr + 128 + 2 * j) 2))) ∧
          SameOutside (65536 * page) 65536 s s') ∧
      (one → bitsOf (s.dword (x.addr + 72)) 0 3 = 1 →
        let lines := fun base => s.casLines x.ctx k (x.addr + 128) base (s.nameList x.names.toNat) (List.range 1024) 0
        (s.arenaPage x.ctx page = none ∨ (∃ base, s.arenaPage x.ctx page = some base ∧ (lines base).isNone) →
          ∃ s', exec .restoreComplete s = .next s' ∧ s'.transfer = none ∧ s'.mailbox.stat = 5 ∧ s'.mem = s.mem) ∧
        ∀ base rs, s.arenaPage x.ctx page = some base → lines base = some rs →
          ∃ s', exec .restoreComplete s = .next s' ∧ s'.transfer = none ∧ s'.mailbox.stat = 0 ∧
            (s'.ctx x.ctx).dir = ((s.ctx x.ctx).dir.filter fun e => !(Nat.ble base e.loc && Nat.blt e.loc (base + 65536))) ++
              rs.map fun r => r.entry)) ∧
  (∀ s : State, ∃ s', exec .portReset s = .next s' ∧ s'.transfer = none ∧
    s'.mailbox = { stat := if s.transfer.isSome then 5 else 0 } ∧ s' = { s with transfer := none, mailbox := s'.mailbox }) ∧
  ∀ s : State, let free := s.mailbox.cmd.getLsbD 8 = false ∧ s.update.fault = false
    (¬free → exec .resetPort s = .next s) ∧
    (free → ∃ s', exec .resetPort s = .next s' ∧ s'.transfer = none ∧
      s'.mailbox = { stat := if s.transfer.isSome then 5 else 0 } ∧ s' = { s with transfer := none, mailbox := s'.mailbox })

/-- R392, R393, R412, R421, R443, R422, R423, R424, R425: Host accesses, checkpoints, restores and port resets. -/
def Obligations.HostAndCheckpoints : Prop := Claim.HostAccesses ∧ Claim.Checkpoints

/-- R426, R427, R442, R443: a core without work is gated in two steps, and a wake ends the entry or is held until the core is
up; the health counters are read by group (a group that does not exist ends with BADCMD, log 87, DEDUCED), brought up to date
with the poisoned slices that nothing has read among them, and count each line that scrubbing finds marked once (log 85,
DEDUCED); an uncorrectable error marks its line. What sensors and faults do is the operands' (log 1, DESIGN CHOICE). -/
def Claim.PowerAndHealth : Prop :=
  (∀ (s : State) (c n : Nat), s.detail = .place c n →
    let x := s.core c
    let idle := (∀ e ∈ s.teams, isCoreKey e.1 = true → e.1 / 64 ≠ c) ∧ (s.part (s.partOf c)).cellar = 0 ∧ x.tasks = [] ∧ x.chunk = none
    (x.power = .running → idle → exec .powerGateEntry s = .next (s.putCore c { x with power := .request })) ∧
    (x.power = .running → ¬idle → exec .powerGateEntry s = .next s) ∧
    (x.power = .gated → exec .powerGateEntry s = .next s) ∧
    (x.power = .request → ∃ s', exec .powerGateEntry s = .next s' ∧ s'.core c = { x with power := .gated } ∧
      (∀ d, d ≠ c → s'.core d = s.core d) ∧ s'.teams = s.teams) ∧
    (x.power = .running → exec .coreWake s = .next s) ∧
    (x.power = .request → ∃ s', exec .coreWake s = .next s' ∧ s'.core c = { x with power := .running } ∧ s'.teams = s.teams) ∧
    (x.power = .gated → exec .coreWake s = .next (s.putCore c { x with wakeHeld := true })) ∧
    (x.power = .gated ∧ x.wakeHeld = true →
      exec .corePowerUp s = .next (s.putCore c { x with power := .running, wakeHeld := false })) ∧
    (¬(x.power = .gated ∧ x.wakeHeld = true) → exec .corePowerUp s = .next s)) ∧
  (∀ (s : State) (g n : Nat), s.detail = .place g n → s.mailbox.cmd.getLsbD 8 = false → s.update.fault = false → g < 2 ^ 64 →
    (5 < g → ∃ s', exec .health s = .next s' ∧ s'.mailbox.stat = 2 ∧ s' = { s with mailbox := s'.mailbox }) ∧
    (g ≤ 5 → ∃ s', exec .health s = .next s' ∧ s'.mailbox.stat = 0 ∧ s' = { s with mailbox := s'.mailbox } ∧
      s'.mailbox.data.take (8 * groupSize g) = (s.health.group g).flatMap fun w => toBytes 8 w.toNat)) ∧
  (∀ (s : State) (xs : List Nat), s.detail = .numbers xs →
    (2 * (s.clock - s.health.updatedAt) < 1200000000 → exec .healthCounterUpdate s = .next s) ∧
    (1200000000 ≤ 2 * (s.clock - s.health.updatedAt) → ∃ s', exec .healthCounterUpdate s = .next s' ∧
      s' = { s with health := s'.health } ∧ s'.health.updatedAt = s.clock ∧ s'.health.tally = [0, 0, 0, 0] ∧
      s'.health.group 5 = addTo (s.health.group 5) s.health.tally ∧
      (s'.health.group 0).getD 64 0 = (s.health.group 0).getD 64 0 + (if 4 ≤ xs.length then 1 else 0) ∧
      s'.health.group 1 = addTo (s.health.group 1) ((List.range 7).map fun i => BitVec.ofNat 64 (xs.getD (4 + i) 0)) ∧
      s'.health.group 3 = addTo (s.health.group 3)
        [s.linkrt - s.health.seen.getD 0 0, s.fabreplay - s.health.seen.getD 1 0] ∧
      (s'.health.group 2).getD 7 0 =
        (s.health.group 2).getD 7 0 + (BitVec.ofNat 64 s.neverRead - s.health.seen.getD 3 0) ∧
      s'.health.group 4 = addTo (s.health.group 4) [s.slipSum - s.health.seen.getD 2 0])) ∧
  (∀ (s : State) (near far : Nat), s.detail = .numbers [near, far] → ∃ s', exec .scrubbing s = .next s' ∧
    s' = { s with health := s'.health } ∧ s'.health.counted = Table.keys s.bad ∧
    s'.health.group 1 = addTo (s.health.group 1) [0, BitVec.ofNat 64 near, BitVec.ofNat 64 far] ∧
    s'.health.group 2 = addTo (s.health.group 2) [0, BitVec.ofNat 64 s.marked.1, BitVec.ofNat 64 s.marked.2]) ∧
  ∀ (s : State) (pa what : Nat), s.detail = .place pa what →
    (isPopulated pa = false → exec .uncorrectableError s = .next s) ∧
    (isPopulated pa = true → ∃ s', exec .uncorrectableError s = .next s' ∧ s' = { s with bad := s'.bad } ∧
      (∀ a, s'.badData a = (s.badData a || (what % 2 == 1 && a / 64 == pa / 64))) ∧
      ∀ a, s'.badDesc a = (s.badDesc a || (what / 2 % 2 == 1 && !isCxl pa && a / 64 == pa / 64)))

/-- R412, R413, R422, R427: after a cold reset, with what the layers find of layer 1 and the two slots (log 20), every register
has its reset value and the active slot boots if it verifies and its security version is not below the counter, else the other,
else nothing runs and the host port is in its error state; a warm reset updates the counters, kills every context, keeps device memory and what is
in nonvolatile storage (log 82, DEDUCED), and boots from the slots as they stand; a loss of power leaves nothing running (log 86,
DEDUCED). -/
def Claim.Resets : Prop :=
  (∀ (s : State) (a b : ImageCheck) (layer1 : Bool), s.detail = .boot a b layer1 → s.update.active < 2 →
    let found := fun (n : Nat) => if n = 0 then s.imageA.checked a else s.imageB.checked b
    let good := fun (n : Nat) => layer1 = true ∧ (found n).verified = true ∧ s.rollback ≤ (found n).secver
    let boots := fun (n : Nat) => ∃ s', exec .coldReset s = .next s' ∧ s'.update.active = n ∧ s'.update.state = 0 ∧
      s'.update.fault = false ∧ s'.rollback = s.rollback ∧ s'.slot n = found n ∧ s'.clock = 0 ∧ s'.ctxs = [] ∧ s'.cores = [] ∧
      s'.parts = [] ∧ s'.launches = [] ∧ s'.links = [] ∧ s'.evq = State.reset.evq ∧ s'.lease = State.reset.lease ∧
      s'.mailbox = {} ∧ s'.slots = [] ∧ s'.spdm = {} ∧
      ∀ d, d < 4 → ∃ u, s'.team? (sysKey d) = some u ∧ u.role = .system ∧ u.level = 2 ∧ u.wait = .ready ∧
        u.pc = BitVec.ofNat 64 (found n).entry ∧ ∀ r, u.s r = 0
    (good s.update.active → boots s.update.active) ∧
    (¬good s.update.active → good (1 - s.update.active) → boots (1 - s.update.active)) ∧
    (¬good 0 → ¬good 1 → ∃ s', exec .coldReset s = .next s' ∧ s'.update.fault = true ∧ s'.mailbox.stat = 5 ∧
      s'.rollback = s.rollback ∧ s'.mem = [] ∧ ∀ e ∈ s'.teams, e.2.wait = .idle)) ∧
  (∀ s : State, let free := s.mailbox.cmd.getLsbD 8 = false ∧ s.update.fault = false
    let good := fun (n : Nat) => (s.slot n).verified = true ∧ s.rollback ≤ (s.slot n).secver
    let quiet := ∀ e ∈ s.ctxs, e.2.alive = false
    (¬free → exec .resetWarm s = .next s) ∧
    (free → ∃ s', exec .resetWarm s = .next s' ∧ s'.clock = 0 ∧ s'.launches = [] ∧ s'.cores = [] ∧ s'.links = [] ∧
      s'.update.state = 0 ∧ s'.rollback = s.rollback ∧ s'.imageA = s.imageA ∧ s'.imageB = s.imageB ∧
      s'.health.group 5 = addTo (s.health.group 5) s.health.tally ∧ s'.health.tally = [0, 0, 0, 0] ∧
      (∀ c, (s'.ctx c).alive = false ∧ (s'.ctx c).key = none) ∧
      (∀ n, n < 2 → s.update.active < 2 → good n → (n = s.update.active ∨ ¬good s.update.active) →
        s'.update.active = n ∧ s'.update.fault = false ∧ s'.mailbox = {} ∧
        (∀ d, d < 4 → ∃ u, s'.team? (sysKey d) = some u ∧ u.level = 2 ∧ u.wait = .ready ∧
          u.pc = BitVec.ofNat 64 (s.slot n).entry ∧ ∀ r, u.s r = 0) ∧
        (quiet → Memory.wf s.mem = true → ∀ a, (∀ i, i < (s.slot n).size → a / 16 ≠ ((s.slot n).entry + i) / 16) →
          s'.cell a = s.cell a)) ∧
      (s.serial ≠ 0 → s.update.active < 2 → ¬good 0 → ¬good 1 →
        s'.update.fault = true ∧ s'.mailbox.stat = 5 ∧ (∀ e ∈ s'.keyTags, e.2 ≠ 0) ∧ (∀ e ∈ s'.teams, e.2.wait = .idle) ∧
        (quiet → s'.mem = s.mem ∧ s'.descs = s.descs ∧ s'.bad = s.bad)))) ∧
  ∀ s : State, ∃ s', exec .powerLoss s = .next s' ∧ s'.imageA = s.imageA ∧ s'.imageB = s.imageB ∧ s'.rollback = s.rollback ∧
    s'.update.active = s.update.active ∧ s'.mem = [] ∧ s'.ctxs = [] ∧ s'.health.groups = s.health.groups ∧
    ∀ e ∈ s'.teams, e.2.wait = .idle

/-- R426, R427, R442, R443, R412, R413, R422: Power gating, health counters, marked lines, and resets. -/
def Obligations.PowerHealthResets : Prop := Claim.PowerAndHealth ∧ Claim.Resets

/-- R412, R414 to R416, R420: the SPDM responder (codes, layouts and the key schedule: logs 25, 108, PRESUMED) goes through
version, capabilities and algorithms in order, answers an error out of order, and holds signed responses until an image holds the
lease, which then signs the oldest of them. A session is made by KEY_EXCHANGE and FINISH, whose verify data is an HMAC over the
transcript; in it requests are opened and responses sealed with the keys of the schedule. The chain of slot 0 follows the layers'
secrets, each made from the last one's and the measurement of its layer. -/
def Obligations.Spdm : Prop :=
  (∀ s : State, exec .getVersion s = .next { s with
    spdm := { version := true, vca := spdmMessage 0x84 [] ++ spdmMessage 0x04 [0x13], sent := s.spdm.sent ++ [(0x04, [0x13])] } }) ∧
  (∀ (s : State) (code : Nat) (bs : List Byte),
    let x := s.spdm
    let msg := spdmMessage code bs
    s.respond code bs = { s with spdm := { x with sent := x.sent ++ [(code, bs)] } } ∧
    s.respondSealed code bs = { s with spdm := { x with
      sealed := x.sealed + 1
      sent := x.sent ++ [(code, ((x.cipher false x.sealed msg.length).seal (msg.map fun (b : Byte) => b.toNat)).map (BitVec.ofNat 8))] } } ∧
    let m := x.transcript ++ spdmMessage 0x64 bs
    ∃ proof, (s.exchangeSigned bs).spdm = { x with
        transcript := m ++ proof, th1 := shake256 m 32, sent := x.sent ++ [(0x64, bs ++ proof)] } ∧
      proof = { x with th1 := shake256 m 32 }.verify false (shake256 m 32)) ∧
  (∀ (s : State) (n code : Nat) (data bs : List Byte), let x := s.spdm
    let plain := (x.cipher true x.opened (data.length - 16)).unseal (data.map fun b => b.toNat)
    (x.session = 0 ∨ x.th1 = [] ∨ n ≠ x.session ∨ plain = none → s.openSealed code n data = none) ∧
    (x.session = n → n ≠ 0 → x.th1 ≠ [] → 2 ≤ bs.length →
      plain = some (([0x13, BitVec.ofNat 8 code] ++ bs).map fun (b : Byte) => b.toNat) →
      s.openSealed code n data = some ({ s with spdm := { x with opened := x.opened + 1 } }, bs))) ∧
  (∀ s : State, let x := s.spdm
    (x.version = true → exec .getCapabilities s = .next ({ s with spdm := { x with
      caps := true, vca := x.vca ++ spdmMessage 0xE1 [] ++ spdmMessage 0x61 [] } }.respond 0x61 [])) ∧
    (x.version = false → exec .getCapabilities s = .next (s.respond 0x7F [])) ∧
    (∀ a n key, s.detail = .bytes a n key → (x.algs = true → key.length = 1184 → ∃ ct shared : List Byte,
        ct.length = 1088 ∧ shared.length = 32 ∧ exec .keyExchange s = .next { s with
          spdm := { x with
            session := s.serial, finished := false, sealed := 0, opened := 0, secret := hmac (List.replicate 32 0) shared
            transcript := x.vca ++ shake256 s.certChain 32 ++ spdmMessage 0xE4 key, th1 := [], th2 := []
            unsigned := x.unsigned ++ [{ code := 0x64, first := ct, session := s.serial }] }
          serial := s.serial + 1, fresh := s.fresh + 1 }) ∧
      (x.algs = false ∨ key.length ≠ 1184 → exec .keyExchange s = .next (s.respond 0x7F [])))) ∧
  (∀ (s : State) (offered : List (Nat × Nat)) (aead schedule : Bool), s.detail = .offer offered aead schedule →
    let all := s.spdm.caps = true ∧ aead = true ∧ schedule = true ∧ ∀ a ∈ [0x0101, 0x0201, 0x0301], (3, a) ∈ offered
    (all → ∃ asked, exec .negotiateAlgorithms s = .next ({ s with spdm := { s.spdm with
      algs := true, vca := s.spdm.vca ++ asked ++ spdmMessage 0x63 algorithmsSelected } }.respond 0x63 algorithmsSelected)) ∧
    (¬all → exec .negotiateAlgorithms s = .next ({ s with spdm := { s.spdm with algs := false } }.respond 0x7F []))) ∧
  (∀ (s : State) (a n : Nat), s.detail = .place a n →
    (s.spdm.algs = false → ∀ i, i ∈ [Instr.getDigests, .getCertificate, .challenge, .getMeasurements, .keyExchange] →
      exec i s = .next (s.respond 0x7F [])) ∧
    (∀ i, i ∈ [Instr.finish, .spdmHeartbeat, .endSession] → exec i s = .next (s.respond 0x7F [])) ∧
    (s.spdm.algs = true →
      exec .getDigests s = .next (s.respond 0x01 (shake256 s.certChain 32)) ∧
      exec .challenge s = .next (s.toSign { code := 0x03 }) ∧
      exec .getCertificate s = .next (s.respond 0x02 ((s.certChain.drop a).take n)) ∧
      (a ≤ 4 ∨ a = 255 → exec .getMeasurements s = .next (s.toSign { code := 0x60, op := a })) ∧
      (4 < a → a ≠ 255 → exec .getMeasurements s = .next (s.respond 0x7F [])))) ∧
  (∀ (s : State) (n : Nat) (data : List Byte), s.detail = .sealed n data →
    (s.spdm.finished = false → ∀ i, i ∈ [Instr.getDigests, .getCertificate, .challenge, .getMeasurements, .spdmHeartbeat, .endSession] →
      exec i s = .next (s.respond 0x7F [])) ∧
    (∀ i code, (i, code) ∈ [(Instr.getDigests, 0x81), (.getCertificate, 0x82), (.challenge, 0x83), (.getMeasurements, 0xE0),
        (.spdmHeartbeat, 0xE8), (.endSession, 0xEC), (.finish, 0xE5)] →
      s.openSealed code n data = none → exec i s = .next (s.respond 0x7F [])) ∧
    (s.spdm.finished = true → ∀ s1 bs,
      (s.openSealed 0x81 n data = some (s1, bs) → s.spdm.algs = true →
        exec .getDigests s = .next (s1.respondSealed 0x01 (shake256 s.certChain 32))) ∧
      (s.openSealed 0x82 n data = some (s1, bs) → s.spdm.algs = true →
        exec .getCertificate s = .next (s1.respondSealed 0x02 ((s.certChain.drop (fieldAt bs 2 2)).take (fieldAt bs 4 2)))) ∧
      (s.openSealed 0x83 n data = some (s1, bs) → exec .challenge s = .next (s1.respondSealed 0x7F [])) ∧
      (s.openSealed 0xE0 n data = some (s1, bs) → s.spdm.algs = true → fieldAt bs 1 1 ≤ 4 ∨ fieldAt bs 1 1 = 255 →
        exec .getMeasurements s = .next (s1.toSign { code := 0x60, op := fieldAt bs 1 1, session := n })) ∧
      (s.openSealed 0xE8 n data = some (s1, bs) → exec .spdmHeartbeat s = .next (s1.respondSealed 0x68 [])) ∧
      (s.openSealed 0xEC n data = some (s1, bs) → ∃ s' b, exec .endSession s = .next s' ∧ s'.spdm = { s1.spdm with
        session := 0, secret := [], transcript := [], th1 := [], th2 := [], sealed := 0, opened := 0, finished := false
        unsigned := s.spdm.unsigned.filter fun u => u.session != n, sent := s.spdm.sent ++ [(0x6C, b)] })) ∧
    (s.spdm.finished = true → exec .finish s = .next (s.respond 0x7F [])) ∧
    ∀ s1 bs, s.spdm.finished = false → s.openSealed 0xE5 n data = some (s1, bs) →
      let head : List Byte := [0x13, 0xE5] ++ bs.take 2
      let proof := s1.spdm.verify true (shake256 (s1.spdm.transcript ++ head) 32)
      (bs.drop 2 ≠ proof → exec .finish s = .next (s1.respondSealed 0x7F [])) ∧
      (bs.drop 2 = proof → ∃ out, exec .finish s = .next { s1 with spdm := { s1.spdm with
        finished := true, sealed := 0, opened := 0, sent := s.spdm.sent ++ [(0x65, out)]
        th2 := shake256 (s1.spdm.transcript ++ (head ++ proof) ++ spdmMessage 0x65 []) 32 } })) ∧
  (∀ (s : State) (slot n : Nat), s.layerSecret slot (n + 1) = shake256 (s.layerSecret slot n ++ s.layerMeasure slot (n + 1)) 32) ∧
  (∀ (s : State) (slot : Nat), s.layerMeasure slot 2 = shake256 ((List.range (s.slot slot).size).map fun i =>
    Table.getD (s.slot slot).bytes i 0) 32) ∧
  ∀ s : State,
    let own := s.runningSlot
    let record := fun (bs : List Nat) => bs.flatMap fun i => measurementBlock i (s.measurement own i)
    s.measurements own 0 = [4, 0, 0, 0, 0] ∧
    s.measurements own 255 = [0, 4] ++ toBytes 3 (record [1, 2, 3, 4]).length ++ record [1, 2, 3, 4] ∧
    (∀ i, 1 ≤ i → i ≤ 4 → s.measurements own i = [0, 1] ++ toBytes 3 (record [i]).length ++ record [i]) ∧
    s.measurement own 1 = s.layerMeasure own 1 ∧
    s.measurement own 2 = (s.slot own).measure ++ toBytes 1 own ++ toBytes 4 (s.slot own).secver ∧
    s.measurement own 3 = (if s.update.state = 2 ∨ s.update.state = 3 then (s.slot (1 - own)).measure else List.replicate 32 0) ∧
    s.measurement own 4 = toBytes 32 s.rollback ∧
    (s.spdm.unsigned = [] ∨ s.leased = false → exec .spdmResponseSign s = .next s) ∧
    ∀ u rest, s.spdm.unsigned = u :: rest → s.leased = true → ∃ sig : List Byte, sig.length = 3309 ∧
      let s1 := { s with spdm := { s.spdm with unsigned := rest }, fresh := s.fresh + 1 }
      let here := u.session = 0 ∨ u.session = s.spdm.session
      (¬here → exec .spdmResponseSign s = .next s1) ∧
      (here → u.code = 0x64 → exec .spdmResponseSign s = .next (s1.exchangeSigned (u.first ++ sig))) ∧
      (here → u.code = 0x60 → exec .spdmResponseSign s =
        .next (s1.respondIn u.session 0x60 (u.first ++ s.measurements own u.op ++ sig))) ∧
      (here → u.code ≠ 0x64 → u.code ≠ 0x60 → exec .spdmResponseSign s = .next (s1.respondIn u.session u.code (u.first ++ sig)))

/-! ### Decoding, steps, invariants, reset -/

/-- R43, R53 and the examples of the rows: words written out from the manual decode to the instructions they stand for. -/
def Obligations.DecodesWords : Prop :=
  ∀ x ∈ ([
    (0x08003088, .iadd { c := false, g := 0, d := 3, a := 1, b := 2, t := 0 }),
    (0x88003088, .iadd { c := true, g := 0, d := 3, a := 1, b := 2, t := 0 }),
    (0x10042080, .saddi { c := false, sd := 4, sa := 4, imm := 128 }),
    (0x14404220, .icmp { c := false, cond := 2, pd := 1, a := 1, b := 2, k := 0, t := 0 }),
    (0x40004204, .ldl { c := false, g := 0, d := 4, s := 4, x := 1, z := 0 }),
    (0x2A00A200, .ldq { c := false, g := 0, d := 10, s := 4, rm := 0, fmt := 0 }),
    (0x2A208203, .stq { c := false, g := 0, d := 8, s := 4, rm := 0, fmt := 3 }),
    (0x52020042, .push { c := false, p := 2, q := 0, w := 1, f := 2 }),
    (0x78000123, .trap { c := false, p := 0, q := 0, w := 4, f := 35 }),
    (0x78470030, .srd { c := false, p := 7, q := 0, w := 0, f := 48 }),
    (0x78C03002, .haltSwap { c := false, p := 0, q := 6, w := 0, f := 2 }),
    (0x7C053001, .launchPro { c := false, p := 5, q := 6, w := 0, f := 1 }),
    (0x7C8C0000, .tspawn { c := false, p := 12, q := 0, w := 0, f := 0 })] : List (Nat × Instr)), decodeTableWord 32 x.1 = some x.2

/-- R43, R44, R51 to R53: the decoder reads every well-formed instruction back from its words, whatever its operands. -/
def Obligations.DecodeEncode : Prop :=
  ∀ i : Instr, i.encoded = true → i.wf = true → ∃ w rest, encode i = w :: rest ∧ decode w (rest.headD 0) = .ok i

/-- R43, R44, R54: a word that decodes is the word of its instruction, which is well formed, so that no bit of a word is passed
over; the all-zero word and the majors that the map leaves undefined raise cause 1. -/
def Obligations.DecodedWords : Prop :=
  (∀ (w lit : Code) (i : Instr), decode w lit = .ok i → i.encoded = true ∧ i.wf = true ∧
    encode i = if isLiteralWord w then [w, lit] else [w]) ∧
  ∀ w lit : Code, (w.extractLsb' 25 6).toNat ∈ [0x00, 0x3F, 0x0F, 0x16, 0x17, 0x19, 0x1A, 0x1B, 0x1C, 0x1D, 0x1E, 0x1F, 0x23, 0x26, 0x27,
    0x2A, 0x2B, 0x2D, 0x2E, 0x2F, 0x31, 0x32, 0x33, 0x37, 0x39, 0x3A, 0x3B, 0x3D] → decode w lit = .error .undef

/-- R33, R35 to R37, R52, R54, R62, R68, R395: a step that issues for a team fetches the word at its PC and the rest of its chain,
checks its target and its chain, decodes it with its literal, and makes what exec makes of the instruction, with the team as the
acting one and the slices that it touches brought back (R129); a word that is none raises cause 1, or 4 (JOIN and EXIT: logs 10,
98, DEDUCED), a cause that a wait has left is raised at the word, and cause 11 at the very word whose fetch failed. The two threads
of a control core take turns. The agenda, then work that is due, then the turn of the issuers say what a step is (the model's
order, log 2; one word a step, log 8). -/
def Obligations.StepRunsDecoded : Prop :=
  (∀ (s : State) (k : Nat) (rest : List Happening) (t : Team), s.agenda = .issue k :: rest →
    let s0 := { s with agenda := rest }
    s.team? k = some t → t.wait = .ready → s0.mayRun k t = true → s0.hasTurn k t = true →
    (∀ c a, t.raised = some (c, a) → step s = .next ((s0.loadEnds k t).takeTrap k c { pass := t.resume, addr := a })) ∧
    (∀ c s', t.raised = none → (s0.beginImage t).fetch k t t.pc = .fault c s' → step s = .next ((s'.turned k).takeTrap k c {})) ∧
    (∀ s', t.raised = none → (s0.beginImage t).fetch k t t.pc = .wait s' → step s = .next s') ∧
    (∀ w s', t.raised = none → (s0.beginImage t).fetch k t t.pc = .word w → t.chained = false →
      (s0.beginImage t).fetchChain k t (packetRoom t.pc - 1) t.pc w = some s' → step s = .next s') ∧
    ∀ w, t.raised = none → (s0.beginImage t).fetch k t t.pc = .word w →
      (t.chained = true ∨ (s0.beginImage t).fetchChain k t (packetRoom t.pc - 1) t.pc w = none) →
      let s1 := { s0.beginImage t with actor := k }
      let s2 := s1.turned k
      (t.target = true → s1.targetOk k t = false → step s = .next (s2.takeTrap k 3 {})) ∧
      (t.chained = false → s1.chainOk k t = false → step s = .next (s2.takeTrap k 3 {})) ∧
      ((t.target = true → s1.targetOk k t = true) → (t.chained = false → s1.chainOk k t = true) →
        (rawDecode w 0 = .error .undef → step s = .next (s2.takeTrap k 1 {})) ∧
        (rawDecode w 0 = .error .badField → step s = .next (s2.takeTrap k
          (if t.role = .system ∨ t.role = .prologue then 1 else 4) {})) ∧
        ∀ i lit, rawDecode w lit = .ok i → (isLiteralWord w = true → s1.fetch k t (t.pc + 4) = .word lit) →
          (isLiteralWord w = false → lit = 0) →
          (s1.scoreboard t i = false → step s = exec i (s2.bringBack k t i)) ∧
          (s1.scoreboard t i = true → step s = .next (s1.endOwnRun k)))) ∧
  (∀ (s : State) (k : Nat) (rest : List Happening) (t : Team), s.agenda = .issue k :: rest → s.team? k = some t →
    let s0 := { s with agenda := rest }
    (t.wait ≠ .ready ∨ s0.mayRun k t = false ∨ s0.hasTurn k t = false → step s = .next s0)) ∧
  (∀ (s : State) (k : Nat) (t : Team),
    (isCoreKey k = true → s.hasTurn k t = true ∧ s.turned k = s) ∧
    (isCoreKey k = false → s.turned k = { s with lastThread := s.lastThread.set (dieOf k) k } ∧
      ∀ u, s.team? (otherThread k) = some u → u.chained = false → t.chained = false → s.canIssue (otherThread k) u = true →
        s.hasTurn k t = !(s.lastThread.getD (dieOf k) 0 == k))) ∧
  (∀ (s : State) (k : Nat) (t : Team) (i : Instr), (∀ x ∈ (s.core (coreOf k)).slices, x.place = none) →
    (s.bringBack k t i).teams = s.teams ∧ OnlyTeam Core.stillReuse k s (s.bringBack k t i)) ∧
  (∀ (s : State) (k : Nat) (t : Team) (a : Word), t.role ≠ .system → t.role ≠ .prologue → t.lost ≠ some a →
    let q := s.quad (k / 64 / 4)
    (∀ w, q.held t.ctx a = some w → s.fetch k t a = .word w) ∧
    ∀ p, q.held t.ctx a = none → s.fetchPage (dieOf k) t.ctx a = .ok p → s.team? k = some t → isCoreKey k = true →
      ∃ s', s.fetch k t a = .wait s' ∧ (t.ctx, codeLine a) ∈ (s'.quad (k / 64 / 4)).filling ∧ SameMemory s s' ∧
        (s'.team? k).map (fun u => (u.wait, u.pc)) = some (.line (codeLine a), t.pc) ∧
        (s'.core (k / 64)).slips = (s.core (k / 64)).slips + 1) ∧
  (∀ (s : State) (k : Nat) (t : Team) (a : Word), t.lost = some a → s.fetch k t a = .fault 11 s) ∧
  (∀ (s : State) (k : Nat) (t : Team) (a : Word), t.role = .system → t.lost ≠ some a →
    (mayFetch t a = true → s.fetch k t a = .word (BitVec.ofNat 32 (ofBytes (s.bytes a.toNat 4)))) ∧
    (mayFetch t a = false → s.fetch k t a = .fault 17 s)) ∧
  (∀ (s : State) (i : Instr) (d : Detail) (rest : List Happening), s.agenda = .event i d :: rest →
    step s = exec i { s with agenda := rest, detail := d }) ∧
  (∀ (s : State) (i : Instr) (d : Detail), s.agenda = [] → s.due = some (i, d) → step s = exec i { s with detail := d }) ∧
  ∀ (s : State) (k : Nat), s.agenda = [] → s.due = none →
    let s1 := { (s.tick 1).endRuns with turn := s.turn + 1 }
    s1.issuers = [k] → step s = s1.issue k

/-- R42, R44, R54, R103, R175, R267, R369, R395, R407: the checks made of a form before its effect, in their order (where causes
1 of a control core, 10, 2, 4 and 41 stand among them: log 10, DEDUCED; JOIN and EXIT there: log 98, DEDUCED), each of which
raises its cause at the word with no other effect. -/
def Obligations.FormChecks : Prop :=
  (∀ (i : Instr) (s : State) (k : Nat) (t : Team) (c : Nat), i.encoded = true → s.actor = k → s.team? k = some t →
    formCause t i = some c → exec i s = .next (s.takeTrap k c {})) ∧
  ∀ (t : Team) (i : Instr),
    (t.role = .system → controlMay true i = false → formCause t i = some 1) ∧
    (t.role = .prologue → controlMay false i = false → formCause t i = some 1) ∧
    (t.role = .loader → loaderMay i = false → formCause t i = some 10) ∧
    (t.role ∉ [Role.system, .prologue, .loader] → (∃ f, i = .tlbinv f ∨ i = .keykill f ∨ i = .haltIdle ∨ i = .haltStop f ∨
      i = .haltSwap f ∨ i = .haltGo f ∨ i = .plead f ∨ i = .launch f ∨ i = .launchPro f ∨ i = .lcancel f ∨ i = .lcancelAgain f ∨
      i = .qtake f) → formCause t i = some 2) ∧
    ((t.role = .system → controlMay true i = true) → (t.role = .prologue → controlMay false i = true) →
      (t.role = .loader → loaderMay i = true) →
      (privileged t i = true → formCause t i = some 2) ∧
      (privileged t i = false → i.wf = false → formCause t i = some 4) ∧
      (privileged t i = false → i.wf = true → (∃ n ∈ predsOf i, t.pdecl ≤ n) → formCause t i = some 41) ∧
      (privileged t i = false → i.wf = true → (∀ n ∈ predsOf i, n < t.pdecl) → formCause t i = none))

/-- Memory keeps its canonical form over every step (the model's own form of memory, log 4). -/
def Obligations.StepKeepsMemory : Prop :=
  ∀ s s' : State, Memory.wf s.mem = true → Sys2Proof.Machine.step s = .next s' → Memory.wf s'.mem = true

/-- R369: cores always run at user level: no step gives a core's team another level or the role of a control thread, in the
cellars neither. -/
def Obligations.CoresStayAtUser : Prop :=
  ∀ s s' : State, s.CoresAtUser → Sys2Proof.Machine.step s = .next s' → s'.CoresAtUser

/-- Reset meets the invariants of the steps. -/
def Claim.ResetMeetsInvariants : Prop :=
  Memory.wf State.reset.mem = true ∧ State.reset.CoresAtUser ∧ Table.wf State.reset.teams = true

/-- R99, R145, R245, R317, R345, R368, R373, R394, R411, R421, R428: what the register tables give as reset values, and the
threads that run (scalars and PC of system threads, log 5, DESIGN CHOICE). -/
def Claim.ResetValues : Prop :=
  let s := State.reset
  s.clock = 0 ∧ s.evq.size = 64 ∧ s.evq.head = 0 ∧ s.evq.tail = 0 ∧ s.evq.base = 0 ∧ s.evq.lost = 0 ∧ s.evq.next = 1 ∧
  s.fabto = 12000000 ∧ s.linkrt = 0 ∧ s.fabreplay = 0 ∧ s.pbeat = 1200000 ∧ s.cscoll = 0 ∧ s.lease.held = false ∧ s.lease.term = 0 ∧
  s.lease.length = 2400000 ∧ s.update.state = 0 ∧ s.update.hbto = 120000000 ∧ s.update.tbaddr = 0 ∧ s.update.stgver = 0 ∧
  s.mailbox.cmd = 0 ∧ s.mailbox.stat = 0 ∧ s.mailbox.args = [0, 0, 0, 0] ∧ s.pgown = 0 ∧ s.syssel = [0, 0, 0, 0] ∧
  s.lqsel = [0, 0, 0, 0] ∧ (∀ pa, s.owner pa = 0) ∧
  (∀ c, let x := s.ctx c
    x.alive = false ∧ x.key = none ∧ x.killed = false ∧ x.ptroot = 0 ∧ x.bargrant = 0 ∧ x.csArena = 0 ∧ x.csSize = 0 ∧ x.pgBase = 0 ∧
    x.pgSize = 0 ∧ x.psilent = 0 ∧ x.pautox = false ∧ x.psdef = 0 ∧ x.gid = 0 ∧ x.fwdcnt = 0) ∧
  (∀ p, (s.part p).word = 0) ∧
  (∀ c q, let x := s.queue c q
    x.base = 0 ∧ x.size = 16 ∧ x.head = 0 ∧ x.tail = 0 ∧ x.seq = 1 ∧ x.prio = 0 ∧ x.enable = false ∧ x.halted = false) ∧
  (∀ c, let x := s.core c
    x.slips = 0 ∧ x.ruhits = 0 ∧ x.rulook = 0 ∧ x.slspill = 0 ∧ x.slbase = 0 ∧ x.spillres = 16 ∧ x.mmaops = 0 ∧ x.tasks = []) ∧
  ∀ d, d < 4 → ∃ t, s.team? (sysKey d) = some t ∧ t.role = .system ∧ t.level = 2 ∧ t.loops = [] ∧ t.stack = [] ∧ ∀ r, t.s r = 0

/-- R99, R145, R245, R317, R345, R368, R373, R394, R411, R421, R428: The reset values of the register tables, and the invariants
at reset. -/
def Obligations.ResetState : Prop := Claim.ResetMeetsInvariants ∧ Claim.ResetValues
end

