-- ==== Sys2Proof/Laws/Encoding.lean ====
section
/-! SUPPORT. The fields of a word that the encoder lays out, as the decoder reads them (R43). -/

namespace Sys2Proof

theorem encodeFmtV_maj (maj : BitVec 6) (min : BitVec 4) (f : FmtV) : (encodeFmtV maj min f).extractLsb' 25 6 = maj := by
  apply BitVec.eq_of_getLsbD_eq
  intro i hi
  have e : (encodeFmtV maj min f).getLsbD (25 + i) = @BitVec.getLsbD (1 + 6 + 4 + 4 + 5 + 5 + 5 + 2)
    (bit1 f.c ++ maj ++ min ++ f.g ++ f.d ++ f.a ++ f.b ++ f.t) (25 + i) := rfl
  rw [BitVec.getLsbD_extractLsb', e]
  simp only [BitVec.getLsbD_append]
  simp (disch := omega) only [if_neg, if_true, hi, decide_true, Bool.true_and, show 25 + i - 2 - 5 - 5 - 5 - 4 - 4 = i by omega]

theorem encodeFmtV_min (maj : BitVec 6) (min : BitVec 4) (f : FmtV) : (encodeFmtV maj min f).extractLsb' 21 4 = min := by
  apply BitVec.eq_of_getLsbD_eq
  intro i hi
  have e : (encodeFmtV maj min f).getLsbD (21 + i) = @BitVec.getLsbD (1 + 6 + 4 + 4 + 5 + 5 + 5 + 2)
    (bit1 f.c ++ maj ++ min ++ f.g ++ f.d ++ f.a ++ f.b ++ f.t) (21 + i) := rfl
  rw [BitVec.getLsbD_extractLsb', e]
  simp only [BitVec.getLsbD_append]
  simp (disch := omega) only [if_neg, if_true, hi, decide_true, Bool.true_and, show 21 + i - 2 - 5 - 5 - 5 - 4 = i by omega]

theorem encodeFmtV_c (maj : BitVec 6) (min : BitVec 4) (f : FmtV) : (encodeFmtV maj min f).getLsbD 31 = f.c := by
  have e : (encodeFmtV maj min f).getLsbD 31 = @BitVec.getLsbD (1 + 6 + 4 + 4 + 5 + 5 + 5 + 2)
    (bit1 f.c ++ maj ++ min ++ f.g ++ f.d ++ f.a ++ f.b ++ f.t) 31 := rfl
  rw [e]
  simp only [BitVec.getLsbD_append]
  simp [bit1]

theorem encodeFmtV_g (maj : BitVec 6) (min : BitVec 4) (f : FmtV) : (encodeFmtV maj min f).extractLsb' 17 4 = f.g := by
  apply BitVec.eq_of_getLsbD_eq
  intro i hi
  have e : (encodeFmtV maj min f).getLsbD (17 + i) = @BitVec.getLsbD (1 + 6 + 4 + 4 + 5 + 5 + 5 + 2)
    (bit1 f.c ++ maj ++ min ++ f.g ++ f.d ++ f.a ++ f.b ++ f.t) (17 + i) := rfl
  rw [BitVec.getLsbD_extractLsb', e]
  simp only [BitVec.getLsbD_append]
  simp (disch := omega) only [if_neg, if_true, hi, decide_true, Bool.true_and, show 17 + i - 2 - 5 - 5 - 5 = i by omega]

theorem encodeFmtV_d (maj : BitVec 6) (min : BitVec 4) (f : FmtV) : (encodeFmtV maj min f).extractLsb' 12 5 = f.d := by
  apply BitVec.eq_of_getLsbD_eq
  intro i hi
  have e : (encodeFmtV maj min f).getLsbD (12 + i) = @BitVec.getLsbD (1 + 6 + 4 + 4 + 5 + 5 + 5 + 2)
    (bit1 f.c ++ maj ++ min ++ f.g ++ f.d ++ f.a ++ f.b ++ f.t) (12 + i) := rfl
  rw [BitVec.getLsbD_extractLsb', e]
  simp only [BitVec.getLsbD_append]
  simp (disch := omega) only [if_neg, if_true, hi, decide_true, Bool.true_and, show 12 + i - 2 - 5 - 5 = i by omega]

theorem encodeFmtV_a (maj : BitVec 6) (min : BitVec 4) (f : FmtV) : (encodeFmtV maj min f).extractLsb' 7 5 = f.a := by
  apply BitVec.eq_of_getLsbD_eq
  intro i hi
  have e : (encodeFmtV maj min f).getLsbD (7 + i) = @BitVec.getLsbD (1 + 6 + 4 + 4 + 5 + 5 + 5 + 2)
    (bit1 f.c ++ maj ++ min ++ f.g ++ f.d ++ f.a ++ f.b ++ f.t) (7 + i) := rfl
  rw [BitVec.getLsbD_extractLsb', e]
  simp only [BitVec.getLsbD_append]
  simp (disch := omega) only [if_neg, if_true, hi, decide_true, Bool.true_and, show 7 + i - 2 - 5 = i by omega]

theorem encodeFmtV_b (maj : BitVec 6) (min : BitVec 4) (f : FmtV) : (encodeFmtV maj min f).extractLsb' 2 5 = f.b := by
  apply BitVec.eq_of_getLsbD_eq
  intro i hi
  have e : (encodeFmtV maj min f).getLsbD (2 + i) = @BitVec.getLsbD (1 + 6 + 4 + 4 + 5 + 5 + 5 + 2)
    (bit1 f.c ++ maj ++ min ++ f.g ++ f.d ++ f.a ++ f.b ++ f.t) (2 + i) := rfl
  rw [BitVec.getLsbD_extractLsb', e]
  simp only [BitVec.getLsbD_append]
  simp (disch := omega) only [if_neg, if_true, hi, decide_true, Bool.true_and, show 2 + i - 2 = i by omega]

theorem encodeFmtV_t (maj : BitVec 6) (min : BitVec 4) (f : FmtV) : (encodeFmtV maj min f).extractLsb' 0 2 = f.t := by
  apply BitVec.eq_of_getLsbD_eq
  intro i hi
  have e : (encodeFmtV maj min f).getLsbD (0 + i) = @BitVec.getLsbD (1 + 6 + 4 + 4 + 5 + 5 + 5 + 2)
    (bit1 f.c ++ maj ++ min ++ f.g ++ f.d ++ f.a ++ f.b ++ f.t) (0 + i) := rfl
  rw [BitVec.getLsbD_extractLsb', e]
  simp only [BitVec.getLsbD_append]
  simp (disch := omega) only [if_neg, if_true, hi, decide_true, Bool.true_and, Nat.zero_add]

theorem decodeFmtV_encode (maj : BitVec 6) (min : BitVec 4) (f : FmtV) : decodeFmtV (encodeFmtV maj min f) = f := by
  simp only [decodeFmtV, encodeFmtV_c, encodeFmtV_g, encodeFmtV_d, encodeFmtV_a, encodeFmtV_b, encodeFmtV_t]

theorem encodeFmtVI_maj (maj : BitVec 6) (min : BitVec 4) (f : FmtVI) : (encodeFmtVI maj min f).extractLsb' 25 6 = maj := by
  apply BitVec.eq_of_getLsbD_eq
  intro i hi
  have e : (encodeFmtVI maj min f).getLsbD (25 + i) = @BitVec.getLsbD (1 + 6 + 4 + 4 + 5 + 5 + 7)
    (bit1 f.c ++ maj ++ min ++ f.g ++ f.d ++ f.a ++ f.imm) (25 + i) := rfl
  rw [BitVec.getLsbD_extractLsb', e]
  simp only [BitVec.getLsbD_append]
  simp (disch := omega) only [if_neg, if_true, hi, decide_true, Bool.true_and, show 25 + i - 7 - 5 - 5 - 4 - 4 = i by omega]

theorem encodeFmtVI_min (maj : BitVec 6) (min : BitVec 4) (f : FmtVI) : (encodeFmtVI maj min f).extractLsb' 21 4 = min := by
  apply BitVec.eq_of_getLsbD_eq
  intro i hi
  have e : (encodeFmtVI maj min f).getLsbD (21 + i) = @BitVec.getLsbD (1 + 6 + 4 + 4 + 5 + 5 + 7)
    (bit1 f.c ++ maj ++ min ++ f.g ++ f.d ++ f.a ++ f.imm) (21 + i) := rfl
  rw [BitVec.getLsbD_extractLsb', e]
  simp only [BitVec.getLsbD_append]
  simp (disch := omega) only [if_neg, if_true, hi, decide_true, Bool.true_and, show 21 + i - 7 - 5 - 5 - 4 = i by omega]

theorem encodeFmtVI_c (maj : BitVec 6) (min : BitVec 4) (f : FmtVI) : (encodeFmtVI maj min f).getLsbD 31 = f.c := by
  have e : (encodeFmtVI maj min f).getLsbD 31 = @BitVec.getLsbD (1 + 6 + 4 + 4 + 5 + 5 + 7)
    (bit1 f.c ++ maj ++ min ++ f.g ++ f.d ++ f.a ++ f.imm) 31 := rfl
  rw [e]
  simp only [BitVec.getLsbD_append]
  simp [bit1]

theorem encodeFmtVI_g (maj : BitVec 6) (min : BitVec 4) (f : FmtVI) : (encodeFmtVI maj min f).extractLsb' 17 4 = f.g := by
  apply BitVec.eq_of_getLsbD_eq
  intro i hi
  have e : (encodeFmtVI maj min f).getLsbD (17 + i) = @BitVec.getLsbD (1 + 6 + 4 + 4 + 5 + 5 + 7)
    (bit1 f.c ++ maj ++ min ++ f.g ++ f.d ++ f.a ++ f.imm) (17 + i) := rfl
  rw [BitVec.getLsbD_extractLsb', e]
  simp only [BitVec.getLsbD_append]
  simp (disch := omega) only [if_neg, if_true, hi, decide_true, Bool.true_and, show 17 + i - 7 - 5 - 5 = i by omega]

theorem encodeFmtVI_d (maj : BitVec 6) (min : BitVec 4) (f : FmtVI) : (encodeFmtVI maj min f).extractLsb' 12 5 = f.d := by
  apply BitVec.eq_of_getLsbD_eq
  intro i hi
  have e : (encodeFmtVI maj min f).getLsbD (12 + i) = @BitVec.getLsbD (1 + 6 + 4 + 4 + 5 + 5 + 7)
    (bit1 f.c ++ maj ++ min ++ f.g ++ f.d ++ f.a ++ f.imm) (12 + i) := rfl
  rw [BitVec.getLsbD_extractLsb', e]
  simp only [BitVec.getLsbD_append]
  simp (disch := omega) only [if_neg, if_true, hi, decide_true, Bool.true_and, show 12 + i - 7 - 5 = i by omega]

theorem encodeFmtVI_a (maj : BitVec 6) (min : BitVec 4) (f : FmtVI) : (encodeFmtVI maj min f).extractLsb' 7 5 = f.a := by
  apply BitVec.eq_of_getLsbD_eq
  intro i hi
  have e : (encodeFmtVI maj min f).getLsbD (7 + i) = @BitVec.getLsbD (1 + 6 + 4 + 4 + 5 + 5 + 7)
    (bit1 f.c ++ maj ++ min ++ f.g ++ f.d ++ f.a ++ f.imm) (7 + i) := rfl
  rw [BitVec.getLsbD_extractLsb', e]
  simp only [BitVec.getLsbD_append]
  simp (disch := omega) only [if_neg, if_true, hi, decide_true, Bool.true_and, show 7 + i - 7 = i by omega]

theorem encodeFmtVI_imm (maj : BitVec 6) (min : BitVec 4) (f : FmtVI) : (encodeFmtVI maj min f).extractLsb' 0 7 = f.imm := by
  apply BitVec.eq_of_getLsbD_eq
  intro i hi
  have e : (encodeFmtVI maj min f).getLsbD (0 + i) = @BitVec.getLsbD (1 + 6 + 4 + 4 + 5 + 5 + 7)
    (bit1 f.c ++ maj ++ min ++ f.g ++ f.d ++ f.a ++ f.imm) (0 + i) := rfl
  rw [BitVec.getLsbD_extractLsb', e]
  simp only [BitVec.getLsbD_append]
  simp (disch := omega) only [if_neg, if_true, hi, decide_true, Bool.true_and, Nat.zero_add]

theorem decodeFmtVI_encode (maj : BitVec 6) (min : BitVec 4) (f : FmtVI) : decodeFmtVI (encodeFmtVI maj min f) = f := by
  simp only [decodeFmtVI, encodeFmtVI_c, encodeFmtVI_g, encodeFmtVI_d, encodeFmtVI_a, encodeFmtVI_imm]

theorem encodeFmtVS_maj (maj : BitVec 6) (min : BitVec 4) (f : FmtVS) : (encodeFmtVS maj min f).extractLsb' 25 6 = maj := by
  apply BitVec.eq_of_getLsbD_eq
  intro i hi
  have e : (encodeFmtVS maj min f).getLsbD (25 + i) = @BitVec.getLsbD (1 + 6 + 4 + 4 + 5 + 5 + 5 + 2)
    (bit1 f.c ++ maj ++ min ++ f.g ++ f.d ++ f.a ++ f.s ++ f.t) (25 + i) := rfl
  rw [BitVec.getLsbD_extractLsb', e]
  simp only [BitVec.getLsbD_append]
  simp (disch := omega) only [if_neg, if_true, hi, decide_true, Bool.true_and, show 25 + i - 2 - 5 - 5 - 5 - 4 - 4 = i by omega]

theorem encodeFmtVS_min (maj : BitVec 6) (min : BitVec 4) (f : FmtVS) : (encodeFmtVS maj min f).extractLsb' 21 4 = min := by
  apply BitVec.eq_of_getLsbD_eq
  intro i hi
  have e : (encodeFmtVS maj min f).getLsbD (21 + i) = @BitVec.getLsbD (1 + 6 + 4 + 4 + 5 + 5 + 5 + 2)
    (bit1 f.c ++ maj ++ min ++ f.g ++ f.d ++ f.a ++ f.s ++ f.t) (21 + i) := rfl
  rw [BitVec.getLsbD_extractLsb', e]
  simp only [BitVec.getLsbD_append]
  simp (disch := omega) only [if_neg, if_true, hi, decide_true, Bool.true_and, show 21 + i - 2 - 5 - 5 - 5 - 4 = i by omega]

theorem encodeFmtVS_c (maj : BitVec 6) (min : BitVec 4) (f : FmtVS) : (encodeFmtVS maj min f).getLsbD 31 = f.c := by
  have e : (encodeFmtVS maj min f).getLsbD 31 = @BitVec.getLsbD (1 + 6 + 4 + 4 + 5 + 5 + 5 + 2)
    (bit1 f.c ++ maj ++ min ++ f.g ++ f.d ++ f.a ++ f.s ++ f.t) 31 := rfl
  rw [e]
  simp only [BitVec.getLsbD_append]
  simp [bit1]

theorem encodeFmtVS_g (maj : BitVec 6) (min : BitVec 4) (f : FmtVS) : (encodeFmtVS maj min f).extractLsb' 17 4 = f.g := by
  apply BitVec.eq_of_getLsbD_eq
  intro i hi
  have e : (encodeFmtVS maj min f).getLsbD (17 + i) = @BitVec.getLsbD (1 + 6 + 4 + 4 + 5 + 5 + 5 + 2)
    (bit1 f.c ++ maj ++ min ++ f.g ++ f.d ++ f.a ++ f.s ++ f.t) (17 + i) := rfl
  rw [BitVec.getLsbD_extractLsb', e]
  simp only [BitVec.getLsbD_append]
  simp (disch := omega) only [if_neg, if_true, hi, decide_true, Bool.true_and, show 17 + i - 2 - 5 - 5 - 5 = i by omega]

theorem encodeFmtVS_d (maj : BitVec 6) (min : BitVec 4) (f : FmtVS) : (encodeFmtVS maj min f).extractLsb' 12 5 = f.d := by
  apply BitVec.eq_of_getLsbD_eq
  intro i hi
  have e : (encodeFmtVS maj min f).getLsbD (12 + i) = @BitVec.getLsbD (1 + 6 + 4 + 4 + 5 + 5 + 5 + 2)
    (bit1 f.c ++ maj ++ min ++ f.g ++ f.d ++ f.a ++ f.s ++ f.t) (12 + i) := rfl
  rw [BitVec.getLsbD_extractLsb', e]
  simp only [BitVec.getLsbD_append]
  simp (disch := omega) only [if_neg, if_true, hi, decide_true, Bool.true_and, show 12 + i - 2 - 5 - 5 = i by omega]

theorem encodeFmtVS_a (maj : BitVec 6) (min : BitVec 4) (f : FmtVS) : (encodeFmtVS maj min f).extractLsb' 7 5 = f.a := by
  apply BitVec.eq_of_getLsbD_eq
  intro i hi
  have e : (encodeFmtVS maj min f).getLsbD (7 + i) = @BitVec.getLsbD (1 + 6 + 4 + 4 + 5 + 5 + 5 + 2)
    (bit1 f.c ++ maj ++ min ++ f.g ++ f.d ++ f.a ++ f.s ++ f.t) (7 + i) := rfl
  rw [BitVec.getLsbD_extractLsb', e]
  simp only [BitVec.getLsbD_append]
  simp (disch := omega) only [if_neg, if_true, hi, decide_true, Bool.true_and, show 7 + i - 2 - 5 = i by omega]

theorem encodeFmtVS_s (maj : BitVec 6) (min : BitVec 4) (f : FmtVS) : (encodeFmtVS maj min f).extractLsb' 2 5 = f.s := by
  apply BitVec.eq_of_getLsbD_eq
  intro i hi
  have e : (encodeFmtVS maj min f).getLsbD (2 + i) = @BitVec.getLsbD (1 + 6 + 4 + 4 + 5 + 5 + 5 + 2)
    (bit1 f.c ++ maj ++ min ++ f.g ++ f.d ++ f.a ++ f.s ++ f.t) (2 + i) := rfl
  rw [BitVec.getLsbD_extractLsb', e]
  simp only [BitVec.getLsbD_append]
  simp (disch := omega) only [if_neg, if_true, hi, decide_true, Bool.true_and, show 2 + i - 2 = i by omega]

theorem encodeFmtVS_t (maj : BitVec 6) (min : BitVec 4) (f : FmtVS) : (encodeFmtVS maj min f).extractLsb' 0 2 = f.t := by
  apply BitVec.eq_of_getLsbD_eq
  intro i hi
  have e : (encodeFmtVS maj min f).getLsbD (0 + i) = @BitVec.getLsbD (1 + 6 + 4 + 4 + 5 + 5 + 5 + 2)
    (bit1 f.c ++ maj ++ min ++ f.g ++ f.d ++ f.a ++ f.s ++ f.t) (0 + i) := rfl
  rw [BitVec.getLsbD_extractLsb', e]
  simp only [BitVec.getLsbD_append]
  simp (disch := omega) only [if_neg, if_true, hi, decide_true, Bool.true_and, Nat.zero_add]

theorem decodeFmtVS_encode (maj : BitVec 6) (min : BitVec 4) (f : FmtVS) : decodeFmtVS (encodeFmtVS maj min f) = f := by
  simp only [decodeFmtVS, encodeFmtVS_c, encodeFmtVS_g, encodeFmtVS_d, encodeFmtVS_a, encodeFmtVS_s, encodeFmtVS_t]

theorem encodeFmtS_maj (maj : BitVec 6) (min : BitVec 4) (f : FmtS) : (encodeFmtS maj min f).extractLsb' 25 6 = maj := by
  apply BitVec.eq_of_getLsbD_eq
  intro i hi
  have e : (encodeFmtS maj min f).getLsbD (25 + i) = @BitVec.getLsbD (1 + 6 + 4 + 5 + 5 + 5 + 6)
    (bit1 f.c ++ maj ++ min ++ f.sd ++ f.sa ++ f.sb ++ f.f) (25 + i) := rfl
  rw [BitVec.getLsbD_extractLsb', e]
  simp only [BitVec.getLsbD_append]
  simp (disch := omega) only [if_neg, if_true, hi, decide_true, Bool.true_and, show 25 + i - 6 - 5 - 5 - 5 - 4 = i by omega]

theorem encodeFmtS_min (maj : BitVec 6) (min : BitVec 4) (f : FmtS) : (encodeFmtS maj min f).extractLsb' 21 4 = min := by
  apply BitVec.eq_of_getLsbD_eq
  intro i hi
  have e : (encodeFmtS maj min f).getLsbD (21 + i) = @BitVec.getLsbD (1 + 6 + 4 + 5 + 5 + 5 + 6)
    (bit1 f.c ++ maj ++ min ++ f.sd ++ f.sa ++ f.sb ++ f.f) (21 + i) := rfl
  rw [BitVec.getLsbD_extractLsb', e]
  simp only [BitVec.getLsbD_append]
  simp (disch := omega) only [if_neg, if_true, hi, decide_true, Bool.true_and, show 21 + i - 6 - 5 - 5 - 5 = i by omega]

theorem encodeFmtS_c (maj : BitVec 6) (min : BitVec 4) (f : FmtS) : (encodeFmtS maj min f).getLsbD 31 = f.c := by
  have e : (encodeFmtS maj min f).getLsbD 31 = @BitVec.getLsbD (1 + 6 + 4 + 5 + 5 + 5 + 6)
    (bit1 f.c ++ maj ++ min ++ f.sd ++ f.sa ++ f.sb ++ f.f) 31 := rfl
  rw [e]
  simp only [BitVec.getLsbD_append]
  simp [bit1]

theorem encodeFmtS_sd (maj : BitVec 6) (min : BitVec 4) (f : FmtS) : (encodeFmtS maj min f).extractLsb' 16 5 = f.sd := by
  apply BitVec.eq_of_getLsbD_eq
  intro i hi
  have e : (encodeFmtS maj min f).getLsbD (16 + i) = @BitVec.getLsbD (1 + 6 + 4 + 5 + 5 + 5 + 6)
    (bit1 f.c ++ maj ++ min ++ f.sd ++ f.sa ++ f.sb ++ f.f) (16 + i) := rfl
  rw [BitVec.getLsbD_extractLsb', e]
  simp only [BitVec.getLsbD_append]
  simp (disch := omega) only [if_neg, if_true, hi, decide_true, Bool.true_and, show 16 + i - 6 - 5 - 5 = i by omega]

theorem encodeFmtS_sa (maj : BitVec 6) (min : BitVec 4) (f : FmtS) : (encodeFmtS maj min f).extractLsb' 11 5 = f.sa := by
  apply BitVec.eq_of_getLsbD_eq
  intro i hi
  have e : (encodeFmtS maj min f).getLsbD (11 + i) = @BitVec.getLsbD (1 + 6 + 4 + 5 + 5 + 5 + 6)
    (bit1 f.c ++ maj ++ min ++ f.sd ++ f.sa ++ f.sb ++ f.f) (11 + i) := rfl
  rw [BitVec.getLsbD_extractLsb', e]
  simp only [BitVec.getLsbD_append]
  simp (disch := omega) only [if_neg, if_true, hi, decide_true, Bool.true_and, show 11 + i - 6 - 5 = i by omega]

theorem encodeFmtS_sb (maj : BitVec 6) (min : BitVec 4) (f : FmtS) : (encodeFmtS maj min f).extractLsb' 6 5 = f.sb := by
  apply BitVec.eq_of_getLsbD_eq
  intro i hi
  have e : (encodeFmtS maj min f).getLsbD (6 + i) = @BitVec.getLsbD (1 + 6 + 4 + 5 + 5 + 5 + 6)
    (bit1 f.c ++ maj ++ min ++ f.sd ++ f.sa ++ f.sb ++ f.f) (6 + i) := rfl
  rw [BitVec.getLsbD_extractLsb', e]
  simp only [BitVec.getLsbD_append]
  simp (disch := omega) only [if_neg, if_true, hi, decide_true, Bool.true_and, show 6 + i - 6 = i by omega]

theorem encodeFmtS_f (maj : BitVec 6) (min : BitVec 4) (f : FmtS) : (encodeFmtS maj min f).extractLsb' 0 6 = f.f := by
  apply BitVec.eq_of_getLsbD_eq
  intro i hi
  have e : (encodeFmtS maj min f).getLsbD (0 + i) = @BitVec.getLsbD (1 + 6 + 4 + 5 + 5 + 5 + 6)
    (bit1 f.c ++ maj ++ min ++ f.sd ++ f.sa ++ f.sb ++ f.f) (0 + i) := rfl
  rw [BitVec.getLsbD_extractLsb', e]
  simp only [BitVec.getLsbD_append]
  simp (disch := omega) only [if_neg, if_true, hi, decide_true, Bool.true_and, Nat.zero_add]

theorem decodeFmtS_encode (maj : BitVec 6) (min : BitVec 4) (f : FmtS) : decodeFmtS (encodeFmtS maj min f) = f := by
  simp only [decodeFmtS, encodeFmtS_c, encodeFmtS_sd, encodeFmtS_sa, encodeFmtS_sb, encodeFmtS_f]

theorem encodeFmtSI_maj (maj : BitVec 6) (min : BitVec 4) (f : FmtSI) : (encodeFmtSI maj min f).extractLsb' 25 6 = maj := by
  apply BitVec.eq_of_getLsbD_eq
  intro i hi
  have e : (encodeFmtSI maj min f).getLsbD (25 + i) = @BitVec.getLsbD (1 + 6 + 4 + 5 + 5 + 11)
    (bit1 f.c ++ maj ++ min ++ f.sd ++ f.sa ++ f.imm) (25 + i) := rfl
  rw [BitVec.getLsbD_extractLsb', e]
  simp only [BitVec.getLsbD_append]
  simp (disch := omega) only [if_neg, if_true, hi, decide_true, Bool.true_and, show 25 + i - 11 - 5 - 5 - 4 = i by omega]

theorem encodeFmtSI_min (maj : BitVec 6) (min : BitVec 4) (f : FmtSI) : (encodeFmtSI maj min f).extractLsb' 21 4 = min := by
  apply BitVec.eq_of_getLsbD_eq
  intro i hi
  have e : (encodeFmtSI maj min f).getLsbD (21 + i) = @BitVec.getLsbD (1 + 6 + 4 + 5 + 5 + 11)
    (bit1 f.c ++ maj ++ min ++ f.sd ++ f.sa ++ f.imm) (21 + i) := rfl
  rw [BitVec.getLsbD_extractLsb', e]
  simp only [BitVec.getLsbD_append]
  simp (disch := omega) only [if_neg, if_true, hi, decide_true, Bool.true_and, show 21 + i - 11 - 5 - 5 = i by omega]

theorem encodeFmtSI_c (maj : BitVec 6) (min : BitVec 4) (f : FmtSI) : (encodeFmtSI maj min f).getLsbD 31 = f.c := by
  have e : (encodeFmtSI maj min f).getLsbD 31 = @BitVec.getLsbD (1 + 6 + 4 + 5 + 5 + 11)
    (bit1 f.c ++ maj ++ min ++ f.sd ++ f.sa ++ f.imm) 31 := rfl
  rw [e]
  simp only [BitVec.getLsbD_append]
  simp [bit1]

theorem encodeFmtSI_sd (maj : BitVec 6) (min : BitVec 4) (f : FmtSI) : (encodeFmtSI maj min f).extractLsb' 16 5 = f.sd := by
  apply BitVec.eq_of_getLsbD_eq
  intro i hi
  have e : (encodeFmtSI maj min f).getLsbD (16 + i) = @BitVec.getLsbD (1 + 6 + 4 + 5 + 5 + 11)
    (bit1 f.c ++ maj ++ min ++ f.sd ++ f.sa ++ f.imm) (16 + i) := rfl
  rw [BitVec.getLsbD_extractLsb', e]
  simp only [BitVec.getLsbD_append]
  simp (disch := omega) only [if_neg, if_true, hi, decide_true, Bool.true_and, show 16 + i - 11 - 5 = i by omega]

theorem encodeFmtSI_sa (maj : BitVec 6) (min : BitVec 4) (f : FmtSI) : (encodeFmtSI maj min f).extractLsb' 11 5 = f.sa := by
  apply BitVec.eq_of_getLsbD_eq
  intro i hi
  have e : (encodeFmtSI maj min f).getLsbD (11 + i) = @BitVec.getLsbD (1 + 6 + 4 + 5 + 5 + 11)
    (bit1 f.c ++ maj ++ min ++ f.sd ++ f.sa ++ f.imm) (11 + i) := rfl
  rw [BitVec.getLsbD_extractLsb', e]
  simp only [BitVec.getLsbD_append]
  simp (disch := omega) only [if_neg, if_true, hi, decide_true, Bool.true_and, show 11 + i - 11 = i by omega]

theorem encodeFmtSI_imm (maj : BitVec 6) (min : BitVec 4) (f : FmtSI) : (encodeFmtSI maj min f).extractLsb' 0 11 = f.imm := by
  apply BitVec.eq_of_getLsbD_eq
  intro i hi
  have e : (encodeFmtSI maj min f).getLsbD (0 + i) = @BitVec.getLsbD (1 + 6 + 4 + 5 + 5 + 11)
    (bit1 f.c ++ maj ++ min ++ f.sd ++ f.sa ++ f.imm) (0 + i) := rfl
  rw [BitVec.getLsbD_extractLsb', e]
  simp only [BitVec.getLsbD_append]
  simp (disch := omega) only [if_neg, if_true, hi, decide_true, Bool.true_and, Nat.zero_add]

theorem decodeFmtSI_encode (maj : BitVec 6) (min : BitVec 4) (f : FmtSI) : decodeFmtSI (encodeFmtSI maj min f) = f := by
  simp only [decodeFmtSI, encodeFmtSI_c, encodeFmtSI_sd, encodeFmtSI_sa, encodeFmtSI_imm]

theorem encodeFmtPL_maj (maj : BitVec 6) (min : BitVec 4) (f : FmtPL) : (encodeFmtPL maj min f).extractLsb' 25 6 = maj := by
  apply BitVec.eq_of_getLsbD_eq
  intro i hi
  have e : (encodeFmtPL maj min f).getLsbD (25 + i) = @BitVec.getLsbD (1 + 6 + 4 + 7 + 7 + 7)
    (bit1 f.c ++ maj ++ min ++ f.pd ++ f.pa ++ f.pb) (25 + i) := rfl
  rw [BitVec.getLsbD_extractLsb', e]
  simp only [BitVec.getLsbD_append]
  simp (disch := omega) only [if_neg, if_true, hi, decide_true, Bool.true_and, show 25 + i - 7 - 7 - 7 - 4 = i by omega]

theorem encodeFmtPL_min (maj : BitVec 6) (min : BitVec 4) (f : FmtPL) : (encodeFmtPL maj min f).extractLsb' 21 4 = min := by
  apply BitVec.eq_of_getLsbD_eq
  intro i hi
  have e : (encodeFmtPL maj min f).getLsbD (21 + i) = @BitVec.getLsbD (1 + 6 + 4 + 7 + 7 + 7)
    (bit1 f.c ++ maj ++ min ++ f.pd ++ f.pa ++ f.pb) (21 + i) := rfl
  rw [BitVec.getLsbD_extractLsb', e]
  simp only [BitVec.getLsbD_append]
  simp (disch := omega) only [if_neg, if_true, hi, decide_true, Bool.true_and, show 21 + i - 7 - 7 - 7 = i by omega]

theorem encodeFmtPL_c (maj : BitVec 6) (min : BitVec 4) (f : FmtPL) : (encodeFmtPL maj min f).getLsbD 31 = f.c := by
  have e : (encodeFmtPL maj min f).getLsbD 31 = @BitVec.getLsbD (1 + 6 + 4 + 7 + 7 + 7)
    (bit1 f.c ++ maj ++ min ++ f.pd ++ f.pa ++ f.pb) 31 := rfl
  rw [e]
  simp only [BitVec.getLsbD_append]
  simp [bit1]

theorem encodeFmtPL_pd (maj : BitVec 6) (min : BitVec 4) (f : FmtPL) : (encodeFmtPL maj min f).extractLsb' 14 7 = f.pd := by
  apply BitVec.eq_of_getLsbD_eq
  intro i hi
  have e : (encodeFmtPL maj min f).getLsbD (14 + i) = @BitVec.getLsbD (1 + 6 + 4 + 7 + 7 + 7)
    (bit1 f.c ++ maj ++ min ++ f.pd ++ f.pa ++ f.pb) (14 + i) := rfl
  rw [BitVec.getLsbD_extractLsb', e]
  simp only [BitVec.getLsbD_append]
  simp (disch := omega) only [if_neg, if_true, hi, decide_true, Bool.true_and, show 14 + i - 7 - 7 = i by omega]

theorem encodeFmtPL_pa (maj : BitVec 6) (min : BitVec 4) (f : FmtPL) : (encodeFmtPL maj min f).extractLsb' 7 7 = f.pa := by
  apply BitVec.eq_of_getLsbD_eq
  intro i hi
  have e : (encodeFmtPL maj min f).getLsbD (7 + i) = @BitVec.getLsbD (1 + 6 + 4 + 7 + 7 + 7)
    (bit1 f.c ++ maj ++ min ++ f.pd ++ f.pa ++ f.pb) (7 + i) := rfl
  rw [BitVec.getLsbD_extractLsb', e]
  simp only [BitVec.getLsbD_append]
  simp (disch := omega) only [if_neg, if_true, hi, decide_true, Bool.true_and, show 7 + i - 7 = i by omega]

theorem encodeFmtPL_pb (maj : BitVec 6) (min : BitVec 4) (f : FmtPL) : (encodeFmtPL maj min f).extractLsb' 0 7 = f.pb := by
  apply BitVec.eq_of_getLsbD_eq
  intro i hi
  have e : (encodeFmtPL maj min f).getLsbD (0 + i) = @BitVec.getLsbD (1 + 6 + 4 + 7 + 7 + 7)
    (bit1 f.c ++ maj ++ min ++ f.pd ++ f.pa ++ f.pb) (0 + i) := rfl
  rw [BitVec.getLsbD_extractLsb', e]
  simp only [BitVec.getLsbD_append]
  simp (disch := omega) only [if_neg, if_true, hi, decide_true, Bool.true_and, Nat.zero_add]

theorem decodeFmtPL_encode (maj : BitVec 6) (min : BitVec 4) (f : FmtPL) : decodeFmtPL (encodeFmtPL maj min f) = f := by
  simp only [decodeFmtPL, encodeFmtPL_c, encodeFmtPL_pd, encodeFmtPL_pa, encodeFmtPL_pb]

theorem encodeFmtB_maj (maj : BitVec 6) (min : BitVec 4) (f : FmtB) : (encodeFmtB maj min f).extractLsb' 25 6 = maj := by
  apply BitVec.eq_of_getLsbD_eq
  intro i hi
  have e : (encodeFmtB maj min f).getLsbD (25 + i) = @BitVec.getLsbD (1 + 6 + 4 + 4 + 17)
    (bit1 f.c ++ maj ++ min ++ f.g ++ f.off) (25 + i) := rfl
  rw [BitVec.getLsbD_extractLsb', e]
  simp only [BitVec.getLsbD_append]
  simp (disch := omega) only [if_neg, if_true, hi, decide_true, Bool.true_and, show 25 + i - 17 - 4 - 4 = i by omega]

theorem encodeFmtB_min (maj : BitVec 6) (min : BitVec 4) (f : FmtB) : (encodeFmtB maj min f).extractLsb' 21 4 = min := by
  apply BitVec.eq_of_getLsbD_eq
  intro i hi
  have e : (encodeFmtB maj min f).getLsbD (21 + i) = @BitVec.getLsbD (1 + 6 + 4 + 4 + 17)
    (bit1 f.c ++ maj ++ min ++ f.g ++ f.off) (21 + i) := rfl
  rw [BitVec.getLsbD_extractLsb', e]
  simp only [BitVec.getLsbD_append]
  simp (disch := omega) only [if_neg, if_true, hi, decide_true, Bool.true_and, show 21 + i - 17 - 4 = i by omega]

theorem encodeFmtB_c (maj : BitVec 6) (min : BitVec 4) (f : FmtB) : (encodeFmtB maj min f).getLsbD 31 = f.c := by
  have e : (encodeFmtB maj min f).getLsbD 31 = @BitVec.getLsbD (1 + 6 + 4 + 4 + 17)
    (bit1 f.c ++ maj ++ min ++ f.g ++ f.off) 31 := rfl
  rw [e]
  simp only [BitVec.getLsbD_append]
  simp [bit1]

theorem encodeFmtB_g (maj : BitVec 6) (min : BitVec 4) (f : FmtB) : (encodeFmtB maj min f).extractLsb' 17 4 = f.g := by
  apply BitVec.eq_of_getLsbD_eq
  intro i hi
  have e : (encodeFmtB maj min f).getLsbD (17 + i) = @BitVec.getLsbD (1 + 6 + 4 + 4 + 17)
    (bit1 f.c ++ maj ++ min ++ f.g ++ f.off) (17 + i) := rfl
  rw [BitVec.getLsbD_extractLsb', e]
  simp only [BitVec.getLsbD_append]
  simp (disch := omega) only [if_neg, if_true, hi, decide_true, Bool.true_and, show 17 + i - 17 = i by omega]

theorem encodeFmtB_off (maj : BitVec 6) (min : BitVec 4) (f : FmtB) : (encodeFmtB maj min f).extractLsb' 0 17 = f.off := by
  apply BitVec.eq_of_getLsbD_eq
  intro i hi
  have e : (encodeFmtB maj min f).getLsbD (0 + i) = @BitVec.getLsbD (1 + 6 + 4 + 4 + 17)
    (bit1 f.c ++ maj ++ min ++ f.g ++ f.off) (0 + i) := rfl
  rw [BitVec.getLsbD_extractLsb', e]
  simp only [BitVec.getLsbD_append]
  simp (disch := omega) only [if_neg, if_true, hi, decide_true, Bool.true_and, Nat.zero_add]

theorem decodeFmtB_encode (maj : BitVec 6) (min : BitVec 4) (f : FmtB) : decodeFmtB (encodeFmtB maj min f) = f := by
  simp only [decodeFmtB, encodeFmtB_c, encodeFmtB_g, encodeFmtB_off]

theorem encodeFmtLP_maj (maj : BitVec 6) (min : BitVec 4) (f : FmtLP) : (encodeFmtLP maj min f).extractLsb' 25 6 = maj := by
  apply BitVec.eq_of_getLsbD_eq
  intro i hi
  have e : (encodeFmtLP maj min f).getLsbD (25 + i) = @BitVec.getLsbD (1 + 6 + 4 + 2 + 5 + 6 + 8)
    (bit1 f.c ++ maj ++ min ++ f.l ++ f.s ++ f.imm ++ f.len) (25 + i) := rfl
  rw [BitVec.getLsbD_extractLsb', e]
  simp only [BitVec.getLsbD_append]
  simp (disch := omega) only [if_neg, if_true, hi, decide_true, Bool.true_and, show 25 + i - 8 - 6 - 5 - 2 - 4 = i by omega]

theorem encodeFmtLP_min (maj : BitVec 6) (min : BitVec 4) (f : FmtLP) : (encodeFmtLP maj min f).extractLsb' 21 4 = min := by
  apply BitVec.eq_of_getLsbD_eq
  intro i hi
  have e : (encodeFmtLP maj min f).getLsbD (21 + i) = @BitVec.getLsbD (1 + 6 + 4 + 2 + 5 + 6 + 8)
    (bit1 f.c ++ maj ++ min ++ f.l ++ f.s ++ f.imm ++ f.len) (21 + i) := rfl
  rw [BitVec.getLsbD_extractLsb', e]
  simp only [BitVec.getLsbD_append]
  simp (disch := omega) only [if_neg, if_true, hi, decide_true, Bool.true_and, show 21 + i - 8 - 6 - 5 - 2 = i by omega]

theorem encodeFmtLP_c (maj : BitVec 6) (min : BitVec 4) (f : FmtLP) : (encodeFmtLP maj min f).getLsbD 31 = f.c := by
  have e : (encodeFmtLP maj min f).getLsbD 31 = @BitVec.getLsbD (1 + 6 + 4 + 2 + 5 + 6 + 8)
    (bit1 f.c ++ maj ++ min ++ f.l ++ f.s ++ f.imm ++ f.len) 31 := rfl
  rw [e]
  simp only [BitVec.getLsbD_append]
  simp [bit1]

theorem encodeFmtLP_l (maj : BitVec 6) (min : BitVec 4) (f : FmtLP) : (encodeFmtLP maj min f).extractLsb' 19 2 = f.l := by
  apply BitVec.eq_of_getLsbD_eq
  intro i hi
  have e : (encodeFmtLP maj min f).getLsbD (19 + i) = @BitVec.getLsbD (1 + 6 + 4 + 2 + 5 + 6 + 8)
    (bit1 f.c ++ maj ++ min ++ f.l ++ f.s ++ f.imm ++ f.len) (19 + i) := rfl
  rw [BitVec.getLsbD_extractLsb', e]
  simp only [BitVec.getLsbD_append]
  simp (disch := omega) only [if_neg, if_true, hi, decide_true, Bool.true_and, show 19 + i - 8 - 6 - 5 = i by omega]

theorem encodeFmtLP_s (maj : BitVec 6) (min : BitVec 4) (f : FmtLP) : (encodeFmtLP maj min f).extractLsb' 14 5 = f.s := by
  apply BitVec.eq_of_getLsbD_eq
  intro i hi
  have e : (encodeFmtLP maj min f).getLsbD (14 + i) = @BitVec.getLsbD (1 + 6 + 4 + 2 + 5 + 6 + 8)
    (bit1 f.c ++ maj ++ min ++ f.l ++ f.s ++ f.imm ++ f.len) (14 + i) := rfl
  rw [BitVec.getLsbD_extractLsb', e]
  simp only [BitVec.getLsbD_append]
  simp (disch := omega) only [if_neg, if_true, hi, decide_true, Bool.true_and, show 14 + i - 8 - 6 = i by omega]

theorem encodeFmtLP_imm (maj : BitVec 6) (min : BitVec 4) (f : FmtLP) : (encodeFmtLP maj min f).extractLsb' 8 6 = f.imm := by
  apply BitVec.eq_of_getLsbD_eq
  intro i hi
  have e : (encodeFmtLP maj min f).getLsbD (8 + i) = @BitVec.getLsbD (1 + 6 + 4 + 2 + 5 + 6 + 8)
    (bit1 f.c ++ maj ++ min ++ f.l ++ f.s ++ f.imm ++ f.len) (8 + i) := rfl
  rw [BitVec.getLsbD_extractLsb', e]
  simp only [BitVec.getLsbD_append]
  simp (disch := omega) only [if_neg, if_true, hi, decide_true, Bool.true_and, show 8 + i - 8 = i by omega]

theorem encodeFmtLP_len (maj : BitVec 6) (min : BitVec 4) (f : FmtLP) : (encodeFmtLP maj min f).extractLsb' 0 8 = f.len := by
  apply BitVec.eq_of_getLsbD_eq
  intro i hi
  have e : (encodeFmtLP maj min f).getLsbD (0 + i) = @BitVec.getLsbD (1 + 6 + 4 + 2 + 5 + 6 + 8)
    (bit1 f.c ++ maj ++ min ++ f.l ++ f.s ++ f.imm ++ f.len) (0 + i) := rfl
  rw [BitVec.getLsbD_extractLsb', e]
  simp only [BitVec.getLsbD_append]
  simp (disch := omega) only [if_neg, if_true, hi, decide_true, Bool.true_and, Nat.zero_add]

theorem decodeFmtLP_encode (maj : BitVec 6) (min : BitVec 4) (f : FmtLP) : decodeFmtLP (encodeFmtLP maj min f) = f := by
  simp only [decodeFmtLP, encodeFmtLP_c, encodeFmtLP_l, encodeFmtLP_s, encodeFmtLP_imm, encodeFmtLP_len]

theorem encodeFmtM_maj (maj : BitVec 6) (min : BitVec 4) (f : FmtM) : (encodeFmtM maj min f).extractLsb' 25 6 = maj := by
  apply BitVec.eq_of_getLsbD_eq
  intro i hi
  have e : (encodeFmtM maj min f).getLsbD (25 + i) = @BitVec.getLsbD (1 + 6 + 4 + 4 + 5 + 5 + 5 + 2)
    (bit1 f.c ++ maj ++ min ++ f.g ++ f.d ++ f.s ++ f.x ++ f.z) (25 + i) := rfl
  rw [BitVec.getLsbD_extractLsb', e]
  simp only [BitVec.getLsbD_append]
  simp (disch := omega) only [if_neg, if_true, hi, decide_true, Bool.true_and, show 25 + i - 2 - 5 - 5 - 5 - 4 - 4 = i by omega]

theorem encodeFmtM_min (maj : BitVec 6) (min : BitVec 4) (f : FmtM) : (encodeFmtM maj min f).extractLsb' 21 4 = min := by
  apply BitVec.eq_of_getLsbD_eq
  intro i hi
  have e : (encodeFmtM maj min f).getLsbD (21 + i) = @BitVec.getLsbD (1 + 6 + 4 + 4 + 5 + 5 + 5 + 2)
    (bit1 f.c ++ maj ++ min ++ f.g ++ f.d ++ f.s ++ f.x ++ f.z) (21 + i) := rfl
  rw [BitVec.getLsbD_extractLsb', e]
  simp only [BitVec.getLsbD_append]
  simp (disch := omega) only [if_neg, if_true, hi, decide_true, Bool.true_and, show 21 + i - 2 - 5 - 5 - 5 - 4 = i by omega]

theorem encodeFmtM_c (maj : BitVec 6) (min : BitVec 4) (f : FmtM) : (encodeFmtM maj min f).getLsbD 31 = f.c := by
  have e : (encodeFmtM maj min f).getLsbD 31 = @BitVec.getLsbD (1 + 6 + 4 + 4 + 5 + 5 + 5 + 2)
    (bit1 f.c ++ maj ++ min ++ f.g ++ f.d ++ f.s ++ f.x ++ f.z) 31 := rfl
  rw [e]
  simp only [BitVec.getLsbD_append]
  simp [bit1]

theorem encodeFmtM_g (maj : BitVec 6) (min : BitVec 4) (f : FmtM) : (encodeFmtM maj min f).extractLsb' 17 4 = f.g := by
  apply BitVec.eq_of_getLsbD_eq
  intro i hi
  have e : (encodeFmtM maj min f).getLsbD (17 + i) = @BitVec.getLsbD (1 + 6 + 4 + 4 + 5 + 5 + 5 + 2)
    (bit1 f.c ++ maj ++ min ++ f.g ++ f.d ++ f.s ++ f.x ++ f.z) (17 + i) := rfl
  rw [BitVec.getLsbD_extractLsb', e]
  simp only [BitVec.getLsbD_append]
  simp (disch := omega) only [if_neg, if_true, hi, decide_true, Bool.true_and, show 17 + i - 2 - 5 - 5 - 5 = i by omega]

theorem encodeFmtM_d (maj : BitVec 6) (min : BitVec 4) (f : FmtM) : (encodeFmtM maj min f).extractLsb' 12 5 = f.d := by
  apply BitVec.eq_of_getLsbD_eq
  intro i hi
  have e : (encodeFmtM maj min f).getLsbD (12 + i) = @BitVec.getLsbD (1 + 6 + 4 + 4 + 5 + 5 + 5 + 2)
    (bit1 f.c ++ maj ++ min ++ f.g ++ f.d ++ f.s ++ f.x ++ f.z) (12 + i) := rfl
  rw [BitVec.getLsbD_extractLsb', e]
  simp only [BitVec.getLsbD_append]
  simp (disch := omega) only [if_neg, if_true, hi, decide_true, Bool.true_and, show 12 + i - 2 - 5 - 5 = i by omega]

theorem encodeFmtM_s (maj : BitVec 6) (min : BitVec 4) (f : FmtM) : (encodeFmtM maj min f).extractLsb' 7 5 = f.s := by
  apply BitVec.eq_of_getLsbD_eq
  intro i hi
  have e : (encodeFmtM maj min f).getLsbD (7 + i) = @BitVec.getLsbD (1 + 6 + 4 + 4 + 5 + 5 + 5 + 2)
    (bit1 f.c ++ maj ++ min ++ f.g ++ f.d ++ f.s ++ f.x ++ f.z) (7 + i) := rfl
  rw [BitVec.getLsbD_extractLsb', e]
  simp only [BitVec.getLsbD_append]
  simp (disch := omega) only [if_neg, if_true, hi, decide_true, Bool.true_and, show 7 + i - 2 - 5 = i by omega]

theorem encodeFmtM_x (maj : BitVec 6) (min : BitVec 4) (f : FmtM) : (encodeFmtM maj min f).extractLsb' 2 5 = f.x := by
  apply BitVec.eq_of_getLsbD_eq
  intro i hi
  have e : (encodeFmtM maj min f).getLsbD (2 + i) = @BitVec.getLsbD (1 + 6 + 4 + 4 + 5 + 5 + 5 + 2)
    (bit1 f.c ++ maj ++ min ++ f.g ++ f.d ++ f.s ++ f.x ++ f.z) (2 + i) := rfl
  rw [BitVec.getLsbD_extractLsb', e]
  simp only [BitVec.getLsbD_append]
  simp (disch := omega) only [if_neg, if_true, hi, decide_true, Bool.true_and, show 2 + i - 2 = i by omega]

theorem encodeFmtM_z (maj : BitVec 6) (min : BitVec 4) (f : FmtM) : (encodeFmtM maj min f).extractLsb' 0 2 = f.z := by
  apply BitVec.eq_of_getLsbD_eq
  intro i hi
  have e : (encodeFmtM maj min f).getLsbD (0 + i) = @BitVec.getLsbD (1 + 6 + 4 + 4 + 5 + 5 + 5 + 2)
    (bit1 f.c ++ maj ++ min ++ f.g ++ f.d ++ f.s ++ f.x ++ f.z) (0 + i) := rfl
  rw [BitVec.getLsbD_extractLsb', e]
  simp only [BitVec.getLsbD_append]
  simp (disch := omega) only [if_neg, if_true, hi, decide_true, Bool.true_and, Nat.zero_add]

theorem decodeFmtM_encode (maj : BitVec 6) (min : BitVec 4) (f : FmtM) : decodeFmtM (encodeFmtM maj min f) = f := by
  simp only [decodeFmtM, encodeFmtM_c, encodeFmtM_g, encodeFmtM_d, encodeFmtM_s, encodeFmtM_x, encodeFmtM_z]

theorem encodeFmtE_maj (maj : BitVec 6) (min : BitVec 4) (f : FmtE) : (encodeFmtE maj min f).extractLsb' 25 6 = maj := by
  apply BitVec.eq_of_getLsbD_eq
  intro i hi
  have e : (encodeFmtE maj min f).getLsbD (25 + i) = @BitVec.getLsbD (1 + 6 + 4 + 5 + 5 + 5 + 6)
    (bit1 f.c ++ maj ++ min ++ f.p ++ f.q ++ f.w ++ f.f) (25 + i) := rfl
  rw [BitVec.getLsbD_extractLsb', e]
  simp only [BitVec.getLsbD_append]
  simp (disch := omega) only [if_neg, if_true, hi, decide_true, Bool.true_and, show 25 + i - 6 - 5 - 5 - 5 - 4 = i by omega]

theorem encodeFmtE_min (maj : BitVec 6) (min : BitVec 4) (f : FmtE) : (encodeFmtE maj min f).extractLsb' 21 4 = min := by
  apply BitVec.eq_of_getLsbD_eq
  intro i hi
  have e : (encodeFmtE maj min f).getLsbD (21 + i) = @BitVec.getLsbD (1 + 6 + 4 + 5 + 5 + 5 + 6)
    (bit1 f.c ++ maj ++ min ++ f.p ++ f.q ++ f.w ++ f.f) (21 + i) := rfl
  rw [BitVec.getLsbD_extractLsb', e]
  simp only [BitVec.getLsbD_append]
  simp (disch := omega) only [if_neg, if_true, hi, decide_true, Bool.true_and, show 21 + i - 6 - 5 - 5 - 5 = i by omega]

theorem encodeFmtE_c (maj : BitVec 6) (min : BitVec 4) (f : FmtE) : (encodeFmtE maj min f).getLsbD 31 = f.c := by
  have e : (encodeFmtE maj min f).getLsbD 31 = @BitVec.getLsbD (1 + 6 + 4 + 5 + 5 + 5 + 6)
    (bit1 f.c ++ maj ++ min ++ f.p ++ f.q ++ f.w ++ f.f) 31 := rfl
  rw [e]
  simp only [BitVec.getLsbD_append]
  simp [bit1]

theorem encodeFmtE_p (maj : BitVec 6) (min : BitVec 4) (f : FmtE) : (encodeFmtE maj min f).extractLsb' 16 5 = f.p := by
  apply BitVec.eq_of_getLsbD_eq
  intro i hi
  have e : (encodeFmtE maj min f).getLsbD (16 + i) = @BitVec.getLsbD (1 + 6 + 4 + 5 + 5 + 5 + 6)
    (bit1 f.c ++ maj ++ min ++ f.p ++ f.q ++ f.w ++ f.f) (16 + i) := rfl
  rw [BitVec.getLsbD_extractLsb', e]
  simp only [BitVec.getLsbD_append]
  simp (disch := omega) only [if_neg, if_true, hi, decide_true, Bool.true_and, show 16 + i - 6 - 5 - 5 = i by omega]

theorem encodeFmtE_q (maj : BitVec 6) (min : BitVec 4) (f : FmtE) : (encodeFmtE maj min f).extractLsb' 11 5 = f.q := by
  apply BitVec.eq_of_getLsbD_eq
  intro i hi
  have e : (encodeFmtE maj min f).getLsbD (11 + i) = @BitVec.getLsbD (1 + 6 + 4 + 5 + 5 + 5 + 6)
    (bit1 f.c ++ maj ++ min ++ f.p ++ f.q ++ f.w ++ f.f) (11 + i) := rfl
  rw [BitVec.getLsbD_extractLsb', e]
  simp only [BitVec.getLsbD_append]
  simp (disch := omega) only [if_neg, if_true, hi, decide_true, Bool.true_and, show 11 + i - 6 - 5 = i by omega]

theorem encodeFmtE_w (maj : BitVec 6) (min : BitVec 4) (f : FmtE) : (encodeFmtE maj min f).extractLsb' 6 5 = f.w := by
  apply BitVec.eq_of_getLsbD_eq
  intro i hi
  have e : (encodeFmtE maj min f).getLsbD (6 + i) = @BitVec.getLsbD (1 + 6 + 4 + 5 + 5 + 5 + 6)
    (bit1 f.c ++ maj ++ min ++ f.p ++ f.q ++ f.w ++ f.f) (6 + i) := rfl
  rw [BitVec.getLsbD_extractLsb', e]
  simp only [BitVec.getLsbD_append]
  simp (disch := omega) only [if_neg, if_true, hi, decide_true, Bool.true_and, show 6 + i - 6 = i by omega]

theorem encodeFmtE_f (maj : BitVec 6) (min : BitVec 4) (f : FmtE) : (encodeFmtE maj min f).extractLsb' 0 6 = f.f := by
  apply BitVec.eq_of_getLsbD_eq
  intro i hi
  have e : (encodeFmtE maj min f).getLsbD (0 + i) = @BitVec.getLsbD (1 + 6 + 4 + 5 + 5 + 5 + 6)
    (bit1 f.c ++ maj ++ min ++ f.p ++ f.q ++ f.w ++ f.f) (0 + i) := rfl
  rw [BitVec.getLsbD_extractLsb', e]
  simp only [BitVec.getLsbD_append]
  simp (disch := omega) only [if_neg, if_true, hi, decide_true, Bool.true_and, Nat.zero_add]

theorem decodeFmtE_encode (maj : BitVec 6) (min : BitVec 4) (f : FmtE) : decodeFmtE (encodeFmtE maj min f) = f := by
  simp only [decodeFmtE, encodeFmtE_c, encodeFmtE_p, encodeFmtE_q, encodeFmtE_w, encodeFmtE_f]

theorem encodeFmtCv_maj (maj : BitVec 6) (min : BitVec 4) (f : FmtCv) : (encodeFmtCv maj min f).extractLsb' 25 6 = maj := by
  apply BitVec.eq_of_getLsbD_eq
  intro i hi
  have e : (encodeFmtCv maj min f).getLsbD (25 + i) = @BitVec.getLsbD (1 + 6 + 4 + 4 + 5 + 5 + 3 + 2 + 2)
    (bit1 f.c ++ maj ++ min ++ f.g ++ f.d ++ f.a ++ f.rm ++ f.st ++ f.t) (25 + i) := rfl
  rw [BitVec.getLsbD_extractLsb', e]
  simp only [BitVec.getLsbD_append]
  simp (disch := omega) only [if_neg, if_true, hi, decide_true, Bool.true_and, show 25 + i - 2 - 2 - 3 - 5 - 5 - 4 - 4 = i by omega]

theorem encodeFmtCv_min (maj : BitVec 6) (min : BitVec 4) (f : FmtCv) : (encodeFmtCv maj min f).extractLsb' 21 4 = min := by
  apply BitVec.eq_of_getLsbD_eq
  intro i hi
  have e : (encodeFmtCv maj min f).getLsbD (21 + i) = @BitVec.getLsbD (1 + 6 + 4 + 4 + 5 + 5 + 3 + 2 + 2)
    (bit1 f.c ++ maj ++ min ++ f.g ++ f.d ++ f.a ++ f.rm ++ f.st ++ f.t) (21 + i) := rfl
  rw [BitVec.getLsbD_extractLsb', e]
  simp only [BitVec.getLsbD_append]
  simp (disch := omega) only [if_neg, if_true, hi, decide_true, Bool.true_and, show 21 + i - 2 - 2 - 3 - 5 - 5 - 4 = i by omega]

theorem encodeFmtCv_c (maj : BitVec 6) (min : BitVec 4) (f : FmtCv) : (encodeFmtCv maj min f).getLsbD 31 = f.c := by
  have e : (encodeFmtCv maj min f).getLsbD 31 = @BitVec.getLsbD (1 + 6 + 4 + 4 + 5 + 5 + 3 + 2 + 2)
    (bit1 f.c ++ maj ++ min ++ f.g ++ f.d ++ f.a ++ f.rm ++ f.st ++ f.t) 31 := rfl
  rw [e]
  simp only [BitVec.getLsbD_append]
  simp [bit1]

theorem encodeFmtCv_g (maj : BitVec 6) (min : BitVec 4) (f : FmtCv) : (encodeFmtCv maj min f).extractLsb' 17 4 = f.g := by
  apply BitVec.eq_of_getLsbD_eq
  intro i hi
  have e : (encodeFmtCv maj min f).getLsbD (17 + i) = @BitVec.getLsbD (1 + 6 + 4 + 4 + 5 + 5 + 3 + 2 + 2)
    (bit1 f.c ++ maj ++ min ++ f.g ++ f.d ++ f.a ++ f.rm ++ f.st ++ f.t) (17 + i) := rfl
  rw [BitVec.getLsbD_extractLsb', e]
  simp only [BitVec.getLsbD_append]
  simp (disch := omega) only [if_neg, if_true, hi, decide_true, Bool.true_and, show 17 + i - 2 - 2 - 3 - 5 - 5 = i by omega]

theorem encodeFmtCv_d (maj : BitVec 6) (min : BitVec 4) (f : FmtCv) : (encodeFmtCv maj min f).extractLsb' 12 5 = f.d := by
  apply BitVec.eq_of_getLsbD_eq
  intro i hi
  have e : (encodeFmtCv maj min f).getLsbD (12 + i) = @BitVec.getLsbD (1 + 6 + 4 + 4 + 5 + 5 + 3 + 2 + 2)
    (bit1 f.c ++ maj ++ min ++ f.g ++ f.d ++ f.a ++ f.rm ++ f.st ++ f.t) (12 + i) := rfl
  rw [BitVec.getLsbD_extractLsb', e]
  simp only [BitVec.getLsbD_append]
  simp (disch := omega) only [if_neg, if_true, hi, decide_true, Bool.true_and, show 12 + i - 2 - 2 - 3 - 5 = i by omega]

theorem encodeFmtCv_a (maj : BitVec 6) (min : BitVec 4) (f : FmtCv) : (encodeFmtCv maj min f).extractLsb' 7 5 = f.a := by
  apply BitVec.eq_of_getLsbD_eq
  intro i hi
  have e : (encodeFmtCv maj min f).getLsbD (7 + i) = @BitVec.getLsbD (1 + 6 + 4 + 4 + 5 + 5 + 3 + 2 + 2)
    (bit1 f.c ++ maj ++ min ++ f.g ++ f.d ++ f.a ++ f.rm ++ f.st ++ f.t) (7 + i) := rfl
  rw [BitVec.getLsbD_extractLsb', e]
  simp only [BitVec.getLsbD_append]
  simp (disch := omega) only [if_neg, if_true, hi, decide_true, Bool.true_and, show 7 + i - 2 - 2 - 3 = i by omega]

theorem encodeFmtCv_rm (maj : BitVec 6) (min : BitVec 4) (f : FmtCv) : (encodeFmtCv maj min f).extractLsb' 4 3 = f.rm := by
  apply BitVec.eq_of_getLsbD_eq
  intro i hi
  have e : (encodeFmtCv maj min f).getLsbD (4 + i) = @BitVec.getLsbD (1 + 6 + 4 + 4 + 5 + 5 + 3 + 2 + 2)
    (bit1 f.c ++ maj ++ min ++ f.g ++ f.d ++ f.a ++ f.rm ++ f.st ++ f.t) (4 + i) := rfl
  rw [BitVec.getLsbD_extractLsb', e]
  simp only [BitVec.getLsbD_append]
  simp (disch := omega) only [if_neg, if_true, hi, decide_true, Bool.true_and, show 4 + i - 2 - 2 = i by omega]

theorem encodeFmtCv_st (maj : BitVec 6) (min : BitVec 4) (f : FmtCv) : (encodeFmtCv maj min f).extractLsb' 2 2 = f.st := by
  apply BitVec.eq_of_getLsbD_eq
  intro i hi
  have e : (encodeFmtCv maj min f).getLsbD (2 + i) = @BitVec.getLsbD (1 + 6 + 4 + 4 + 5 + 5 + 3 + 2 + 2)
    (bit1 f.c ++ maj ++ min ++ f.g ++ f.d ++ f.a ++ f.rm ++ f.st ++ f.t) (2 + i) := rfl
  rw [BitVec.getLsbD_extractLsb', e]
  simp only [BitVec.getLsbD_append]
  simp (disch := omega) only [if_neg, if_true, hi, decide_true, Bool.true_and, show 2 + i - 2 = i by omega]

theorem encodeFmtCv_t (maj : BitVec 6) (min : BitVec 4) (f : FmtCv) : (encodeFmtCv maj min f).extractLsb' 0 2 = f.t := by
  apply BitVec.eq_of_getLsbD_eq
  intro i hi
  have e : (encodeFmtCv maj min f).getLsbD (0 + i) = @BitVec.getLsbD (1 + 6 + 4 + 4 + 5 + 5 + 3 + 2 + 2)
    (bit1 f.c ++ maj ++ min ++ f.g ++ f.d ++ f.a ++ f.rm ++ f.st ++ f.t) (0 + i) := rfl
  rw [BitVec.getLsbD_extractLsb', e]
  simp only [BitVec.getLsbD_append]
  simp (disch := omega) only [if_neg, if_true, hi, decide_true, Bool.true_and, Nat.zero_add]

theorem decodeFmtCv_encode (maj : BitVec 6) (min : BitVec 4) (f : FmtCv) : decodeFmtCv (encodeFmtCv maj min f) = f := by
  simp only [decodeFmtCv, encodeFmtCv_c, encodeFmtCv_g, encodeFmtCv_d, encodeFmtCv_a, encodeFmtCv_rm, encodeFmtCv_st, encodeFmtCv_t]

theorem encodeFmtMq_maj (maj : BitVec 6) (min : BitVec 4) (f : FmtMq) : (encodeFmtMq maj min f).extractLsb' 25 6 = maj := by
  apply BitVec.eq_of_getLsbD_eq
  intro i hi
  have e : (encodeFmtMq maj min f).getLsbD (25 + i) = @BitVec.getLsbD (1 + 6 + 4 + 4 + 5 + 5 + 3 + 4)
    (bit1 f.c ++ maj ++ min ++ f.g ++ f.d ++ f.s ++ f.rm ++ f.fmt) (25 + i) := rfl
  rw [BitVec.getLsbD_extractLsb', e]
  simp only [BitVec.getLsbD_append]
  simp (disch := omega) only [if_neg, if_true, hi, decide_true, Bool.true_and, show 25 + i - 4 - 3 - 5 - 5 - 4 - 4 = i by omega]

theorem encodeFmtMq_min (maj : BitVec 6) (min : BitVec 4) (f : FmtMq) : (encodeFmtMq maj min f).extractLsb' 21 4 = min := by
  apply BitVec.eq_of_getLsbD_eq
  intro i hi
  have e : (encodeFmtMq maj min f).getLsbD (21 + i) = @BitVec.getLsbD (1 + 6 + 4 + 4 + 5 + 5 + 3 + 4)
    (bit1 f.c ++ maj ++ min ++ f.g ++ f.d ++ f.s ++ f.rm ++ f.fmt) (21 + i) := rfl
  rw [BitVec.getLsbD_extractLsb', e]
  simp only [BitVec.getLsbD_append]
  simp (disch := omega) only [if_neg, if_true, hi, decide_true, Bool.true_and, show 21 + i - 4 - 3 - 5 - 5 - 4 = i by omega]

theorem encodeFmtMq_c (maj : BitVec 6) (min : BitVec 4) (f : FmtMq) : (encodeFmtMq maj min f).getLsbD 31 = f.c := by
  have e : (encodeFmtMq maj min f).getLsbD 31 = @BitVec.getLsbD (1 + 6 + 4 + 4 + 5 + 5 + 3 + 4)
    (bit1 f.c ++ maj ++ min ++ f.g ++ f.d ++ f.s ++ f.rm ++ f.fmt) 31 := rfl
  rw [e]
  simp only [BitVec.getLsbD_append]
  simp [bit1]

theorem encodeFmtMq_g (maj : BitVec 6) (min : BitVec 4) (f : FmtMq) : (encodeFmtMq maj min f).extractLsb' 17 4 = f.g := by
  apply BitVec.eq_of_getLsbD_eq
  intro i hi
  have e : (encodeFmtMq maj min f).getLsbD (17 + i) = @BitVec.getLsbD (1 + 6 + 4 + 4 + 5 + 5 + 3 + 4)
    (bit1 f.c ++ maj ++ min ++ f.g ++ f.d ++ f.s ++ f.rm ++ f.fmt) (17 + i) := rfl
  rw [BitVec.getLsbD_extractLsb', e]
  simp only [BitVec.getLsbD_append]
  simp (disch := omega) only [if_neg, if_true, hi, decide_true, Bool.true_and, show 17 + i - 4 - 3 - 5 - 5 = i by omega]

theorem encodeFmtMq_d (maj : BitVec 6) (min : BitVec 4) (f : FmtMq) : (encodeFmtMq maj min f).extractLsb' 12 5 = f.d := by
  apply BitVec.eq_of_getLsbD_eq
  intro i hi
  have e : (encodeFmtMq maj min f).getLsbD (12 + i) = @BitVec.getLsbD (1 + 6 + 4 + 4 + 5 + 5 + 3 + 4)
    (bit1 f.c ++ maj ++ min ++ f.g ++ f.d ++ f.s ++ f.rm ++ f.fmt) (12 + i) := rfl
  rw [BitVec.getLsbD_extractLsb', e]
  simp only [BitVec.getLsbD_append]
  simp (disch := omega) only [if_neg, if_true, hi, decide_true, Bool.true_and, show 12 + i - 4 - 3 - 5 = i by omega]

theorem encodeFmtMq_s (maj : BitVec 6) (min : BitVec 4) (f : FmtMq) : (encodeFmtMq maj min f).extractLsb' 7 5 = f.s := by
  apply BitVec.eq_of_getLsbD_eq
  intro i hi
  have e : (encodeFmtMq maj min f).getLsbD (7 + i) = @BitVec.getLsbD (1 + 6 + 4 + 4 + 5 + 5 + 3 + 4)
    (bit1 f.c ++ maj ++ min ++ f.g ++ f.d ++ f.s ++ f.rm ++ f.fmt) (7 + i) := rfl
  rw [BitVec.getLsbD_extractLsb', e]
  simp only [BitVec.getLsbD_append]
  simp (disch := omega) only [if_neg, if_true, hi, decide_true, Bool.true_and, show 7 + i - 4 - 3 = i by omega]

theorem encodeFmtMq_rm (maj : BitVec 6) (min : BitVec 4) (f : FmtMq) : (encodeFmtMq maj min f).extractLsb' 4 3 = f.rm := by
  apply BitVec.eq_of_getLsbD_eq
  intro i hi
  have e : (encodeFmtMq maj min f).getLsbD (4 + i) = @BitVec.getLsbD (1 + 6 + 4 + 4 + 5 + 5 + 3 + 4)
    (bit1 f.c ++ maj ++ min ++ f.g ++ f.d ++ f.s ++ f.rm ++ f.fmt) (4 + i) := rfl
  rw [BitVec.getLsbD_extractLsb', e]
  simp only [BitVec.getLsbD_append]
  simp (disch := omega) only [if_neg, if_true, hi, decide_true, Bool.true_and, show 4 + i - 4 = i by omega]

theorem encodeFmtMq_fmt (maj : BitVec 6) (min : BitVec 4) (f : FmtMq) : (encodeFmtMq maj min f).extractLsb' 0 4 = f.fmt := by
  apply BitVec.eq_of_getLsbD_eq
  intro i hi
  have e : (encodeFmtMq maj min f).getLsbD (0 + i) = @BitVec.getLsbD (1 + 6 + 4 + 4 + 5 + 5 + 3 + 4)
    (bit1 f.c ++ maj ++ min ++ f.g ++ f.d ++ f.s ++ f.rm ++ f.fmt) (0 + i) := rfl
  rw [BitVec.getLsbD_extractLsb', e]
  simp only [BitVec.getLsbD_append]
  simp (disch := omega) only [if_neg, if_true, hi, decide_true, Bool.true_and, Nat.zero_add]

theorem decodeFmtMq_encode (maj : BitVec 6) (min : BitVec 4) (f : FmtMq) : decodeFmtMq (encodeFmtMq maj min f) = f := by
  simp only [decodeFmtMq, encodeFmtMq_c, encodeFmtMq_g, encodeFmtMq_d, encodeFmtMq_s, encodeFmtMq_rm, encodeFmtMq_fmt]

theorem encodeFmtA_maj (maj : BitVec 6) (min : BitVec 4) (f : FmtA) : (encodeFmtA maj min f).extractLsb' 25 6 = maj := by
  apply BitVec.eq_of_getLsbD_eq
  intro i hi
  have e : (encodeFmtA maj min f).getLsbD (25 + i) = @BitVec.getLsbD (1 + 6 + 4 + 4 + 5 + 5 + 3 + 1 + 1 + 2)
    (bit1 f.c ++ maj ++ min ++ f.g ++ f.d ++ f.s ++ f.scope ++ bit1 f.r ++ bit1 f.u ++ f.z) (25 + i) := rfl
  rw [BitVec.getLsbD_extractLsb', e]
  simp only [BitVec.getLsbD_append]
  simp (disch := omega) only [if_neg, if_true, hi, decide_true, Bool.true_and, show 25 + i - 2 - 1 - 1 - 3 - 5 - 5 - 4 - 4 = i by omega]

theorem encodeFmtA_min (maj : BitVec 6) (min : BitVec 4) (f : FmtA) : (encodeFmtA maj min f).extractLsb' 21 4 = min := by
  apply BitVec.eq_of_getLsbD_eq
  intro i hi
  have e : (encodeFmtA maj min f).getLsbD (21 + i) = @BitVec.getLsbD (1 + 6 + 4 + 4 + 5 + 5 + 3 + 1 + 1 + 2)
    (bit1 f.c ++ maj ++ min ++ f.g ++ f.d ++ f.s ++ f.scope ++ bit1 f.r ++ bit1 f.u ++ f.z) (21 + i) := rfl
  rw [BitVec.getLsbD_extractLsb', e]
  simp only [BitVec.getLsbD_append]
  simp (disch := omega) only [if_neg, if_true, hi, decide_true, Bool.true_and, show 21 + i - 2 - 1 - 1 - 3 - 5 - 5 - 4 = i by omega]

theorem encodeFmtA_c (maj : BitVec 6) (min : BitVec 4) (f : FmtA) : (encodeFmtA maj min f).getLsbD 31 = f.c := by
  have e : (encodeFmtA maj min f).getLsbD 31 = @BitVec.getLsbD (1 + 6 + 4 + 4 + 5 + 5 + 3 + 1 + 1 + 2)
    (bit1 f.c ++ maj ++ min ++ f.g ++ f.d ++ f.s ++ f.scope ++ bit1 f.r ++ bit1 f.u ++ f.z) 31 := rfl
  rw [e]
  simp only [BitVec.getLsbD_append]
  simp [bit1]

theorem encodeFmtA_g (maj : BitVec 6) (min : BitVec 4) (f : FmtA) : (encodeFmtA maj min f).extractLsb' 17 4 = f.g := by
  apply BitVec.eq_of_getLsbD_eq
  intro i hi
  have e : (encodeFmtA maj min f).getLsbD (17 + i) = @BitVec.getLsbD (1 + 6 + 4 + 4 + 5 + 5 + 3 + 1 + 1 + 2)
    (bit1 f.c ++ maj ++ min ++ f.g ++ f.d ++ f.s ++ f.scope ++ bit1 f.r ++ bit1 f.u ++ f.z) (17 + i) := rfl
  rw [BitVec.getLsbD_extractLsb', e]
  simp only [BitVec.getLsbD_append]
  simp (disch := omega) only [if_neg, if_true, hi, decide_true, Bool.true_and, show 17 + i - 2 - 1 - 1 - 3 - 5 - 5 = i by omega]

theorem encodeFmtA_d (maj : BitVec 6) (min : BitVec 4) (f : FmtA) : (encodeFmtA maj min f).extractLsb' 12 5 = f.d := by
  apply BitVec.eq_of_getLsbD_eq
  intro i hi
  have e : (encodeFmtA maj min f).getLsbD (12 + i) = @BitVec.getLsbD (1 + 6 + 4 + 4 + 5 + 5 + 3 + 1 + 1 + 2)
    (bit1 f.c ++ maj ++ min ++ f.g ++ f.d ++ f.s ++ f.scope ++ bit1 f.r ++ bit1 f.u ++ f.z) (12 + i) := rfl
  rw [BitVec.getLsbD_extractLsb', e]
  simp only [BitVec.getLsbD_append]
  simp (disch := omega) only [if_neg, if_true, hi, decide_true, Bool.true_and, show 12 + i - 2 - 1 - 1 - 3 - 5 = i by omega]

theorem encodeFmtA_s (maj : BitVec 6) (min : BitVec 4) (f : FmtA) : (encodeFmtA maj min f).extractLsb' 7 5 = f.s := by
  apply BitVec.eq_of_getLsbD_eq
  intro i hi
  have e : (encodeFmtA maj min f).getLsbD (7 + i) = @BitVec.getLsbD (1 + 6 + 4 + 4 + 5 + 5 + 3 + 1 + 1 + 2)
    (bit1 f.c ++ maj ++ min ++ f.g ++ f.d ++ f.s ++ f.scope ++ bit1 f.r ++ bit1 f.u ++ f.z) (7 + i) := rfl
  rw [BitVec.getLsbD_extractLsb', e]
  simp only [BitVec.getLsbD_append]
  simp (disch := omega) only [if_neg, if_true, hi, decide_true, Bool.true_and, show 7 + i - 2 - 1 - 1 - 3 = i by omega]

theorem encodeFmtA_scope (maj : BitVec 6) (min : BitVec 4) (f : FmtA) : (encodeFmtA maj min f).extractLsb' 4 3 = f.scope := by
  apply BitVec.eq_of_getLsbD_eq
  intro i hi
  have e : (encodeFmtA maj min f).getLsbD (4 + i) = @BitVec.getLsbD (1 + 6 + 4 + 4 + 5 + 5 + 3 + 1 + 1 + 2)
    (bit1 f.c ++ maj ++ min ++ f.g ++ f.d ++ f.s ++ f.scope ++ bit1 f.r ++ bit1 f.u ++ f.z) (4 + i) := rfl
  rw [BitVec.getLsbD_extractLsb', e]
  simp only [BitVec.getLsbD_append]
  simp (disch := omega) only [if_neg, if_true, hi, decide_true, Bool.true_and, show 4 + i - 2 - 1 - 1 = i by omega]

theorem encodeFmtA_r (maj : BitVec 6) (min : BitVec 4) (f : FmtA) : (encodeFmtA maj min f).getLsbD 3 = f.r := by
  have e : (encodeFmtA maj min f).getLsbD 3 = @BitVec.getLsbD (1 + 6 + 4 + 4 + 5 + 5 + 3 + 1 + 1 + 2)
    (bit1 f.c ++ maj ++ min ++ f.g ++ f.d ++ f.s ++ f.scope ++ bit1 f.r ++ bit1 f.u ++ f.z) 3 := rfl
  rw [e]
  simp only [BitVec.getLsbD_append]
  simp [bit1]

theorem encodeFmtA_u (maj : BitVec 6) (min : BitVec 4) (f : FmtA) : (encodeFmtA maj min f).getLsbD 2 = f.u := by
  have e : (encodeFmtA maj min f).getLsbD 2 = @BitVec.getLsbD (1 + 6 + 4 + 4 + 5 + 5 + 3 + 1 + 1 + 2)
    (bit1 f.c ++ maj ++ min ++ f.g ++ f.d ++ f.s ++ f.scope ++ bit1 f.r ++ bit1 f.u ++ f.z) 2 := rfl
  rw [e]
  simp only [BitVec.getLsbD_append]
  simp [bit1]

theorem encodeFmtA_z (maj : BitVec 6) (min : BitVec 4) (f : FmtA) : (encodeFmtA maj min f).extractLsb' 0 2 = f.z := by
  apply BitVec.eq_of_getLsbD_eq
  intro i hi
  have e : (encodeFmtA maj min f).getLsbD (0 + i) = @BitVec.getLsbD (1 + 6 + 4 + 4 + 5 + 5 + 3 + 1 + 1 + 2)
    (bit1 f.c ++ maj ++ min ++ f.g ++ f.d ++ f.s ++ f.scope ++ bit1 f.r ++ bit1 f.u ++ f.z) (0 + i) := rfl
  rw [BitVec.getLsbD_extractLsb', e]
  simp only [BitVec.getLsbD_append]
  simp (disch := omega) only [if_neg, if_true, hi, decide_true, Bool.true_and, Nat.zero_add]

theorem decodeFmtA_encode (maj : BitVec 6) (min : BitVec 4) (f : FmtA) : decodeFmtA (encodeFmtA maj min f) = f := by
  simp only [decodeFmtA, encodeFmtA_c, encodeFmtA_g, encodeFmtA_d, encodeFmtA_s, encodeFmtA_scope, encodeFmtA_r, encodeFmtA_u, encodeFmtA_z]

theorem encodeFmtPC_maj (maj : BitVec 6) (f : FmtPC) : (encodeFmtPC maj f).extractLsb' 25 6 = maj := by
  apply BitVec.eq_of_getLsbD_eq
  intro i hi
  have e : (encodeFmtPC maj f).getLsbD (25 + i) = @BitVec.getLsbD (1 + 6 + 4 + 7 + 5 + 5 + 2 + 2)
    (bit1 f.c ++ maj ++ f.cond ++ f.pd ++ f.a ++ f.b ++ f.k ++ f.t) (25 + i) := rfl
  rw [BitVec.getLsbD_extractLsb', e]
  simp only [BitVec.getLsbD_append]
  simp (disch := omega) only [if_neg, if_true, hi, decide_true, Bool.true_and, show 25 + i - 2 - 2 - 5 - 5 - 7 - 4 = i by omega]

theorem encodeFmtPC_c (maj : BitVec 6) (f : FmtPC) : (encodeFmtPC maj f).getLsbD 31 = f.c := by
  have e : (encodeFmtPC maj f).getLsbD 31 = @BitVec.getLsbD (1 + 6 + 4 + 7 + 5 + 5 + 2 + 2)
    (bit1 f.c ++ maj ++ f.cond ++ f.pd ++ f.a ++ f.b ++ f.k ++ f.t) 31 := rfl
  rw [e]
  simp only [BitVec.getLsbD_append]
  simp [bit1]

theorem encodeFmtPC_cond (maj : BitVec 6) (f : FmtPC) : (encodeFmtPC maj f).extractLsb' 21 4 = f.cond := by
  apply BitVec.eq_of_getLsbD_eq
  intro i hi
  have e : (encodeFmtPC maj f).getLsbD (21 + i) = @BitVec.getLsbD (1 + 6 + 4 + 7 + 5 + 5 + 2 + 2)
    (bit1 f.c ++ maj ++ f.cond ++ f.pd ++ f.a ++ f.b ++ f.k ++ f.t) (21 + i) := rfl
  rw [BitVec.getLsbD_extractLsb', e]
  simp only [BitVec.getLsbD_append]
  simp (disch := omega) only [if_neg, if_true, hi, decide_true, Bool.true_and, show 21 + i - 2 - 2 - 5 - 5 - 7 = i by omega]

theorem encodeFmtPC_pd (maj : BitVec 6) (f : FmtPC) : (encodeFmtPC maj f).extractLsb' 14 7 = f.pd := by
  apply BitVec.eq_of_getLsbD_eq
  intro i hi
  have e : (encodeFmtPC maj f).getLsbD (14 + i) = @BitVec.getLsbD (1 + 6 + 4 + 7 + 5 + 5 + 2 + 2)
    (bit1 f.c ++ maj ++ f.cond ++ f.pd ++ f.a ++ f.b ++ f.k ++ f.t) (14 + i) := rfl
  rw [BitVec.getLsbD_extractLsb', e]
  simp only [BitVec.getLsbD_append]
  simp (disch := omega) only [if_neg, if_true, hi, decide_true, Bool.true_and, show 14 + i - 2 - 2 - 5 - 5 = i by omega]

theorem encodeFmtPC_a (maj : BitVec 6) (f : FmtPC) : (encodeFmtPC maj f).extractLsb' 9 5 = f.a := by
  apply BitVec.eq_of_getLsbD_eq
  intro i hi
  have e : (encodeFmtPC maj f).getLsbD (9 + i) = @BitVec.getLsbD (1 + 6 + 4 + 7 + 5 + 5 + 2 + 2)
    (bit1 f.c ++ maj ++ f.cond ++ f.pd ++ f.a ++ f.b ++ f.k ++ f.t) (9 + i) := rfl
  rw [BitVec.getLsbD_extractLsb', e]
  simp only [BitVec.getLsbD_append]
  simp (disch := omega) only [if_neg, if_true, hi, decide_true, Bool.true_and, show 9 + i - 2 - 2 - 5 = i by omega]

theorem encodeFmtPC_b (maj : BitVec 6) (f : FmtPC) : (encodeFmtPC maj f).extractLsb' 4 5 = f.b := by
  apply BitVec.eq_of_getLsbD_eq
  intro i hi
  have e : (encodeFmtPC maj f).getLsbD (4 + i) = @BitVec.getLsbD (1 + 6 + 4 + 7 + 5 + 5 + 2 + 2)
    (bit1 f.c ++ maj ++ f.cond ++ f.pd ++ f.a ++ f.b ++ f.k ++ f.t) (4 + i) := rfl
  rw [BitVec.getLsbD_extractLsb', e]
  simp only [BitVec.getLsbD_append]
  simp (disch := omega) only [if_neg, if_true, hi, decide_true, Bool.true_and, show 4 + i - 2 - 2 = i by omega]

theorem encodeFmtPC_k (maj : BitVec 6) (f : FmtPC) : (encodeFmtPC maj f).extractLsb' 2 2 = f.k := by
  apply BitVec.eq_of_getLsbD_eq
  intro i hi
  have e : (encodeFmtPC maj f).getLsbD (2 + i) = @BitVec.getLsbD (1 + 6 + 4 + 7 + 5 + 5 + 2 + 2)
    (bit1 f.c ++ maj ++ f.cond ++ f.pd ++ f.a ++ f.b ++ f.k ++ f.t) (2 + i) := rfl
  rw [BitVec.getLsbD_extractLsb', e]
  simp only [BitVec.getLsbD_append]
  simp (disch := omega) only [if_neg, if_true, hi, decide_true, Bool.true_and, show 2 + i - 2 = i by omega]

theorem encodeFmtPC_t (maj : BitVec 6) (f : FmtPC) : (encodeFmtPC maj f).extractLsb' 0 2 = f.t := by
  apply BitVec.eq_of_getLsbD_eq
  intro i hi
  have e : (encodeFmtPC maj f).getLsbD (0 + i) = @BitVec.getLsbD (1 + 6 + 4 + 7 + 5 + 5 + 2 + 2)
    (bit1 f.c ++ maj ++ f.cond ++ f.pd ++ f.a ++ f.b ++ f.k ++ f.t) (0 + i) := rfl
  rw [BitVec.getLsbD_extractLsb', e]
  simp only [BitVec.getLsbD_append]
  simp (disch := omega) only [if_neg, if_true, hi, decide_true, Bool.true_and, Nat.zero_add]

theorem decodeFmtPC_encode (maj : BitVec 6) (f : FmtPC) : decodeFmtPC (encodeFmtPC maj f) = f := by
  simp only [decodeFmtPC, encodeFmtPC_c, encodeFmtPC_cond, encodeFmtPC_pd, encodeFmtPC_a, encodeFmtPC_b, encodeFmtPC_k, encodeFmtPC_t]

theorem encodeFmtPCS_maj (maj : BitVec 6) (f : FmtPCS) : (encodeFmtPCS maj f).extractLsb' 25 6 = maj := by
  apply BitVec.eq_of_getLsbD_eq
  intro i hi
  have e : (encodeFmtPCS maj f).getLsbD (25 + i) = @BitVec.getLsbD (1 + 6 + 4 + 7 + 5 + 5 + 2 + 2)
    (bit1 f.c ++ maj ++ f.cond ++ f.pd ++ f.sa ++ f.sb ++ f.k ++ f.z) (25 + i) := rfl
  rw [BitVec.getLsbD_extractLsb', e]
  simp only [BitVec.getLsbD_append]
  simp (disch := omega) only [if_neg, if_true, hi, decide_true, Bool.true_and, show 25 + i - 2 - 2 - 5 - 5 - 7 - 4 = i by omega]

theorem encodeFmtPCS_c (maj : BitVec 6) (f : FmtPCS) : (encodeFmtPCS maj f).getLsbD 31 = f.c := by
  have e : (encodeFmtPCS maj f).getLsbD 31 = @BitVec.getLsbD (1 + 6 + 4 + 7 + 5 + 5 + 2 + 2)
    (bit1 f.c ++ maj ++ f.cond ++ f.pd ++ f.sa ++ f.sb ++ f.k ++ f.z) 31 := rfl
  rw [e]
  simp only [BitVec.getLsbD_append]
  simp [bit1]

theorem encodeFmtPCS_cond (maj : BitVec 6) (f : FmtPCS) : (encodeFmtPCS maj f).extractLsb' 21 4 = f.cond := by
  apply BitVec.eq_of_getLsbD_eq
  intro i hi
  have e : (encodeFmtPCS maj f).getLsbD (21 + i) = @BitVec.getLsbD (1 + 6 + 4 + 7 + 5 + 5 + 2 + 2)
    (bit1 f.c ++ maj ++ f.cond ++ f.pd ++ f.sa ++ f.sb ++ f.k ++ f.z) (21 + i) := rfl
  rw [BitVec.getLsbD_extractLsb', e]
  simp only [BitVec.getLsbD_append]
  simp (disch := omega) only [if_neg, if_true, hi, decide_true, Bool.true_and, show 21 + i - 2 - 2 - 5 - 5 - 7 = i by omega]

theorem encodeFmtPCS_pd (maj : BitVec 6) (f : FmtPCS) : (encodeFmtPCS maj f).extractLsb' 14 7 = f.pd := by
  apply BitVec.eq_of_getLsbD_eq
  intro i hi
  have e : (encodeFmtPCS maj f).getLsbD (14 + i) = @BitVec.getLsbD (1 + 6 + 4 + 7 + 5 + 5 + 2 + 2)
    (bit1 f.c ++ maj ++ f.cond ++ f.pd ++ f.sa ++ f.sb ++ f.k ++ f.z) (14 + i) := rfl
  rw [BitVec.getLsbD_extractLsb', e]
  simp only [BitVec.getLsbD_append]
  simp (disch := omega) only [if_neg, if_true, hi, decide_true, Bool.true_and, show 14 + i - 2 - 2 - 5 - 5 = i by omega]

theorem encodeFmtPCS_sa (maj : BitVec 6) (f : FmtPCS) : (encodeFmtPCS maj f).extractLsb' 9 5 = f.sa := by
  apply BitVec.eq_of_getLsbD_eq
  intro i hi
  have e : (encodeFmtPCS maj f).getLsbD (9 + i) = @BitVec.getLsbD (1 + 6 + 4 + 7 + 5 + 5 + 2 + 2)
    (bit1 f.c ++ maj ++ f.cond ++ f.pd ++ f.sa ++ f.sb ++ f.k ++ f.z) (9 + i) := rfl
  rw [BitVec.getLsbD_extractLsb', e]
  simp only [BitVec.getLsbD_append]
  simp (disch := omega) only [if_neg, if_true, hi, decide_true, Bool.true_and, show 9 + i - 2 - 2 - 5 = i by omega]

theorem encodeFmtPCS_sb (maj : BitVec 6) (f : FmtPCS) : (encodeFmtPCS maj f).extractLsb' 4 5 = f.sb := by
  apply BitVec.eq_of_getLsbD_eq
  intro i hi
  have e : (encodeFmtPCS maj f).getLsbD (4 + i) = @BitVec.getLsbD (1 + 6 + 4 + 7 + 5 + 5 + 2 + 2)
    (bit1 f.c ++ maj ++ f.cond ++ f.pd ++ f.sa ++ f.sb ++ f.k ++ f.z) (4 + i) := rfl
  rw [BitVec.getLsbD_extractLsb', e]
  simp only [BitVec.getLsbD_append]
  simp (disch := omega) only [if_neg, if_true, hi, decide_true, Bool.true_and, show 4 + i - 2 - 2 = i by omega]

theorem encodeFmtPCS_k (maj : BitVec 6) (f : FmtPCS) : (encodeFmtPCS maj f).extractLsb' 2 2 = f.k := by
  apply BitVec.eq_of_getLsbD_eq
  intro i hi
  have e : (encodeFmtPCS maj f).getLsbD (2 + i) = @BitVec.getLsbD (1 + 6 + 4 + 7 + 5 + 5 + 2 + 2)
    (bit1 f.c ++ maj ++ f.cond ++ f.pd ++ f.sa ++ f.sb ++ f.k ++ f.z) (2 + i) := rfl
  rw [BitVec.getLsbD_extractLsb', e]
  simp only [BitVec.getLsbD_append]
  simp (disch := omega) only [if_neg, if_true, hi, decide_true, Bool.true_and, show 2 + i - 2 = i by omega]

theorem encodeFmtPCS_z (maj : BitVec 6) (f : FmtPCS) : (encodeFmtPCS maj f).extractLsb' 0 2 = f.z := by
  apply BitVec.eq_of_getLsbD_eq
  intro i hi
  have e : (encodeFmtPCS maj f).getLsbD (0 + i) = @BitVec.getLsbD (1 + 6 + 4 + 7 + 5 + 5 + 2 + 2)
    (bit1 f.c ++ maj ++ f.cond ++ f.pd ++ f.sa ++ f.sb ++ f.k ++ f.z) (0 + i) := rfl
  rw [BitVec.getLsbD_extractLsb', e]
  simp only [BitVec.getLsbD_append]
  simp (disch := omega) only [if_neg, if_true, hi, decide_true, Bool.true_and, Nat.zero_add]

theorem decodeFmtPCS_encode (maj : BitVec 6) (f : FmtPCS) : decodeFmtPCS (encodeFmtPCS maj f) = f := by
  simp only [decodeFmtPCS, encodeFmtPCS_c, encodeFmtPCS_cond, encodeFmtPCS_pd, encodeFmtPCS_sa, encodeFmtPCS_sb, encodeFmtPCS_k, encodeFmtPCS_z]

end Sys2Proof
end

