-- ==== Sys2Proof/Laws/State.lean ====
section
/-! SUPPORT. What each update of the state leaves as it was, field by field. -/

namespace Sys2Proof.Machine

@[simp] theorem State.putTeam_agenda (s : State) (k : Nat) (t : Team) : (s.putTeam k t).agenda = s.agenda := rfl
@[simp] theorem State.putTeam_detail (s : State) (k : Nat) (t : Team) : (s.putTeam k t).detail = s.detail := rfl
@[simp] theorem State.putTeam_actor (s : State) (k : Nat) (t : Team) : (s.putTeam k t).actor = s.actor := rfl
@[simp] theorem State.putTeam_turn (s : State) (k : Nat) (t : Team) : (s.putTeam k t).turn = s.turn := rfl
@[simp] theorem State.putTeam_fresh (s : State) (k : Nat) (t : Team) : (s.putTeam k t).fresh = s.fresh := rfl
@[simp] theorem State.putTeam_serial (s : State) (k : Nat) (t : Team) : (s.putTeam k t).serial = s.serial := rfl
@[simp] theorem State.putTeam_clock (s : State) (k : Nat) (t : Team) : (s.putTeam k t).clock = s.clock := rfl
@[simp] theorem State.putTeam_cores (s : State) (k : Nat) (t : Team) : (s.putTeam k t).cores = s.cores := rfl
@[simp] theorem State.putTeam_blocks (s : State) (k : Nat) (t : Team) : (s.putTeam k t).blocks = s.blocks := rfl
@[simp] theorem State.putTeam_quads (s : State) (k : Nat) (t : Team) : (s.putTeam k t).quads = s.quads := rfl
@[simp] theorem State.putTeam_tlb (s : State) (k : Nat) (t : Team) : (s.putTeam k t).tlb = s.tlb := rfl
@[simp] theorem State.putTeam_ctxs (s : State) (k : Nat) (t : Team) : (s.putTeam k t).ctxs = s.ctxs := rfl
@[simp] theorem State.putTeam_parts (s : State) (k : Nat) (t : Team) : (s.putTeam k t).parts = s.parts := rfl
@[simp] theorem State.putTeam_cellars (s : State) (k : Nat) (t : Team) : (s.putTeam k t).cellars = s.cellars := rfl
@[simp] theorem State.putTeam_mem (s : State) (k : Nat) (t : Team) : (s.putTeam k t).mem = s.mem := rfl
@[simp] theorem State.putTeam_descs (s : State) (k : Nat) (t : Team) : (s.putTeam k t).descs = s.descs := rfl
@[simp] theorem State.putTeam_bad (s : State) (k : Nat) (t : Team) : (s.putTeam k t).bad = s.bad := rfl
@[simp] theorem State.putTeam_keyTags (s : State) (k : Nat) (t : Team) : (s.putTeam k t).keyTags = s.keyTags := rfl
@[simp] theorem State.putTeam_owners (s : State) (k : Nat) (t : Team) : (s.putTeam k t).owners = s.owners := rfl
@[simp] theorem State.putTeam_pgown (s : State) (k : Nat) (t : Team) : (s.putTeam k t).pgown = s.pgown := rfl
@[simp] theorem State.putTeam_flights (s : State) (k : Nat) (t : Team) : (s.putTeam k t).flights = s.flights := rfl
@[simp] theorem State.putTeam_pendings (s : State) (k : Nat) (t : Team) : (s.putTeam k t).pendings = s.pendings := rfl
@[simp] theorem State.putTeam_ops (s : State) (k : Nat) (t : Team) : (s.putTeam k t).ops = s.ops := rfl
@[simp] theorem State.putTeam_misses (s : State) (k : Nat) (t : Team) : (s.putTeam k t).misses = s.misses := rfl
@[simp] theorem State.putTeam_evq (s : State) (k : Nat) (t : Team) : (s.putTeam k t).evq = s.evq := rfl
@[simp] theorem State.putTeam_slots (s : State) (k : Nat) (t : Team) : (s.putTeam k t).slots = s.slots := rfl
@[simp] theorem State.putTeam_lastThread (s : State) (k : Nat) (t : Team) : (s.putTeam k t).lastThread = s.lastThread := rfl
@[simp] theorem State.putTeam_syssel (s : State) (k : Nat) (t : Team) : (s.putTeam k t).syssel = s.syssel := rfl
@[simp] theorem State.putTeam_lqsel (s : State) (k : Nat) (t : Team) : (s.putTeam k t).lqsel = s.lqsel := rfl
@[simp] theorem State.putTeam_digests (s : State) (k : Nat) (t : Team) : (s.putTeam k t).digests = s.digests := rfl
@[simp] theorem State.putTeam_launches (s : State) (k : Nat) (t : Team) : (s.putTeam k t).launches = s.launches := rfl
@[simp] theorem State.putTeam_lease (s : State) (k : Nat) (t : Team) : (s.putTeam k t).lease = s.lease := rfl
@[simp] theorem State.putTeam_links (s : State) (k : Nat) (t : Team) : (s.putTeam k t).links = s.links := rfl
@[simp] theorem State.putTeam_fabto (s : State) (k : Nat) (t : Team) : (s.putTeam k t).fabto = s.fabto := rfl
@[simp] theorem State.putTeam_linkrt (s : State) (k : Nat) (t : Team) : (s.putTeam k t).linkrt = s.linkrt := rfl
@[simp] theorem State.putTeam_fabreplay (s : State) (k : Nat) (t : Team) : (s.putTeam k t).fabreplay = s.fabreplay := rfl
@[simp] theorem State.putTeam_pkgnum (s : State) (k : Nat) (t : Team) : (s.putTeam k t).pkgnum = s.pkgnum := rfl
@[simp] theorem State.putTeam_pbeat (s : State) (k : Nat) (t : Team) : (s.putTeam k t).pbeat = s.pbeat := rfl
@[simp] theorem State.putTeam_beatAt (s : State) (k : Nat) (t : Team) : (s.putTeam k t).beatAt = s.beatAt := rfl
@[simp] theorem State.putTeam_cscoll (s : State) (k : Nat) (t : Team) : (s.putTeam k t).cscoll = s.cscoll := rfl
@[simp] theorem State.putTeam_messages (s : State) (k : Nat) (t : Team) : (s.putTeam k t).messages = s.messages := rfl
@[simp] theorem State.putTeam_heard (s : State) (k : Nat) (t : Team) : (s.putTeam k t).heard = s.heard := rfl
@[simp] theorem State.putTeam_held (s : State) (k : Nat) (t : Team) : (s.putTeam k t).held = s.held := rfl
@[simp] theorem State.putTeam_signals (s : State) (k : Nat) (t : Team) : (s.putTeam k t).signals = s.signals := rfl
@[simp] theorem State.putTeam_verdicts (s : State) (k : Nat) (t : Team) : (s.putTeam k t).verdicts = s.verdicts := rfl
@[simp] theorem State.putTeam_moved (s : State) (k : Nat) (t : Team) : (s.putTeam k t).moved = s.moved := rfl
@[simp] theorem State.putTeam_sentSeq (s : State) (k : Nat) (t : Team) : (s.putTeam k t).sentSeq = s.sentSeq := rfl
@[simp] theorem State.putTeam_update (s : State) (k : Nat) (t : Team) : (s.putTeam k t).update = s.update := rfl
@[simp] theorem State.putTeam_imageA (s : State) (k : Nat) (t : Team) : (s.putTeam k t).imageA = s.imageA := rfl
@[simp] theorem State.putTeam_imageB (s : State) (k : Nat) (t : Team) : (s.putTeam k t).imageB = s.imageB := rfl
@[simp] theorem State.putTeam_rollback (s : State) (k : Nat) (t : Team) : (s.putTeam k t).rollback = s.rollback := rfl
@[simp] theorem State.putTeam_mailbox (s : State) (k : Nat) (t : Team) : (s.putTeam k t).mailbox = s.mailbox := rfl
@[simp] theorem State.putTeam_hostReply (s : State) (k : Nat) (t : Team) : (s.putTeam k t).hostReply = s.hostReply := rfl
@[simp] theorem State.putTeam_transfer (s : State) (k : Nat) (t : Team) : (s.putTeam k t).transfer = s.transfer := rfl
@[simp] theorem State.putTeam_spdm (s : State) (k : Nat) (t : Team) : (s.putTeam k t).spdm = s.spdm := rfl
@[simp] theorem State.putTeam_health (s : State) (k : Nat) (t : Team) : (s.putTeam k t).health = s.health := rfl

@[simp] theorem State.modTeam_agenda (s : State) (k : Nat) (f : Team → Team) : (s.modTeam k f).agenda = s.agenda := rfl
@[simp] theorem State.modTeam_detail (s : State) (k : Nat) (f : Team → Team) : (s.modTeam k f).detail = s.detail := rfl
@[simp] theorem State.modTeam_actor (s : State) (k : Nat) (f : Team → Team) : (s.modTeam k f).actor = s.actor := rfl
@[simp] theorem State.modTeam_turn (s : State) (k : Nat) (f : Team → Team) : (s.modTeam k f).turn = s.turn := rfl
@[simp] theorem State.modTeam_fresh (s : State) (k : Nat) (f : Team → Team) : (s.modTeam k f).fresh = s.fresh := rfl
@[simp] theorem State.modTeam_serial (s : State) (k : Nat) (f : Team → Team) : (s.modTeam k f).serial = s.serial := rfl
@[simp] theorem State.modTeam_clock (s : State) (k : Nat) (f : Team → Team) : (s.modTeam k f).clock = s.clock := rfl
@[simp] theorem State.modTeam_cores (s : State) (k : Nat) (f : Team → Team) : (s.modTeam k f).cores = s.cores := rfl
@[simp] theorem State.modTeam_blocks (s : State) (k : Nat) (f : Team → Team) : (s.modTeam k f).blocks = s.blocks := rfl
@[simp] theorem State.modTeam_quads (s : State) (k : Nat) (f : Team → Team) : (s.modTeam k f).quads = s.quads := rfl
@[simp] theorem State.modTeam_tlb (s : State) (k : Nat) (f : Team → Team) : (s.modTeam k f).tlb = s.tlb := rfl
@[simp] theorem State.modTeam_ctxs (s : State) (k : Nat) (f : Team → Team) : (s.modTeam k f).ctxs = s.ctxs := rfl
@[simp] theorem State.modTeam_parts (s : State) (k : Nat) (f : Team → Team) : (s.modTeam k f).parts = s.parts := rfl
@[simp] theorem State.modTeam_cellars (s : State) (k : Nat) (f : Team → Team) : (s.modTeam k f).cellars = s.cellars := rfl
@[simp] theorem State.modTeam_mem (s : State) (k : Nat) (f : Team → Team) : (s.modTeam k f).mem = s.mem := rfl
@[simp] theorem State.modTeam_descs (s : State) (k : Nat) (f : Team → Team) : (s.modTeam k f).descs = s.descs := rfl
@[simp] theorem State.modTeam_bad (s : State) (k : Nat) (f : Team → Team) : (s.modTeam k f).bad = s.bad := rfl
@[simp] theorem State.modTeam_keyTags (s : State) (k : Nat) (f : Team → Team) : (s.modTeam k f).keyTags = s.keyTags := rfl
@[simp] theorem State.modTeam_owners (s : State) (k : Nat) (f : Team → Team) : (s.modTeam k f).owners = s.owners := rfl
@[simp] theorem State.modTeam_pgown (s : State) (k : Nat) (f : Team → Team) : (s.modTeam k f).pgown = s.pgown := rfl
@[simp] theorem State.modTeam_flights (s : State) (k : Nat) (f : Team → Team) : (s.modTeam k f).flights = s.flights := rfl
@[simp] theorem State.modTeam_pendings (s : State) (k : Nat) (f : Team → Team) : (s.modTeam k f).pendings = s.pendings := rfl
@[simp] theorem State.modTeam_ops (s : State) (k : Nat) (f : Team → Team) : (s.modTeam k f).ops = s.ops := rfl
@[simp] theorem State.modTeam_misses (s : State) (k : Nat) (f : Team → Team) : (s.modTeam k f).misses = s.misses := rfl
@[simp] theorem State.modTeam_evq (s : State) (k : Nat) (f : Team → Team) : (s.modTeam k f).evq = s.evq := rfl
@[simp] theorem State.modTeam_slots (s : State) (k : Nat) (f : Team → Team) : (s.modTeam k f).slots = s.slots := rfl
@[simp] theorem State.modTeam_lastThread (s : State) (k : Nat) (f : Team → Team) : (s.modTeam k f).lastThread = s.lastThread := rfl
@[simp] theorem State.modTeam_syssel (s : State) (k : Nat) (f : Team → Team) : (s.modTeam k f).syssel = s.syssel := rfl
@[simp] theorem State.modTeam_lqsel (s : State) (k : Nat) (f : Team → Team) : (s.modTeam k f).lqsel = s.lqsel := rfl
@[simp] theorem State.modTeam_digests (s : State) (k : Nat) (f : Team → Team) : (s.modTeam k f).digests = s.digests := rfl
@[simp] theorem State.modTeam_launches (s : State) (k : Nat) (f : Team → Team) : (s.modTeam k f).launches = s.launches := rfl
@[simp] theorem State.modTeam_lease (s : State) (k : Nat) (f : Team → Team) : (s.modTeam k f).lease = s.lease := rfl
@[simp] theorem State.modTeam_links (s : State) (k : Nat) (f : Team → Team) : (s.modTeam k f).links = s.links := rfl
@[simp] theorem State.modTeam_fabto (s : State) (k : Nat) (f : Team → Team) : (s.modTeam k f).fabto = s.fabto := rfl
@[simp] theorem State.modTeam_linkrt (s : State) (k : Nat) (f : Team → Team) : (s.modTeam k f).linkrt = s.linkrt := rfl
@[simp] theorem State.modTeam_fabreplay (s : State) (k : Nat) (f : Team → Team) : (s.modTeam k f).fabreplay = s.fabreplay := rfl
@[simp] theorem State.modTeam_pkgnum (s : State) (k : Nat) (f : Team → Team) : (s.modTeam k f).pkgnum = s.pkgnum := rfl
@[simp] theorem State.modTeam_pbeat (s : State) (k : Nat) (f : Team → Team) : (s.modTeam k f).pbeat = s.pbeat := rfl
@[simp] theorem State.modTeam_beatAt (s : State) (k : Nat) (f : Team → Team) : (s.modTeam k f).beatAt = s.beatAt := rfl
@[simp] theorem State.modTeam_cscoll (s : State) (k : Nat) (f : Team → Team) : (s.modTeam k f).cscoll = s.cscoll := rfl
@[simp] theorem State.modTeam_messages (s : State) (k : Nat) (f : Team → Team) : (s.modTeam k f).messages = s.messages := rfl
@[simp] theorem State.modTeam_heard (s : State) (k : Nat) (f : Team → Team) : (s.modTeam k f).heard = s.heard := rfl
@[simp] theorem State.modTeam_held (s : State) (k : Nat) (f : Team → Team) : (s.modTeam k f).held = s.held := rfl
@[simp] theorem State.modTeam_signals (s : State) (k : Nat) (f : Team → Team) : (s.modTeam k f).signals = s.signals := rfl
@[simp] theorem State.modTeam_verdicts (s : State) (k : Nat) (f : Team → Team) : (s.modTeam k f).verdicts = s.verdicts := rfl
@[simp] theorem State.modTeam_moved (s : State) (k : Nat) (f : Team → Team) : (s.modTeam k f).moved = s.moved := rfl
@[simp] theorem State.modTeam_sentSeq (s : State) (k : Nat) (f : Team → Team) : (s.modTeam k f).sentSeq = s.sentSeq := rfl
@[simp] theorem State.modTeam_update (s : State) (k : Nat) (f : Team → Team) : (s.modTeam k f).update = s.update := rfl
@[simp] theorem State.modTeam_imageA (s : State) (k : Nat) (f : Team → Team) : (s.modTeam k f).imageA = s.imageA := rfl
@[simp] theorem State.modTeam_imageB (s : State) (k : Nat) (f : Team → Team) : (s.modTeam k f).imageB = s.imageB := rfl
@[simp] theorem State.modTeam_rollback (s : State) (k : Nat) (f : Team → Team) : (s.modTeam k f).rollback = s.rollback := rfl
@[simp] theorem State.modTeam_mailbox (s : State) (k : Nat) (f : Team → Team) : (s.modTeam k f).mailbox = s.mailbox := rfl
@[simp] theorem State.modTeam_hostReply (s : State) (k : Nat) (f : Team → Team) : (s.modTeam k f).hostReply = s.hostReply := rfl
@[simp] theorem State.modTeam_transfer (s : State) (k : Nat) (f : Team → Team) : (s.modTeam k f).transfer = s.transfer := rfl
@[simp] theorem State.modTeam_spdm (s : State) (k : Nat) (f : Team → Team) : (s.modTeam k f).spdm = s.spdm := rfl
@[simp] theorem State.modTeam_health (s : State) (k : Nat) (f : Team → Team) : (s.modTeam k f).health = s.health := rfl

@[simp] theorem State.putCore_agenda (s : State) (c : Nat) (x : Core) : (s.putCore c x).agenda = s.agenda := rfl
@[simp] theorem State.putCore_detail (s : State) (c : Nat) (x : Core) : (s.putCore c x).detail = s.detail := rfl
@[simp] theorem State.putCore_actor (s : State) (c : Nat) (x : Core) : (s.putCore c x).actor = s.actor := rfl
@[simp] theorem State.putCore_turn (s : State) (c : Nat) (x : Core) : (s.putCore c x).turn = s.turn := rfl
@[simp] theorem State.putCore_fresh (s : State) (c : Nat) (x : Core) : (s.putCore c x).fresh = s.fresh := rfl
@[simp] theorem State.putCore_serial (s : State) (c : Nat) (x : Core) : (s.putCore c x).serial = s.serial := rfl
@[simp] theorem State.putCore_clock (s : State) (c : Nat) (x : Core) : (s.putCore c x).clock = s.clock := rfl
@[simp] theorem State.putCore_teams (s : State) (c : Nat) (x : Core) : (s.putCore c x).teams = s.teams := rfl
@[simp] theorem State.putCore_blocks (s : State) (c : Nat) (x : Core) : (s.putCore c x).blocks = s.blocks := rfl
@[simp] theorem State.putCore_quads (s : State) (c : Nat) (x : Core) : (s.putCore c x).quads = s.quads := rfl
@[simp] theorem State.putCore_tlb (s : State) (c : Nat) (x : Core) : (s.putCore c x).tlb = s.tlb := rfl
@[simp] theorem State.putCore_ctxs (s : State) (c : Nat) (x : Core) : (s.putCore c x).ctxs = s.ctxs := rfl
@[simp] theorem State.putCore_parts (s : State) (c : Nat) (x : Core) : (s.putCore c x).parts = s.parts := rfl
@[simp] theorem State.putCore_cellars (s : State) (c : Nat) (x : Core) : (s.putCore c x).cellars = s.cellars := rfl
@[simp] theorem State.putCore_mem (s : State) (c : Nat) (x : Core) : (s.putCore c x).mem = s.mem := rfl
@[simp] theorem State.putCore_descs (s : State) (c : Nat) (x : Core) : (s.putCore c x).descs = s.descs := rfl
@[simp] theorem State.putCore_bad (s : State) (c : Nat) (x : Core) : (s.putCore c x).bad = s.bad := rfl
@[simp] theorem State.putCore_keyTags (s : State) (c : Nat) (x : Core) : (s.putCore c x).keyTags = s.keyTags := rfl
@[simp] theorem State.putCore_owners (s : State) (c : Nat) (x : Core) : (s.putCore c x).owners = s.owners := rfl
@[simp] theorem State.putCore_pgown (s : State) (c : Nat) (x : Core) : (s.putCore c x).pgown = s.pgown := rfl
@[simp] theorem State.putCore_flights (s : State) (c : Nat) (x : Core) : (s.putCore c x).flights = s.flights := rfl
@[simp] theorem State.putCore_pendings (s : State) (c : Nat) (x : Core) : (s.putCore c x).pendings = s.pendings := rfl
@[simp] theorem State.putCore_ops (s : State) (c : Nat) (x : Core) : (s.putCore c x).ops = s.ops := rfl
@[simp] theorem State.putCore_misses (s : State) (c : Nat) (x : Core) : (s.putCore c x).misses = s.misses := rfl
@[simp] theorem State.putCore_evq (s : State) (c : Nat) (x : Core) : (s.putCore c x).evq = s.evq := rfl
@[simp] theorem State.putCore_slots (s : State) (c : Nat) (x : Core) : (s.putCore c x).slots = s.slots := rfl
@[simp] theorem State.putCore_lastThread (s : State) (c : Nat) (x : Core) : (s.putCore c x).lastThread = s.lastThread := rfl
@[simp] theorem State.putCore_syssel (s : State) (c : Nat) (x : Core) : (s.putCore c x).syssel = s.syssel := rfl
@[simp] theorem State.putCore_lqsel (s : State) (c : Nat) (x : Core) : (s.putCore c x).lqsel = s.lqsel := rfl
@[simp] theorem State.putCore_digests (s : State) (c : Nat) (x : Core) : (s.putCore c x).digests = s.digests := rfl
@[simp] theorem State.putCore_launches (s : State) (c : Nat) (x : Core) : (s.putCore c x).launches = s.launches := rfl
@[simp] theorem State.putCore_lease (s : State) (c : Nat) (x : Core) : (s.putCore c x).lease = s.lease := rfl
@[simp] theorem State.putCore_links (s : State) (c : Nat) (x : Core) : (s.putCore c x).links = s.links := rfl
@[simp] theorem State.putCore_fabto (s : State) (c : Nat) (x : Core) : (s.putCore c x).fabto = s.fabto := rfl
@[simp] theorem State.putCore_linkrt (s : State) (c : Nat) (x : Core) : (s.putCore c x).linkrt = s.linkrt := rfl
@[simp] theorem State.putCore_fabreplay (s : State) (c : Nat) (x : Core) : (s.putCore c x).fabreplay = s.fabreplay := rfl
@[simp] theorem State.putCore_pkgnum (s : State) (c : Nat) (x : Core) : (s.putCore c x).pkgnum = s.pkgnum := rfl
@[simp] theorem State.putCore_pbeat (s : State) (c : Nat) (x : Core) : (s.putCore c x).pbeat = s.pbeat := rfl
@[simp] theorem State.putCore_beatAt (s : State) (c : Nat) (x : Core) : (s.putCore c x).beatAt = s.beatAt := rfl
@[simp] theorem State.putCore_cscoll (s : State) (c : Nat) (x : Core) : (s.putCore c x).cscoll = s.cscoll := rfl
@[simp] theorem State.putCore_messages (s : State) (c : Nat) (x : Core) : (s.putCore c x).messages = s.messages := rfl
@[simp] theorem State.putCore_heard (s : State) (c : Nat) (x : Core) : (s.putCore c x).heard = s.heard := rfl
@[simp] theorem State.putCore_held (s : State) (c : Nat) (x : Core) : (s.putCore c x).held = s.held := rfl
@[simp] theorem State.putCore_signals (s : State) (c : Nat) (x : Core) : (s.putCore c x).signals = s.signals := rfl
@[simp] theorem State.putCore_verdicts (s : State) (c : Nat) (x : Core) : (s.putCore c x).verdicts = s.verdicts := rfl
@[simp] theorem State.putCore_moved (s : State) (c : Nat) (x : Core) : (s.putCore c x).moved = s.moved := rfl
@[simp] theorem State.putCore_sentSeq (s : State) (c : Nat) (x : Core) : (s.putCore c x).sentSeq = s.sentSeq := rfl
@[simp] theorem State.putCore_update (s : State) (c : Nat) (x : Core) : (s.putCore c x).update = s.update := rfl
@[simp] theorem State.putCore_imageA (s : State) (c : Nat) (x : Core) : (s.putCore c x).imageA = s.imageA := rfl
@[simp] theorem State.putCore_imageB (s : State) (c : Nat) (x : Core) : (s.putCore c x).imageB = s.imageB := rfl
@[simp] theorem State.putCore_rollback (s : State) (c : Nat) (x : Core) : (s.putCore c x).rollback = s.rollback := rfl
@[simp] theorem State.putCore_mailbox (s : State) (c : Nat) (x : Core) : (s.putCore c x).mailbox = s.mailbox := rfl
@[simp] theorem State.putCore_hostReply (s : State) (c : Nat) (x : Core) : (s.putCore c x).hostReply = s.hostReply := rfl
@[simp] theorem State.putCore_transfer (s : State) (c : Nat) (x : Core) : (s.putCore c x).transfer = s.transfer := rfl
@[simp] theorem State.putCore_spdm (s : State) (c : Nat) (x : Core) : (s.putCore c x).spdm = s.spdm := rfl
@[simp] theorem State.putCore_health (s : State) (c : Nat) (x : Core) : (s.putCore c x).health = s.health := rfl

@[simp] theorem State.putCtx_agenda (s : State) (c : Nat) (x : Context) : (s.putCtx c x).agenda = s.agenda := rfl
@[simp] theorem State.putCtx_detail (s : State) (c : Nat) (x : Context) : (s.putCtx c x).detail = s.detail := rfl
@[simp] theorem State.putCtx_actor (s : State) (c : Nat) (x : Context) : (s.putCtx c x).actor = s.actor := rfl
@[simp] theorem State.putCtx_turn (s : State) (c : Nat) (x : Context) : (s.putCtx c x).turn = s.turn := rfl
@[simp] theorem State.putCtx_fresh (s : State) (c : Nat) (x : Context) : (s.putCtx c x).fresh = s.fresh := rfl
@[simp] theorem State.putCtx_serial (s : State) (c : Nat) (x : Context) : (s.putCtx c x).serial = s.serial := rfl
@[simp] theorem State.putCtx_clock (s : State) (c : Nat) (x : Context) : (s.putCtx c x).clock = s.clock := rfl
@[simp] theorem State.putCtx_teams (s : State) (c : Nat) (x : Context) : (s.putCtx c x).teams = s.teams := rfl
@[simp] theorem State.putCtx_cores (s : State) (c : Nat) (x : Context) : (s.putCtx c x).cores = s.cores := rfl
@[simp] theorem State.putCtx_blocks (s : State) (c : Nat) (x : Context) : (s.putCtx c x).blocks = s.blocks := rfl
@[simp] theorem State.putCtx_quads (s : State) (c : Nat) (x : Context) : (s.putCtx c x).quads = s.quads := rfl
@[simp] theorem State.putCtx_tlb (s : State) (c : Nat) (x : Context) : (s.putCtx c x).tlb = s.tlb := rfl
@[simp] theorem State.putCtx_parts (s : State) (c : Nat) (x : Context) : (s.putCtx c x).parts = s.parts := rfl
@[simp] theorem State.putCtx_cellars (s : State) (c : Nat) (x : Context) : (s.putCtx c x).cellars = s.cellars := rfl
@[simp] theorem State.putCtx_mem (s : State) (c : Nat) (x : Context) : (s.putCtx c x).mem = s.mem := rfl
@[simp] theorem State.putCtx_descs (s : State) (c : Nat) (x : Context) : (s.putCtx c x).descs = s.descs := rfl
@[simp] theorem State.putCtx_bad (s : State) (c : Nat) (x : Context) : (s.putCtx c x).bad = s.bad := rfl
@[simp] theorem State.putCtx_keyTags (s : State) (c : Nat) (x : Context) : (s.putCtx c x).keyTags = s.keyTags := rfl
@[simp] theorem State.putCtx_owners (s : State) (c : Nat) (x : Context) : (s.putCtx c x).owners = s.owners := rfl
@[simp] theorem State.putCtx_pgown (s : State) (c : Nat) (x : Context) : (s.putCtx c x).pgown = s.pgown := rfl
@[simp] theorem State.putCtx_flights (s : State) (c : Nat) (x : Context) : (s.putCtx c x).flights = s.flights := rfl
@[simp] theorem State.putCtx_pendings (s : State) (c : Nat) (x : Context) : (s.putCtx c x).pendings = s.pendings := rfl
@[simp] theorem State.putCtx_ops (s : State) (c : Nat) (x : Context) : (s.putCtx c x).ops = s.ops := rfl
@[simp] theorem State.putCtx_misses (s : State) (c : Nat) (x : Context) : (s.putCtx c x).misses = s.misses := rfl
@[simp] theorem State.putCtx_evq (s : State) (c : Nat) (x : Context) : (s.putCtx c x).evq = s.evq := rfl
@[simp] theorem State.putCtx_slots (s : State) (c : Nat) (x : Context) : (s.putCtx c x).slots = s.slots := rfl
@[simp] theorem State.putCtx_lastThread (s : State) (c : Nat) (x : Context) : (s.putCtx c x).lastThread = s.lastThread := rfl
@[simp] theorem State.putCtx_syssel (s : State) (c : Nat) (x : Context) : (s.putCtx c x).syssel = s.syssel := rfl
@[simp] theorem State.putCtx_lqsel (s : State) (c : Nat) (x : Context) : (s.putCtx c x).lqsel = s.lqsel := rfl
@[simp] theorem State.putCtx_digests (s : State) (c : Nat) (x : Context) : (s.putCtx c x).digests = s.digests := rfl
@[simp] theorem State.putCtx_launches (s : State) (c : Nat) (x : Context) : (s.putCtx c x).launches = s.launches := rfl
@[simp] theorem State.putCtx_lease (s : State) (c : Nat) (x : Context) : (s.putCtx c x).lease = s.lease := rfl
@[simp] theorem State.putCtx_links (s : State) (c : Nat) (x : Context) : (s.putCtx c x).links = s.links := rfl
@[simp] theorem State.putCtx_fabto (s : State) (c : Nat) (x : Context) : (s.putCtx c x).fabto = s.fabto := rfl
@[simp] theorem State.putCtx_linkrt (s : State) (c : Nat) (x : Context) : (s.putCtx c x).linkrt = s.linkrt := rfl
@[simp] theorem State.putCtx_fabreplay (s : State) (c : Nat) (x : Context) : (s.putCtx c x).fabreplay = s.fabreplay := rfl
@[simp] theorem State.putCtx_pkgnum (s : State) (c : Nat) (x : Context) : (s.putCtx c x).pkgnum = s.pkgnum := rfl
@[simp] theorem State.putCtx_pbeat (s : State) (c : Nat) (x : Context) : (s.putCtx c x).pbeat = s.pbeat := rfl
@[simp] theorem State.putCtx_beatAt (s : State) (c : Nat) (x : Context) : (s.putCtx c x).beatAt = s.beatAt := rfl
@[simp] theorem State.putCtx_cscoll (s : State) (c : Nat) (x : Context) : (s.putCtx c x).cscoll = s.cscoll := rfl
@[simp] theorem State.putCtx_messages (s : State) (c : Nat) (x : Context) : (s.putCtx c x).messages = s.messages := rfl
@[simp] theorem State.putCtx_heard (s : State) (c : Nat) (x : Context) : (s.putCtx c x).heard = s.heard := rfl
@[simp] theorem State.putCtx_held (s : State) (c : Nat) (x : Context) : (s.putCtx c x).held = s.held := rfl
@[simp] theorem State.putCtx_signals (s : State) (c : Nat) (x : Context) : (s.putCtx c x).signals = s.signals := rfl
@[simp] theorem State.putCtx_verdicts (s : State) (c : Nat) (x : Context) : (s.putCtx c x).verdicts = s.verdicts := rfl
@[simp] theorem State.putCtx_moved (s : State) (c : Nat) (x : Context) : (s.putCtx c x).moved = s.moved := rfl
@[simp] theorem State.putCtx_sentSeq (s : State) (c : Nat) (x : Context) : (s.putCtx c x).sentSeq = s.sentSeq := rfl
@[simp] theorem State.putCtx_update (s : State) (c : Nat) (x : Context) : (s.putCtx c x).update = s.update := rfl
@[simp] theorem State.putCtx_imageA (s : State) (c : Nat) (x : Context) : (s.putCtx c x).imageA = s.imageA := rfl
@[simp] theorem State.putCtx_imageB (s : State) (c : Nat) (x : Context) : (s.putCtx c x).imageB = s.imageB := rfl
@[simp] theorem State.putCtx_rollback (s : State) (c : Nat) (x : Context) : (s.putCtx c x).rollback = s.rollback := rfl
@[simp] theorem State.putCtx_mailbox (s : State) (c : Nat) (x : Context) : (s.putCtx c x).mailbox = s.mailbox := rfl
@[simp] theorem State.putCtx_hostReply (s : State) (c : Nat) (x : Context) : (s.putCtx c x).hostReply = s.hostReply := rfl
@[simp] theorem State.putCtx_transfer (s : State) (c : Nat) (x : Context) : (s.putCtx c x).transfer = s.transfer := rfl
@[simp] theorem State.putCtx_spdm (s : State) (c : Nat) (x : Context) : (s.putCtx c x).spdm = s.spdm := rfl
@[simp] theorem State.putCtx_health (s : State) (c : Nat) (x : Context) : (s.putCtx c x).health = s.health := rfl

@[simp] theorem State.putBlock_agenda (s : State) (n : Nat) (b : Block) : (s.putBlock n b).agenda = s.agenda := rfl
@[simp] theorem State.putBlock_detail (s : State) (n : Nat) (b : Block) : (s.putBlock n b).detail = s.detail := rfl
@[simp] theorem State.putBlock_actor (s : State) (n : Nat) (b : Block) : (s.putBlock n b).actor = s.actor := rfl
@[simp] theorem State.putBlock_turn (s : State) (n : Nat) (b : Block) : (s.putBlock n b).turn = s.turn := rfl
@[simp] theorem State.putBlock_fresh (s : State) (n : Nat) (b : Block) : (s.putBlock n b).fresh = s.fresh := rfl
@[simp] theorem State.putBlock_serial (s : State) (n : Nat) (b : Block) : (s.putBlock n b).serial = s.serial := rfl
@[simp] theorem State.putBlock_clock (s : State) (n : Nat) (b : Block) : (s.putBlock n b).clock = s.clock := rfl
@[simp] theorem State.putBlock_teams (s : State) (n : Nat) (b : Block) : (s.putBlock n b).teams = s.teams := rfl
@[simp] theorem State.putBlock_cores (s : State) (n : Nat) (b : Block) : (s.putBlock n b).cores = s.cores := rfl
@[simp] theorem State.putBlock_quads (s : State) (n : Nat) (b : Block) : (s.putBlock n b).quads = s.quads := rfl
@[simp] theorem State.putBlock_tlb (s : State) (n : Nat) (b : Block) : (s.putBlock n b).tlb = s.tlb := rfl
@[simp] theorem State.putBlock_ctxs (s : State) (n : Nat) (b : Block) : (s.putBlock n b).ctxs = s.ctxs := rfl
@[simp] theorem State.putBlock_parts (s : State) (n : Nat) (b : Block) : (s.putBlock n b).parts = s.parts := rfl
@[simp] theorem State.putBlock_cellars (s : State) (n : Nat) (b : Block) : (s.putBlock n b).cellars = s.cellars := rfl
@[simp] theorem State.putBlock_mem (s : State) (n : Nat) (b : Block) : (s.putBlock n b).mem = s.mem := rfl
@[simp] theorem State.putBlock_descs (s : State) (n : Nat) (b : Block) : (s.putBlock n b).descs = s.descs := rfl
@[simp] theorem State.putBlock_bad (s : State) (n : Nat) (b : Block) : (s.putBlock n b).bad = s.bad := rfl
@[simp] theorem State.putBlock_keyTags (s : State) (n : Nat) (b : Block) : (s.putBlock n b).keyTags = s.keyTags := rfl
@[simp] theorem State.putBlock_owners (s : State) (n : Nat) (b : Block) : (s.putBlock n b).owners = s.owners := rfl
@[simp] theorem State.putBlock_pgown (s : State) (n : Nat) (b : Block) : (s.putBlock n b).pgown = s.pgown := rfl
@[simp] theorem State.putBlock_flights (s : State) (n : Nat) (b : Block) : (s.putBlock n b).flights = s.flights := rfl
@[simp] theorem State.putBlock_pendings (s : State) (n : Nat) (b : Block) : (s.putBlock n b).pendings = s.pendings := rfl
@[simp] theorem State.putBlock_ops (s : State) (n : Nat) (b : Block) : (s.putBlock n b).ops = s.ops := rfl
@[simp] theorem State.putBlock_misses (s : State) (n : Nat) (b : Block) : (s.putBlock n b).misses = s.misses := rfl
@[simp] theorem State.putBlock_evq (s : State) (n : Nat) (b : Block) : (s.putBlock n b).evq = s.evq := rfl
@[simp] theorem State.putBlock_slots (s : State) (n : Nat) (b : Block) : (s.putBlock n b).slots = s.slots := rfl
@[simp] theorem State.putBlock_lastThread (s : State) (n : Nat) (b : Block) : (s.putBlock n b).lastThread = s.lastThread := rfl
@[simp] theorem State.putBlock_syssel (s : State) (n : Nat) (b : Block) : (s.putBlock n b).syssel = s.syssel := rfl
@[simp] theorem State.putBlock_lqsel (s : State) (n : Nat) (b : Block) : (s.putBlock n b).lqsel = s.lqsel := rfl
@[simp] theorem State.putBlock_digests (s : State) (n : Nat) (b : Block) : (s.putBlock n b).digests = s.digests := rfl
@[simp] theorem State.putBlock_launches (s : State) (n : Nat) (b : Block) : (s.putBlock n b).launches = s.launches := rfl
@[simp] theorem State.putBlock_lease (s : State) (n : Nat) (b : Block) : (s.putBlock n b).lease = s.lease := rfl
@[simp] theorem State.putBlock_links (s : State) (n : Nat) (b : Block) : (s.putBlock n b).links = s.links := rfl
@[simp] theorem State.putBlock_fabto (s : State) (n : Nat) (b : Block) : (s.putBlock n b).fabto = s.fabto := rfl
@[simp] theorem State.putBlock_linkrt (s : State) (n : Nat) (b : Block) : (s.putBlock n b).linkrt = s.linkrt := rfl
@[simp] theorem State.putBlock_fabreplay (s : State) (n : Nat) (b : Block) : (s.putBlock n b).fabreplay = s.fabreplay := rfl
@[simp] theorem State.putBlock_pkgnum (s : State) (n : Nat) (b : Block) : (s.putBlock n b).pkgnum = s.pkgnum := rfl
@[simp] theorem State.putBlock_pbeat (s : State) (n : Nat) (b : Block) : (s.putBlock n b).pbeat = s.pbeat := rfl
@[simp] theorem State.putBlock_beatAt (s : State) (n : Nat) (b : Block) : (s.putBlock n b).beatAt = s.beatAt := rfl
@[simp] theorem State.putBlock_cscoll (s : State) (n : Nat) (b : Block) : (s.putBlock n b).cscoll = s.cscoll := rfl
@[simp] theorem State.putBlock_messages (s : State) (n : Nat) (b : Block) : (s.putBlock n b).messages = s.messages := rfl
@[simp] theorem State.putBlock_heard (s : State) (n : Nat) (b : Block) : (s.putBlock n b).heard = s.heard := rfl
@[simp] theorem State.putBlock_held (s : State) (n : Nat) (b : Block) : (s.putBlock n b).held = s.held := rfl
@[simp] theorem State.putBlock_signals (s : State) (n : Nat) (b : Block) : (s.putBlock n b).signals = s.signals := rfl
@[simp] theorem State.putBlock_verdicts (s : State) (n : Nat) (b : Block) : (s.putBlock n b).verdicts = s.verdicts := rfl
@[simp] theorem State.putBlock_moved (s : State) (n : Nat) (b : Block) : (s.putBlock n b).moved = s.moved := rfl
@[simp] theorem State.putBlock_sentSeq (s : State) (n : Nat) (b : Block) : (s.putBlock n b).sentSeq = s.sentSeq := rfl
@[simp] theorem State.putBlock_update (s : State) (n : Nat) (b : Block) : (s.putBlock n b).update = s.update := rfl
@[simp] theorem State.putBlock_imageA (s : State) (n : Nat) (b : Block) : (s.putBlock n b).imageA = s.imageA := rfl
@[simp] theorem State.putBlock_imageB (s : State) (n : Nat) (b : Block) : (s.putBlock n b).imageB = s.imageB := rfl
@[simp] theorem State.putBlock_rollback (s : State) (n : Nat) (b : Block) : (s.putBlock n b).rollback = s.rollback := rfl
@[simp] theorem State.putBlock_mailbox (s : State) (n : Nat) (b : Block) : (s.putBlock n b).mailbox = s.mailbox := rfl
@[simp] theorem State.putBlock_hostReply (s : State) (n : Nat) (b : Block) : (s.putBlock n b).hostReply = s.hostReply := rfl
@[simp] theorem State.putBlock_transfer (s : State) (n : Nat) (b : Block) : (s.putBlock n b).transfer = s.transfer := rfl
@[simp] theorem State.putBlock_spdm (s : State) (n : Nat) (b : Block) : (s.putBlock n b).spdm = s.spdm := rfl
@[simp] theorem State.putBlock_health (s : State) (n : Nat) (b : Block) : (s.putBlock n b).health = s.health := rfl

@[simp] theorem State.putQuad_agenda (s : State) (q : Nat) (x : Quad) : (s.putQuad q x).agenda = s.agenda := rfl
@[simp] theorem State.putQuad_detail (s : State) (q : Nat) (x : Quad) : (s.putQuad q x).detail = s.detail := rfl
@[simp] theorem State.putQuad_actor (s : State) (q : Nat) (x : Quad) : (s.putQuad q x).actor = s.actor := rfl
@[simp] theorem State.putQuad_turn (s : State) (q : Nat) (x : Quad) : (s.putQuad q x).turn = s.turn := rfl
@[simp] theorem State.putQuad_fresh (s : State) (q : Nat) (x : Quad) : (s.putQuad q x).fresh = s.fresh := rfl
@[simp] theorem State.putQuad_serial (s : State) (q : Nat) (x : Quad) : (s.putQuad q x).serial = s.serial := rfl
@[simp] theorem State.putQuad_clock (s : State) (q : Nat) (x : Quad) : (s.putQuad q x).clock = s.clock := rfl
@[simp] theorem State.putQuad_teams (s : State) (q : Nat) (x : Quad) : (s.putQuad q x).teams = s.teams := rfl
@[simp] theorem State.putQuad_cores (s : State) (q : Nat) (x : Quad) : (s.putQuad q x).cores = s.cores := rfl
@[simp] theorem State.putQuad_blocks (s : State) (q : Nat) (x : Quad) : (s.putQuad q x).blocks = s.blocks := rfl
@[simp] theorem State.putQuad_tlb (s : State) (q : Nat) (x : Quad) : (s.putQuad q x).tlb = s.tlb := rfl
@[simp] theorem State.putQuad_ctxs (s : State) (q : Nat) (x : Quad) : (s.putQuad q x).ctxs = s.ctxs := rfl
@[simp] theorem State.putQuad_parts (s : State) (q : Nat) (x : Quad) : (s.putQuad q x).parts = s.parts := rfl
@[simp] theorem State.putQuad_cellars (s : State) (q : Nat) (x : Quad) : (s.putQuad q x).cellars = s.cellars := rfl
@[simp] theorem State.putQuad_mem (s : State) (q : Nat) (x : Quad) : (s.putQuad q x).mem = s.mem := rfl
@[simp] theorem State.putQuad_descs (s : State) (q : Nat) (x : Quad) : (s.putQuad q x).descs = s.descs := rfl
@[simp] theorem State.putQuad_bad (s : State) (q : Nat) (x : Quad) : (s.putQuad q x).bad = s.bad := rfl
@[simp] theorem State.putQuad_keyTags (s : State) (q : Nat) (x : Quad) : (s.putQuad q x).keyTags = s.keyTags := rfl
@[simp] theorem State.putQuad_owners (s : State) (q : Nat) (x : Quad) : (s.putQuad q x).owners = s.owners := rfl
@[simp] theorem State.putQuad_pgown (s : State) (q : Nat) (x : Quad) : (s.putQuad q x).pgown = s.pgown := rfl
@[simp] theorem State.putQuad_flights (s : State) (q : Nat) (x : Quad) : (s.putQuad q x).flights = s.flights := rfl
@[simp] theorem State.putQuad_pendings (s : State) (q : Nat) (x : Quad) : (s.putQuad q x).pendings = s.pendings := rfl
@[simp] theorem State.putQuad_ops (s : State) (q : Nat) (x : Quad) : (s.putQuad q x).ops = s.ops := rfl
@[simp] theorem State.putQuad_misses (s : State) (q : Nat) (x : Quad) : (s.putQuad q x).misses = s.misses := rfl
@[simp] theorem State.putQuad_evq (s : State) (q : Nat) (x : Quad) : (s.putQuad q x).evq = s.evq := rfl
@[simp] theorem State.putQuad_slots (s : State) (q : Nat) (x : Quad) : (s.putQuad q x).slots = s.slots := rfl
@[simp] theorem State.putQuad_lastThread (s : State) (q : Nat) (x : Quad) : (s.putQuad q x).lastThread = s.lastThread := rfl
@[simp] theorem State.putQuad_syssel (s : State) (q : Nat) (x : Quad) : (s.putQuad q x).syssel = s.syssel := rfl
@[simp] theorem State.putQuad_lqsel (s : State) (q : Nat) (x : Quad) : (s.putQuad q x).lqsel = s.lqsel := rfl
@[simp] theorem State.putQuad_digests (s : State) (q : Nat) (x : Quad) : (s.putQuad q x).digests = s.digests := rfl
@[simp] theorem State.putQuad_launches (s : State) (q : Nat) (x : Quad) : (s.putQuad q x).launches = s.launches := rfl
@[simp] theorem State.putQuad_lease (s : State) (q : Nat) (x : Quad) : (s.putQuad q x).lease = s.lease := rfl
@[simp] theorem State.putQuad_links (s : State) (q : Nat) (x : Quad) : (s.putQuad q x).links = s.links := rfl
@[simp] theorem State.putQuad_fabto (s : State) (q : Nat) (x : Quad) : (s.putQuad q x).fabto = s.fabto := rfl
@[simp] theorem State.putQuad_linkrt (s : State) (q : Nat) (x : Quad) : (s.putQuad q x).linkrt = s.linkrt := rfl
@[simp] theorem State.putQuad_fabreplay (s : State) (q : Nat) (x : Quad) : (s.putQuad q x).fabreplay = s.fabreplay := rfl
@[simp] theorem State.putQuad_pkgnum (s : State) (q : Nat) (x : Quad) : (s.putQuad q x).pkgnum = s.pkgnum := rfl
@[simp] theorem State.putQuad_pbeat (s : State) (q : Nat) (x : Quad) : (s.putQuad q x).pbeat = s.pbeat := rfl
@[simp] theorem State.putQuad_beatAt (s : State) (q : Nat) (x : Quad) : (s.putQuad q x).beatAt = s.beatAt := rfl
@[simp] theorem State.putQuad_cscoll (s : State) (q : Nat) (x : Quad) : (s.putQuad q x).cscoll = s.cscoll := rfl
@[simp] theorem State.putQuad_messages (s : State) (q : Nat) (x : Quad) : (s.putQuad q x).messages = s.messages := rfl
@[simp] theorem State.putQuad_heard (s : State) (q : Nat) (x : Quad) : (s.putQuad q x).heard = s.heard := rfl
@[simp] theorem State.putQuad_held (s : State) (q : Nat) (x : Quad) : (s.putQuad q x).held = s.held := rfl
@[simp] theorem State.putQuad_signals (s : State) (q : Nat) (x : Quad) : (s.putQuad q x).signals = s.signals := rfl
@[simp] theorem State.putQuad_verdicts (s : State) (q : Nat) (x : Quad) : (s.putQuad q x).verdicts = s.verdicts := rfl
@[simp] theorem State.putQuad_moved (s : State) (q : Nat) (x : Quad) : (s.putQuad q x).moved = s.moved := rfl
@[simp] theorem State.putQuad_sentSeq (s : State) (q : Nat) (x : Quad) : (s.putQuad q x).sentSeq = s.sentSeq := rfl
@[simp] theorem State.putQuad_update (s : State) (q : Nat) (x : Quad) : (s.putQuad q x).update = s.update := rfl
@[simp] theorem State.putQuad_imageA (s : State) (q : Nat) (x : Quad) : (s.putQuad q x).imageA = s.imageA := rfl
@[simp] theorem State.putQuad_imageB (s : State) (q : Nat) (x : Quad) : (s.putQuad q x).imageB = s.imageB := rfl
@[simp] theorem State.putQuad_rollback (s : State) (q : Nat) (x : Quad) : (s.putQuad q x).rollback = s.rollback := rfl
@[simp] theorem State.putQuad_mailbox (s : State) (q : Nat) (x : Quad) : (s.putQuad q x).mailbox = s.mailbox := rfl
@[simp] theorem State.putQuad_hostReply (s : State) (q : Nat) (x : Quad) : (s.putQuad q x).hostReply = s.hostReply := rfl
@[simp] theorem State.putQuad_transfer (s : State) (q : Nat) (x : Quad) : (s.putQuad q x).transfer = s.transfer := rfl
@[simp] theorem State.putQuad_spdm (s : State) (q : Nat) (x : Quad) : (s.putQuad q x).spdm = s.spdm := rfl
@[simp] theorem State.putQuad_health (s : State) (q : Nat) (x : Quad) : (s.putQuad q x).health = s.health := rfl

@[simp] theorem State.putPart_agenda (s : State) (p : Nat) (x : Partition) : (s.putPart p x).agenda = s.agenda := rfl
@[simp] theorem State.putPart_detail (s : State) (p : Nat) (x : Partition) : (s.putPart p x).detail = s.detail := rfl
@[simp] theorem State.putPart_actor (s : State) (p : Nat) (x : Partition) : (s.putPart p x).actor = s.actor := rfl
@[simp] theorem State.putPart_turn (s : State) (p : Nat) (x : Partition) : (s.putPart p x).turn = s.turn := rfl
@[simp] theorem State.putPart_fresh (s : State) (p : Nat) (x : Partition) : (s.putPart p x).fresh = s.fresh := rfl
@[simp] theorem State.putPart_serial (s : State) (p : Nat) (x : Partition) : (s.putPart p x).serial = s.serial := rfl
@[simp] theorem State.putPart_clock (s : State) (p : Nat) (x : Partition) : (s.putPart p x).clock = s.clock := rfl
@[simp] theorem State.putPart_teams (s : State) (p : Nat) (x : Partition) : (s.putPart p x).teams = s.teams := rfl
@[simp] theorem State.putPart_cores (s : State) (p : Nat) (x : Partition) : (s.putPart p x).cores = s.cores := rfl
@[simp] theorem State.putPart_blocks (s : State) (p : Nat) (x : Partition) : (s.putPart p x).blocks = s.blocks := rfl
@[simp] theorem State.putPart_quads (s : State) (p : Nat) (x : Partition) : (s.putPart p x).quads = s.quads := rfl
@[simp] theorem State.putPart_tlb (s : State) (p : Nat) (x : Partition) : (s.putPart p x).tlb = s.tlb := rfl
@[simp] theorem State.putPart_ctxs (s : State) (p : Nat) (x : Partition) : (s.putPart p x).ctxs = s.ctxs := rfl
@[simp] theorem State.putPart_cellars (s : State) (p : Nat) (x : Partition) : (s.putPart p x).cellars = s.cellars := rfl
@[simp] theorem State.putPart_mem (s : State) (p : Nat) (x : Partition) : (s.putPart p x).mem = s.mem := rfl
@[simp] theorem State.putPart_descs (s : State) (p : Nat) (x : Partition) : (s.putPart p x).descs = s.descs := rfl
@[simp] theorem State.putPart_bad (s : State) (p : Nat) (x : Partition) : (s.putPart p x).bad = s.bad := rfl
@[simp] theorem State.putPart_keyTags (s : State) (p : Nat) (x : Partition) : (s.putPart p x).keyTags = s.keyTags := rfl
@[simp] theorem State.putPart_owners (s : State) (p : Nat) (x : Partition) : (s.putPart p x).owners = s.owners := rfl
@[simp] theorem State.putPart_pgown (s : State) (p : Nat) (x : Partition) : (s.putPart p x).pgown = s.pgown := rfl
@[simp] theorem State.putPart_flights (s : State) (p : Nat) (x : Partition) : (s.putPart p x).flights = s.flights := rfl
@[simp] theorem State.putPart_pendings (s : State) (p : Nat) (x : Partition) : (s.putPart p x).pendings = s.pendings := rfl
@[simp] theorem State.putPart_ops (s : State) (p : Nat) (x : Partition) : (s.putPart p x).ops = s.ops := rfl
@[simp] theorem State.putPart_misses (s : State) (p : Nat) (x : Partition) : (s.putPart p x).misses = s.misses := rfl
@[simp] theorem State.putPart_evq (s : State) (p : Nat) (x : Partition) : (s.putPart p x).evq = s.evq := rfl
@[simp] theorem State.putPart_slots (s : State) (p : Nat) (x : Partition) : (s.putPart p x).slots = s.slots := rfl
@[simp] theorem State.putPart_lastThread (s : State) (p : Nat) (x : Partition) : (s.putPart p x).lastThread = s.lastThread := rfl
@[simp] theorem State.putPart_syssel (s : State) (p : Nat) (x : Partition) : (s.putPart p x).syssel = s.syssel := rfl
@[simp] theorem State.putPart_lqsel (s : State) (p : Nat) (x : Partition) : (s.putPart p x).lqsel = s.lqsel := rfl
@[simp] theorem State.putPart_digests (s : State) (p : Nat) (x : Partition) : (s.putPart p x).digests = s.digests := rfl
@[simp] theorem State.putPart_launches (s : State) (p : Nat) (x : Partition) : (s.putPart p x).launches = s.launches := rfl
@[simp] theorem State.putPart_lease (s : State) (p : Nat) (x : Partition) : (s.putPart p x).lease = s.lease := rfl
@[simp] theorem State.putPart_links (s : State) (p : Nat) (x : Partition) : (s.putPart p x).links = s.links := rfl
@[simp] theorem State.putPart_fabto (s : State) (p : Nat) (x : Partition) : (s.putPart p x).fabto = s.fabto := rfl
@[simp] theorem State.putPart_linkrt (s : State) (p : Nat) (x : Partition) : (s.putPart p x).linkrt = s.linkrt := rfl
@[simp] theorem State.putPart_fabreplay (s : State) (p : Nat) (x : Partition) : (s.putPart p x).fabreplay = s.fabreplay := rfl
@[simp] theorem State.putPart_pkgnum (s : State) (p : Nat) (x : Partition) : (s.putPart p x).pkgnum = s.pkgnum := rfl
@[simp] theorem State.putPart_pbeat (s : State) (p : Nat) (x : Partition) : (s.putPart p x).pbeat = s.pbeat := rfl
@[simp] theorem State.putPart_beatAt (s : State) (p : Nat) (x : Partition) : (s.putPart p x).beatAt = s.beatAt := rfl
@[simp] theorem State.putPart_cscoll (s : State) (p : Nat) (x : Partition) : (s.putPart p x).cscoll = s.cscoll := rfl
@[simp] theorem State.putPart_messages (s : State) (p : Nat) (x : Partition) : (s.putPart p x).messages = s.messages := rfl
@[simp] theorem State.putPart_heard (s : State) (p : Nat) (x : Partition) : (s.putPart p x).heard = s.heard := rfl
@[simp] theorem State.putPart_held (s : State) (p : Nat) (x : Partition) : (s.putPart p x).held = s.held := rfl
@[simp] theorem State.putPart_signals (s : State) (p : Nat) (x : Partition) : (s.putPart p x).signals = s.signals := rfl
@[simp] theorem State.putPart_verdicts (s : State) (p : Nat) (x : Partition) : (s.putPart p x).verdicts = s.verdicts := rfl
@[simp] theorem State.putPart_moved (s : State) (p : Nat) (x : Partition) : (s.putPart p x).moved = s.moved := rfl
@[simp] theorem State.putPart_sentSeq (s : State) (p : Nat) (x : Partition) : (s.putPart p x).sentSeq = s.sentSeq := rfl
@[simp] theorem State.putPart_update (s : State) (p : Nat) (x : Partition) : (s.putPart p x).update = s.update := rfl
@[simp] theorem State.putPart_imageA (s : State) (p : Nat) (x : Partition) : (s.putPart p x).imageA = s.imageA := rfl
@[simp] theorem State.putPart_imageB (s : State) (p : Nat) (x : Partition) : (s.putPart p x).imageB = s.imageB := rfl
@[simp] theorem State.putPart_rollback (s : State) (p : Nat) (x : Partition) : (s.putPart p x).rollback = s.rollback := rfl
@[simp] theorem State.putPart_mailbox (s : State) (p : Nat) (x : Partition) : (s.putPart p x).mailbox = s.mailbox := rfl
@[simp] theorem State.putPart_hostReply (s : State) (p : Nat) (x : Partition) : (s.putPart p x).hostReply = s.hostReply := rfl
@[simp] theorem State.putPart_transfer (s : State) (p : Nat) (x : Partition) : (s.putPart p x).transfer = s.transfer := rfl
@[simp] theorem State.putPart_spdm (s : State) (p : Nat) (x : Partition) : (s.putPart p x).spdm = s.spdm := rfl
@[simp] theorem State.putPart_health (s : State) (p : Nat) (x : Partition) : (s.putPart p x).health = s.health := rfl

end Sys2Proof.Machine
end

