-- ==== Sys2Proof/Laws/Table.lean ====
section
/-! SUPPORT. Laws of sparse tables: reading after a write, and the canonical form. -/

namespace Sys2Proof.Machine

variable {α : Type}

@[simp] theorem Table.find?_nil (n : Nat) : Table.find? ([] : Table α) n = none := rfl

theorem Table.find?_put (t : Table α) (n : Nat) (a : α) : Table.find? (Table.put t n a) n = some a := by
  induction t with
  | nil => simp [Table.put, Table.find?]
  | cons e t ih =>
    obtain ⟨k, b⟩ := e
    unfold Table.put
    by_cases h1 : k = n
    · simp [h1, Table.find?]
    · by_cases h2 : n < k
      · simp [h1, h2, Table.find?]
      · simp [h1, h2, Table.find?, ih]

theorem Table.find?_put_ne (t : Table α) {n m : Nat} (a : α) (h : m ≠ n) :
    Table.find? (Table.put t n a) m = Table.find? t m := by
  induction t with
  | nil => simp [Table.put, Table.find?, Ne.symm h]
  | cons e t ih =>
    obtain ⟨k, b⟩ := e
    unfold Table.put
    by_cases h1 : k = n
    · subst h1; simp [Table.find?, Ne.symm h]
    · by_cases h2 : n < k
      · simp [h1, h2]
        by_cases h3 : m < n
        · simp [Table.find?, Ne.symm h, h3, show ¬ k = m by omega, show m < k by omega]
        · simp [Table.find?, Ne.symm h, h3]
      · simp [h1, h2, Table.find?, ih]

theorem Table.find?_put_eq (t : Table α) (n m : Nat) (a : α) :
    Table.find? (Table.put t n a) m = if m = n then some a else Table.find? t m := by
  by_cases h : m = n
  · subst h; simp [Table.find?_put]
  · simp [h, Table.find?_put_ne]

@[simp] theorem Table.getD_put (t : Table α) (n : Nat) (a d : α) : Table.getD (Table.put t n a) n d = a := by
  simp [Table.getD, Table.find?_put]

theorem Table.getD_put_ne (t : Table α) {n m : Nat} (a d : α) (h : m ≠ n) :
    Table.getD (Table.put t n a) m d = Table.getD t m d := by
  simp [Table.getD, Table.find?_put_ne t a h]

theorem Table.find?_mapVals (t : Table α) (f : Nat → α → α) (n : Nat) :
    Table.find? (Table.mapVals t f) n = (Table.find? t n).map (f n) := by
  induction t with
  | nil => rfl
  | cons e t ih =>
    obtain ⟨k, b⟩ := e
    simp only [Table.mapVals, List.map_cons, Table.find?] at *
    by_cases h1 : k = n
    · subst h1; simp
    · by_cases h2 : n < k <;> simp [h1, h2, ih]

theorem Table.find?_adjust (t : Table α) (n m : Nat) (f : α → α) :
    Table.find? (Table.adjust t n f) m = if m = n then (Table.find? t n).map f else Table.find? t m := by
  unfold Table.adjust
  cases h : Table.find? t n with
  | none => by_cases hm : m = n <;> simp [hm, h]
  | some a => simp [Table.find?_put_eq]

/-- Every key of a table is at least n. -/
def Table.from (n : Nat) (t : Table α) : Prop := ∀ e ∈ t, n < e.1

theorem Table.wf_cons {k : Nat} {a : α} {t : Table α} :
    Table.wf ((k, a) :: t) = true ↔ Table.from k t ∧ Table.wf t = true := by
  induction t generalizing k a with
  | nil => simp [Table.wf, Table.from]
  | cons e t ih =>
    obtain ⟨j, b⟩ := e
    simp only [Table.wf, Bool.and_eq_true, Nat.blt_eq]
    constructor
    · rintro ⟨h, hw⟩
      refine ⟨?_, hw⟩
      intro e he
      rcases List.mem_cons.1 he with rfl | he
      · exact h
      · exact Nat.lt_trans h ((ih.1 hw).1 e he)
    · rintro ⟨h, hw⟩
      exact ⟨h (j, b) (by simp), hw⟩

theorem Table.find?_none_of_from {n m : Nat} {t : Table α} (h : Table.from n t) (hm : m ≤ n) :
    Table.find? t m = none := by
  cases t with
  | nil => rfl
  | cons e t =>
    obtain ⟨k, a⟩ := e
    have hk : n < k := h (k, a) (by simp)
    simp [Table.find?, show ¬ k = m by omega, show m < k by omega]

theorem Table.mem_put {t : Table α} {n : Nat} {a : α} {e : Nat × α} (h : e ∈ Table.put t n a) : e = (n, a) ∨ e ∈ t := by
  induction t with
  | nil => simpa [Table.put] using h
  | cons x t ih =>
    obtain ⟨k, b⟩ := x
    unfold Table.put at h
    split at h
    · rcases List.mem_cons.1 h with h | h <;> simp [h]
    · split at h
      · simpa using h
      · rcases List.mem_cons.1 h with h | h
        · simp [h]
        · rcases ih h with h | h <;> simp [h]

theorem Table.mem_del {t : Table α} {n : Nat} {e : Nat × α} (h : e ∈ Table.del t n) : e ∈ t := by
  induction t with
  | nil => simp [Table.del] at h
  | cons x t ih =>
    obtain ⟨k, b⟩ := x
    unfold Table.del at h
    split at h
    · exact List.mem_cons_of_mem _ h
    · split at h
      · exact h
      · rcases List.mem_cons.1 h with h | h
        · simp [h]
        · exact List.mem_cons_of_mem _ (ih h)

theorem Table.wf_put {t : Table α} (h : Table.wf t = true) (n : Nat) (a : α) : Table.wf (Table.put t n a) = true := by
  induction t with
  | nil => rfl
  | cons e t ih =>
    obtain ⟨k, b⟩ := e
    obtain ⟨h1, h2⟩ := Table.wf_cons.1 h
    unfold Table.put
    by_cases hk : k = n
    · subst hk; simpa using Table.wf_cons.2 ⟨h1, h2⟩
    · by_cases hn : n < k
      · simp only [beq_iff_eq, hk, hn, Nat.blt_eq, if_true, if_false]
        refine Table.wf_cons.2 ⟨?_, h⟩
        intro e he
        rcases List.mem_cons.1 he with rfl | he
        · exact hn
        · exact Nat.lt_trans hn (h1 e he)
      · simp only [beq_iff_eq, hk, hn, Nat.blt_eq, if_false]
        refine Table.wf_cons.2 ⟨?_, ih h2⟩
        intro e he
        rcases Table.mem_put he with rfl | he
        · show k < n
          omega
        · exact h1 e he

theorem Table.wf_del {t : Table α} (h : Table.wf t = true) (n : Nat) : Table.wf (Table.del t n) = true := by
  induction t with
  | nil => rfl
  | cons e t ih =>
    obtain ⟨k, b⟩ := e
    obtain ⟨h1, h2⟩ := Table.wf_cons.1 h
    unfold Table.del
    split
    · exact h2
    · split
      · exact h
      · exact Table.wf_cons.2 ⟨fun e he => h1 e (Table.mem_del he), ih h2⟩

theorem Table.find?_del {t : Table α} (h : Table.wf t = true) (n m : Nat) :
    Table.find? (Table.del t n) m = if m = n then none else Table.find? t m := by
  induction t with
  | nil => simp [Table.del, Table.find?]
  | cons e t ih =>
    obtain ⟨k, b⟩ := e
    obtain ⟨h1, h2⟩ := Table.wf_cons.1 h
    unfold Table.del
    by_cases hk : k = n
    · subst hk
      by_cases hm : m = k
      · subst hm; simp [Table.find?_none_of_from h1 (Nat.le_refl _)]
      · by_cases hl : m < k
        · simp [Table.find?, hm, Ne.symm hm, hl, Table.find?_none_of_from h1 (Nat.le_of_lt hl)]
        · simp [Table.find?, hm, Ne.symm hm, hl]
    · by_cases hn : n < k
      · by_cases hm : m = n
        · subst hm; simp [hk, hn, Table.find?]
        · simp [hk, hn, hm]
      · simp only [beq_iff_eq, hk, hn, Nat.blt_eq, if_false, Table.find?, ih h2]
        by_cases hm : m = n
        · subst hm; simp [hk, hn]
        · simp [hm]

end Sys2Proof.Machine
end

