-- ==== Sys2Proof/Laws/Ops.lean ====
section
/-! SUPPORT. What the shared operations of a meaning do: registers, completing an instruction, and the frame of a meaning. -/

namespace Sys2Proof.Machine

/-! ### Registers -/

theorem Team.s_zero (t : Team) : t.s 0 = 0 := by simp [Team.s]

theorem Team.setS_zero (t : Team) (w : Word) : t.setS 0 w = t := by simp [Team.setS]

theorem Team.setS_sr (t : Team) {r : BitVec 5} (h : r ≠ 0) (w : Word) : (t.setS r w).sr = Table.put t.sr r.toNat w := by
  unfold Team.setS
  rw [if_neg (by simpa using h)]

theorem Team.s_setS (t : Team) (r q : BitVec 5) (w : Word) :
    (t.setS r w).s q = if q = r ∧ r ≠ 0 then w else t.s q := by
  by_cases hr : r = 0
  · rw [hr, Team.setS_zero]; simp
  · unfold Team.s
    rw [Team.setS_sr t hr]
    by_cases hq : q = r
    · subst hq
      rw [if_neg (by simpa using hr), if_pos ⟨rfl, hr⟩, Table.getD_put]
    · have : q.toNat ≠ r.toNat := fun h => hq (BitVec.eq_of_toNat_eq h)
      rw [Table.getD_put_ne _ _ _ this]
      simp [hq]

theorem Team.setS_eq (t : Team) (r : BitVec 5) (w : Word) : t.setS r w = { t with sr := (t.setS r w).sr } := by
  unfold Team.setS; split <;> rfl

/-! ### Finding teams and cores after an update -/

theorem State.team?_putTeam (s : State) (k j : Nat) (t : Team) :
    (s.putTeam k t).team? j = if j = k then some t else s.team? j := Table.find?_put_eq _ _ _ _

theorem State.team?_modTeam (s : State) (k j : Nat) (f : Team → Team) :
    (s.modTeam k f).team? j = if j = k then (s.team? k).map f else s.team? j := Table.find?_adjust _ _ _ _

@[simp] theorem State.team?_putCore (s : State) (c j : Nat) (x : Core) : (s.putCore c x).team? j = s.team? j := rfl

theorem State.core_putCore (s : State) (c d : Nat) (x : Core) :
    (s.putCore c x).core d = if d = c then x else s.core d := by
  by_cases h : d = c
  · subst h; simp [State.core, State.putCore]
  · simp [State.core, State.putCore, h, Table.getD_put_ne]

@[simp] theorem State.core_putTeam (s : State) (k c : Nat) (t : Team) : (s.putTeam k t).core c = s.core c := rfl
@[simp] theorem State.core_modTeam (s : State) (k c : Nat) (f : Team → Team) : (s.modTeam k f).core c = s.core c := rfl

/-! ### Changes that only concern issue -/

/-- Teams up to a view, cores up to another, and nothing else. -/
structure Quiet (v : Team → Team) (view : Core → Core) (s s' : State) : Prop where
  teams : ∀ j, (s'.team? j).map v = (s.team? j).map v
  cores : ∀ c, view (s'.core c) = view (s.core c)
  rest : s' = { s with teams := s'.teams, cores := s'.cores }

theorem rest_trans {a b c : State} (h1 : b = { a with teams := b.teams, cores := b.cores })
    (h2 : c = { b with teams := c.teams, cores := c.cores }) : c = { a with teams := c.teams, cores := c.cores } := by
  generalize b.teams = x at h1
  generalize b.cores = y at h1
  subst h1
  exact h2

theorem Quiet.refl (v : Team → Team) (view : Core → Core) (s : State) : Quiet v view s s := ⟨fun _ => rfl, fun _ => rfl, rfl⟩

theorem Quiet.trans {v : Team → Team} {view : Core → Core} {a b c : State} (h : Quiet v view a b) (g : Quiet v view b c) :
    Quiet v view a c :=
  ⟨fun j => (g.teams j).trans (h.teams j), fun n => (g.cores n).trans (h.cores n), rest_trans h.rest g.rest⟩

theorem quiet_modTeam {v : Team → Team} {view : Core → Core} (s : State) (k : Nat) (f : Team → Team)
    (h : ∀ t, v (f t) = v t) : Quiet v view s (s.modTeam k f) :=
  ⟨fun j => by
    rw [State.team?_modTeam]
    by_cases hj : j = k
    · subst hj; simp [Option.map_map, Function.comp_def, h]
    · simp [hj], fun _ => rfl, rfl⟩

theorem quiet_putCore {v : Team → Team} {view : Core → Core} (s : State) (c : Nat) (x : Core)
    (h : view x = view (s.core c)) : Quiet v view s (s.putCore c x) :=
  ⟨fun _ => rfl, fun d => by
    rw [State.core_putCore]
    by_cases hd : d = c
    · subst hd; simp [h]
    · simp [hd], rfl⟩

@[simp] theorem Core.still_setRun (x : Core) (a : Bool) (k : Option Nat) (n : Nat) : (x.setRun a k n).still = x.still := by
  cases a <;> rfl

theorem quiet_endRun (s : State) (c : Nat) (a : Bool) : Quiet Team.unstamped Core.still s (s.endRun c a) := by
  unfold State.endRun
  split
  · refine (quiet_modTeam s _ _ ?_).trans (quiet_putCore _ _ _ (Core.still_setRun _ _ _ _))
    intro t; rfl
  · exact Quiet.refl _ _ _

theorem quiet_endOwnRun (s : State) (k : Nat) : Quiet Team.unstamped Core.still s (s.endOwnRun k) := by
  unfold State.endOwnRun
  split
  · exact quiet_endRun _ _ _
  · exact Quiet.refl _ _ _

theorem quiet_beginRun (s : State) (k : Nat) : Quiet Team.unstamped Core.still s (s.beginRun k) := by
  unfold State.beginRun
  dsimp only
  split
  · exact Quiet.refl _ _ _
  · exact (quiet_endRun s _ _).trans (quiet_putCore _ _ _ (Core.still_setRun _ _ _ _))

theorem quiet_countIssue (s : State) (k : Nat) : Quiet Team.unstamped Core.still s (s.countIssue k) := by
  unfold State.countIssue
  split
  · exact Quiet.refl _ _ _
  · exact (quiet_beginRun s k).trans (quiet_putCore _ _ _ (Core.still_setRun _ _ _ _))

/-- A view that sees less. -/
theorem Quiet.mono {v w : Team → Team} {view wiew : Core → Core} {s s' : State} (h : Quiet v view s s')
    (hv : ∀ a b : Team, v a = v b → w a = w b) (hc : ∀ a b : Core, view a = view b → wiew a = wiew b) :
    Quiet w wiew s s' :=
  ⟨fun j => by
    have hj := h.teams j
    revert hj
    cases s'.team? j <;> cases s.team? j <;> simp
    exact hv _ _, fun c => hc _ _ (h.cores c), h.rest⟩

theorem Team.timeless_of_unstamped (a b : Team) (h : a.unstamped = b.unstamped) : a.timeless = b.timeless := by
  have : ∀ t : Team, t.timeless = { t.unstamped with yielded := false } := fun _ => rfl
  rw [this, this, h]

theorem Core.stillReuse_of_still (a b : Core) (h : a.still = b.still) : a.stillReuse = b.stillReuse := by
  have : ∀ x : Core, x.stillReuse = { x.still with reuse := [], ruhits := 0, rulook := 0, slices := [], names := [], nextSlice := 0 } := fun _ => rfl
  rw [this, this, h]

/-- Counting an issue changes teams by their stamps and the end of a YIELD only. -/
theorem issued_quiet (s : State) (k : Nat) (t : Team) (i : Instr) :
    Quiet Team.timeless Core.still s (s.issued k t i) ∧
      ∀ j, j ≠ k → ((s.issued k t i).team? j).map Team.unstamped = (s.team? j).map Team.unstamped := by
  unfold State.issued
  split
  · exact ⟨Quiet.refl _ _ _, fun _ _ => rfl⟩
  · have h0 := quiet_countIssue s k
    have hb := quiet_beginRun s k
    have up : ∀ {a b : State}, Quiet Team.unstamped Core.still a b → Quiet Team.timeless Core.still a b :=
      fun h => h.mono Team.timeless_of_unstamped fun _ _ h => h
    split
    · exact ⟨up hb, fun j _ => hb.teams j⟩
    split
    · have h1 : Quiet Team.timeless Core.still (s.countIssue k)
          ((s.countIssue k).modTeam k fun t => { t with yielded := false }) := quiet_modTeam _ _ _ fun _ => rfl
      have h2 := quiet_endRun ((s.countIssue k).modTeam k fun t => { t with yielded := false }) (coreOf k) (t.role == .loader)
      refine ⟨(up h0).trans (h1.trans (up h2)), fun j hj => ?_⟩
      rw [h2.teams j, State.team?_modTeam, if_neg hj, h0.teams j]
    · exact ⟨up h0, fun j _ => h0.teams j⟩

theorem Quiet.memory {v : Team → Team} {view : Core → Core} {s s' : State} (h : Quiet v view s s') : SameMemory s s' := by
  intro a
  rw [h.rest]
  rfl

/-- What completing an instruction does: the issuer goes past the word, and beyond that only issue is counted. -/
theorem finish_spec (s : State) (k : Nat) (i : Instr) (u : Team) (h : s.team? k = some u) :
    ((s.finish k i).team? k).map Team.timeless = some (u.advance (chainBit i) (wordsOf i)).timeless ∧
      OnlyTeam Core.still k s (s.finish k i) := by
  have e : s.finish k i = (s.putTeam k (u.advance (chainBit i) (wordsOf i))).issued k u i := by simp [State.finish, h]
  obtain ⟨q, o⟩ := issued_quiet (s.putTeam k (u.advance (chainBit i) (wordsOf i))) k u i
  rw [← e] at q o
  refine ⟨by rw [q.teams k, State.team?_putTeam]; simp, fun j hj => ?_, q.cores, ?_, ?_⟩
  · rw [o j hj, State.team?_putTeam, if_neg hj]
  · have hr := q.rest
    simpa [State.putTeam] using hr
  · intro a
    exact q.memory a

/-- A run that ends beside it changes nothing more that the claims look at. -/
theorem OnlyTeam.endOwnRun {k : Nat} {s s' : State} (h : OnlyTeam Core.still k s s') : OnlyTeam Core.still k s (s'.endOwnRun k) := by
  have q := quiet_endOwnRun s' k
  exact ⟨fun j hj => (q.teams j).trans (h.others j hj), fun c => (q.cores c).trans (h.cores c), rest_trans h.rest q.rest,
    fun a => (q.memory a).trans (h.memory a)⟩

theorem endOwnRun_timeless (s : State) (k j : Nat) :
    ((s.endOwnRun k).team? j).map Team.timeless = (s.team? j).map Team.timeless :=
  ((quiet_endOwnRun s k).mono Team.timeless_of_unstamped fun _ _ h => h).teams j

/-- The same with the end of a run that the instruction may bring (R95). -/
theorem complete_spec (s : State) (k : Nat) (t : Team) (i : Instr) (u : Team) (h : s.team? k = some u) :
    ((s.complete k t i).team? k).map Team.timeless = some (u.advance (chainBit i) (wordsOf i)).timeless ∧
      OnlyTeam Core.still k s (s.complete k t i) := by
  obtain ⟨a, b⟩ := finish_spec s k i u h
  unfold State.complete
  split
  · exact ⟨(endOwnRun_timeless _ _ _).trans a, b.endOwnRun⟩
  · exact ⟨a, b⟩

/-- The same for a transfer of control. -/
theorem jump_spec (s : State) (k : Nat) (i : Instr) (t u : Team) (pc : Word) (h : s.team? k = some u) :
    ((((s.modTeam k fun x => x.transfer pc).issued k t i).endOwnRun k).team? k).map Team.timeless = some (u.transfer pc).timeless ∧
      OnlyTeam Core.still k s (((s.modTeam k fun x => x.transfer pc).issued k t i).endOwnRun k) := by
  obtain ⟨q, o⟩ := issued_quiet (s.modTeam k fun x => x.transfer pc) k t i
  rw [endOwnRun_timeless]
  suffices g : ((((s.modTeam k fun x => x.transfer pc).issued k t i).team? k).map Team.timeless =
      some (u.transfer pc).timeless ∧ OnlyTeam Core.still k s ((s.modTeam k fun x => x.transfer pc).issued k t i)) from
    ⟨g.1, g.2.endOwnRun⟩
  refine ⟨by rw [q.teams k, State.team?_modTeam]; simp [h], fun j hj => ?_, q.cores, ?_, ?_⟩
  · rw [o j hj, State.team?_modTeam, if_neg hj]
  · simpa [State.modTeam] using q.rest
  · intro a
    exact q.memory a

/-- A ready instruction whose effect completes leaves the state that completing it gives. -/
theorem run_done {s : State} {k : Nat} {t : Team} {i : Instr} {e : Nat → Team → Did} {s' : State} (h : Ready s k t i)
    (he : e k t = .done s') : run i s e = .next (s'.complete k t i) := by
  obtain ⟨h1, h2, h3⟩ := h
  simp [run, h1, h2, h3, he]

/-- A ready instruction whose effect transfers control. -/
theorem run_jump {s : State} {k : Nat} {t : Team} {i : Instr} {e : Nat → Team → Did} {pc : Word} {s' : State}
    (h : Ready s k t i) (he : e k t = .jump pc s') :
    run i s e = .next (((s'.modTeam k fun u => u.transfer pc).issued k t i).endOwnRun k) := by
  obtain ⟨h1, h2, h3⟩ := h
  simp [run, h1, h2, h3, he]

/-- A ready instruction whose effect raises a cause. -/
theorem run_trap {s : State} {k : Nat} {t : Team} {i : Instr} {e : Nat → Team → Did} {c : Nat} {x : TrapInfo} {s' : State}
    (h : Ready s k t i) (he : e k t = .trap c x s') : run i s e = .next (s'.takeTrap k c x) := by
  obtain ⟨h1, h2, h3⟩ := h
  simp [run, h1, h2, h3, he]

/-- A ready instruction whose effect parks the team. -/
theorem run_park {s : State} {k : Nat} {t : Team} {i : Instr} {e : Nat → Team → Did} {w : Wait} {s' : State}
    (h : Ready s k t i) (he : e k t = .park w s') : run i s e = .next (s'.parkTeam k w) := by
  obtain ⟨h1, h2, h3⟩ := h
  simp [run, h1, h2, h3, he]

/-- A ready instruction whose effect leaves nothing for the issuer. -/
theorem run_over {s : State} {k : Nat} {t : Team} {i : Instr} {e : Nat → Team → Did} {s' : State}
    (h : Ready s k t i) (he : e k t = .quit s') : run i s e = .next s' := by
  obtain ⟨h1, h2, h3⟩ := h
  simp [run, h1, h2, h3, he]

/-- An instruction whose effect only changes its team completes. -/
theorem run_team {s : State} {k : Nat} {t u : Team} {i : Instr} {e : Nat → Team → Did} (h : Ready s k t i)
    (he : e k t = .done (s.putTeam k u)) : ∃ s', run i s e = .next s' ∧ Completed i k s s' u := by
  refine ⟨_, run_done h he, ?_⟩
  have hu : (s.putTeam k u).team? k = some u := by simp [State.team?_putTeam]
  obtain ⟨a, b⟩ := complete_spec (s.putTeam k u) k t i u hu
  refine ⟨a, fun j hj => ?_, b.cores, ?_, b.memory⟩
  · rw [b.others j hj, State.team?_putTeam, if_neg hj]
  · simpa [State.putTeam] using b.rest

/-- The same for a meaning that is written as a change of its team. -/
theorem run_change {s : State} {k : Nat} {t : Team} {i : Instr} {g : Nat → Team → Team} (h : Ready s k t i) :
    ∃ s', run i s (fun k t => .done (s.putTeam k (g k t))) = .next s' ∧ Completed i k s s' (g k t) := run_team h rfl

end Sys2Proof.Machine
end

