-- ==== Sys2Proof/Laws/Lanes.lean ====
section
/-! SUPPORT. What the passes of a vector form do. -/

namespace Sys2Proof.Machine

theorem rowsMask_getLsbD (lo l : Nat) (h : l < 1024) : (rowsMask lo 32).getLsbD l = decide (32 * lo ≤ l) := by
  unfold rowsMask
  by_cases hl : 32 ≤ lo
  · have : ¬ 32 * lo ≤ l := by omega
    simp [hl, this]
  · have e : (2 ^ (32 * (32 - lo)) - 1) * 2 ^ (32 * lo) < 2 ^ 1024 := by
      have h1 : 2 ^ (32 * (32 - lo)) * 2 ^ (32 * lo) = 2 ^ 1024 := by
        rw [← Nat.pow_add]; congr 1; omega
      have h2 : 0 < 2 ^ (32 * lo) := Nat.pow_pos (by decide)
      have h3 : 0 < 2 ^ (32 * (32 - lo)) := Nat.pow_pos (by decide)
      rw [Nat.sub_mul, h1, Nat.one_mul]
      have : 2 ^ (32 * lo) ≤ 2 ^ 1024 := Nat.pow_le_pow_right (by decide) (by omega)
      omega
    have hb : ¬ (Nat.ble 32 lo = true) := by simp [hl]
    rw [if_neg hb, BitVec.getLsbD_ofNat]
    simp only [h, decide_true, Bool.true_and]
    rw [Nat.mul_comm, Nat.testBit_two_pow_mul, Nat.testBit_two_pow_sub_one]
    by_cases hx : 32 * lo ≤ l
    · have : l - 32 * lo < 32 * (32 - lo) := by omega
      simp [hx, this]
    · simp [hx]

/-- The lanes that a mask keeps from a mask word on. -/
theorem and_rowsMask (m : Mask) (lo l : Nat) :
    (m &&& rowsMask lo 32).getLsbD l = (m.getLsbD l && decide (32 * lo ≤ l)) := by
  by_cases h : l < 1024
  · simp [rowsMask_getLsbD lo l h]
  · have : m.getLsbD l = false := BitVec.getLsbD_of_ge _ _ (by omega)
    simp [this]

theorem Team.vreg_put (t : Team) (d r : Nat) (x : Lanes) :
    ({ t with v := Table.put t.v d x } : Team).vreg r = if r = d then x else t.vreg r := by
  by_cases h : r = d
  · subst h; simp [Team.vreg]
  · simp [Team.vreg, h, Table.getD_put_ne]

theorem Team.lane_setLanes (t : Team) (d l : Nat) (m : Mask) (f : Nat → Word) (h : l < t.width) :
    (t.setLanes d m f).lane d l = if m.getLsbD l then f l else t.lane d l := by
  unfold Team.setLanes
  simp only [Team.lane, Team.vreg, Table.getD_put]
  rw [List.getD_eq_getElem?_getD, List.getElem?_map, List.getElem?_range h]
  rfl

theorem flagsOf_getLsbD (m : Mask) (w b : Nat) (f : Nat → BitVec 6) :
    (flagsOf m w f).getLsbD b = (List.range w).any fun l => m.getLsbD l && (f l).getLsbD b := by
  have gen : ∀ (ls : List Nat) (a : BitVec 6), (ls.foldl (fun a l => a ||| f l) a).getLsbD b =
      (a.getLsbD b || ls.any fun l => (f l).getLsbD b) := by
    intro ls
    induction ls with
    | nil => simp
    | cons x ls ih => intro a; simp [ih, Bool.or_assoc]
  unfold flagsOf lanesOf
  rw [gen]
  simp [List.any_filter]

theorem rowBits_and (m : Mask) (lo row : Nat) :
    (rowBits (m &&& rowsMask lo 32) row == BitVec.allOnes 32) = (rowBits m row == BitVec.allOnes 32 && Nat.ble lo row) := by
  have key : ∀ x : Mask, rowBits x row = BitVec.allOnes 32 ↔ ∀ i, i < 32 → x.getLsbD (32 * row + i) = true := by
    intro x
    constructor
    · intro h i hi
      have := congrArg (fun y => y.getLsbD i) h
      rw [BitVec.getLsbD_allOnes] at this
      simpa [rowBits, hi] using this
    · intro h
      apply BitVec.eq_of_getLsbD_eq
      intro i hi
      rw [BitVec.getLsbD_allOnes]
      simp [rowBits, hi, h i hi]
  rw [Bool.eq_iff_iff]
  simp only [beq_iff_eq, Bool.and_eq_true, key, and_rowsMask, decide_eq_true_eq, Nat.ble_eq]
  constructor
  · intro h
    refine ⟨fun i hi => (h i hi).1, ?_⟩
    have := (h 0 (by omega)).2
    omega
  · rintro ⟨h, hl⟩ i hi
    exact ⟨h i hi, by omega⟩

/-- What computing lanes of a register does to a team. -/
theorem compute_wrote (t : Team) (d : Nat) (m : Mask) (f : Nat → Word × BitVec 6) :
    WroteLanes t (t.compute d (m &&& rowsMask t.resume 32) f) d m f := by
  refine ⟨fun l hl => ?_, fun r hr => ?_, fun b => ?_, ?_, ?_, rfl⟩
  · have := Team.lane_setLanes t d l (m &&& rowsMask t.resume 32) (fun l => (f l).1) hl
    rw [and_rowsMask] at this
    simpa [Team.compute, Team.writeV, Team.cleanse, Team.flag, Team.lane, Team.vreg] using this
  · have := Team.vreg_put t d r ((List.range t.width).map fun l =>
      if (m &&& rowsMask t.resume 32).getLsbD l then (f l).1 else t.lane d l)
    rw [if_neg hr] at this
    exact this
  · have h1 : (t.compute d (m &&& rowsMask t.resume 32) f).nflags =
        t.nflags ||| flagsOf (m &&& rowsMask t.resume 32) t.width fun l => (f l).2 := rfl
    rw [h1, BitVec.getLsbD_or, flagsOf_getLsbD]
    congr 1
    apply congrArg (fun g => (List.range t.width).any g)
    funext l
    rw [and_rowsMask]
    congr 2
    rw [Bool.eq_iff_iff]; simp
  · show t.poison.filter _ = _
    congr 1
    funext p
    dsimp only
    rw [rowBits_and]
    simp [Bool.and_assoc]
  · show t.unread + (t.poison.filter _).length = _
    congr 3
    funext p
    dsimp only
    rw [rowBits_and]
    simp [Bool.and_assoc]

theorem quiet_reuseLook {v : Team → Team} (s : State) (c : Nat) (key : ReuseEntry) :
    Quiet v Core.stillReuse s (s.reuseLook c key) := by
  unfold State.reuseLook
  dsimp only
  split <;> exact quiet_putCore _ _ _ rfl

theorem Quiet.putTeam {view : Core → Core} {s s' : State} (q : Quiet (fun t => t) view s s') (k : Nat) (x : Team) :
    Quiet (fun t => t) view (s.putTeam k x) (s'.putTeam k x) := by
  refine ⟨fun j => ?_, fun c => by simpa using q.cores c, ?_⟩
  · have := q.teams j
    simp only [State.team?_putTeam]
    split
    · rfl
    · exact this
  · have := q.rest
    unfold State.putTeam
    rw [this]

theorem quiet_foldl {α : Type} {v : Team → Team} {view : Core → Core} (xs : List α) (f : State → α → State)
    (h : ∀ s x, Quiet v view s (f s x)) (s : State) : Quiet v view s (xs.foldl f s) := by
  induction xs generalizing s with
  | nil => exact Quiet.refl _ _ _
  | cons x xs ih => exact (h s x).trans (ih _)

theorem Core.slices_freeSlice (x : Core) (id : Nat) : (x.freeSlice id).slices.length ≤ x.slices.length := by
  unfold Core.freeSlice
  split
  · exact Nat.le_refl _
  · exact List.length_filter_le _ _

theorem Core.stillReuse_freeSlice (x : Core) (id : Nat) : (x.freeSlice id).stillReuse = x.stillReuse := by
  unfold Core.freeSlice
  split <;> rfl

theorem Core.slices_mapSlice (x : Core) (key id : Nat) : (x.mapSlice key id).slices.length ≤ x.slices.length :=
  Core.slices_freeSlice _ _

theorem Core.stillReuse_mapSlice (x : Core) (key id : Nat) : (x.mapSlice key id).stillReuse = x.stillReuse :=
  Core.stillReuse_freeSlice _ _

theorem Core.resident_le (x : Core) : x.resident ≤ x.slices.length := List.length_filter_le _ _

/-- A change of the slice store or the reuse table that adds at most n slices. -/
structure Stored (n : Nat) (core : Nat) (s s' : State) : Prop where
  quiet : Quiet (fun t => t) Core.stillReuse s s'
  room : (s'.core core).slices.length ≤ (s.core core).slices.length + n

theorem Stored.refl (core : Nat) (s : State) : Stored 0 core s s := ⟨Quiet.refl _ _ _, Nat.le_refl _⟩

theorem Stored.trans {n m core : Nat} {a b c : State} (h : Stored n core a b) (g : Stored m core b c) :
    Stored (n + m) core a c :=
  ⟨h.quiet.trans g.quiet, by have := h.room; have := g.room; omega⟩

theorem stored_putCore (s : State) (core n : Nat) (x : Core) (h : x.stillReuse = (s.core core).stillReuse)
    (hn : x.slices.length ≤ (s.core core).slices.length + n) : Stored n core s (s.putCore core x) :=
  ⟨quiet_putCore _ _ _ h, by rw [State.core_putCore, if_pos rfl]; exact hn⟩

theorem stored_mapSlice (s : State) (core key id : Nat) :
    Stored 0 core s (s.putCore core ((s.core core).mapSlice key id)) :=
  stored_putCore _ _ _ _ (Core.stillReuse_mapSlice _ _ _) (Core.slices_mapSlice _ _ _)

theorem stored_reuseLook (s : State) (core : Nat) (key : ReuseEntry) : Stored 0 core s (s.reuseLook core key) := by
  unfold State.reuseLook
  dsimp only
  split <;> exact stored_putCore _ _ _ _ rfl (Nat.le_refl _)

theorem stored_reuseInstall (s : State) (core : Nat) (e : ReuseEntry) : Stored 0 core s (s.reuseInstall core e) := by
  unfold State.reuseInstall
  dsimp only
  split
  · exact stored_putCore _ _ _ _ rfl (Nat.le_refl _)
  · exact Stored.refl _ _

/-- No values are on their way to more slices, or to fewer. -/
theorem Quiet.due {v : Team → Team} {view : Core → Core} {s s' : State} (h : Quiet v view s s') (core : Nat) :
    s'.slicesDue core = s.slicesDue core := by
  rw [h.rest]
  rfl

/-- At least what is neither taken nor kept can be taken. -/
theorem slicesFree_ge (s : State) (core : Nat) : sliceRoom - (s.core core).slices.length ≤ s.slicesFree core := by
  have h : sliceRoom - (s.core core).slices.length ≤ sliceRoom - (s.core core).resident :=
    Nat.sub_le_sub_left (Core.resident_le _) _
  exact Nat.le_trans h (Nat.le_add_right _ _)

/-- Where the store has a place beside those that are kept, a value gets a name, and one slice more at most. -/
theorem nameValue_some (s : State) (core kept : Nat) (val : Lanes) (own : Bool) (busy : List Nat)
    (h : (s.core core).slices.length + kept < sliceRoom) :
    ∃ s' id, s.nameValue core kept val own busy = some (s', id) ∧ Stored 1 core s s' := by
  have hr : s.sliceSpace core kept busy = some s := by
    have free := slicesFree_ge s core
    have res := Core.resident_le (s.core core)
    unfold State.sliceSpace
    rw [if_neg, if_pos]
    · exact Nat.ble_eq.mpr (by omega)
    · rw [Nat.ble_eq]
      omega
  have up : ∀ {a b : State}, Stored 0 core a b → Stored 1 core a b := fun g => ⟨g.quiet, by have := g.room; omega⟩
  unfold State.nameValue
  split
  · exact ⟨_, _, rfl, up (Stored.refl _ _)⟩
  · split
    · exact ⟨_, _, rfl, up (Stored.refl _ _)⟩
    · rw [hr]
      exact ⟨_, _, rfl, stored_putCore _ _ _ _ rfl (by simp)⟩

/-- What one pass does to the slice store and the reuse table, where a place is free. -/
theorem storePass_some (s : State) (k : Nat) (t after : Team) (r : ReuseForm) (el : Bool) (m : Mask) (fl : BitVec 6)
    (row : Nat) (h : (s.core (coreOf k)).slices.length + s.slicesDue (coreOf k) < sliceRoom) :
    ∃ s', s.storePass k t after r el m fl row = some s' ∧ Stored 1 (coreOf k) s s' := by
  have up : ∀ {a b : State}, Stored 0 (coreOf k) a b → Stored 1 (coreOf k) a b :=
    fun g => ⟨g.quiet, by have := g.room; omega⟩
  have look : ∀ b : Bool, Stored 0 (coreOf k) s (if b then s.reuseLook (coreOf k)
      (s.reuseKey k t r row (rowBits m row)) else s) := by
    intro b
    cases b
    · exact Stored.refl _ _
    · exact stored_reuseLook _ _ _
  unfold State.storePass
  dsimp only
  split
  · exact ⟨_, rfl, up ((look _).trans (stored_mapSlice _ _ _ _))⟩
  · split
    · exact ⟨_, rfl, up ((look _).trans (stored_mapSlice _ _ _ _))⟩
    · have g := look (el && t.reuses r.load)
      revert g
      generalize (if (el && t.reuses r.load) = true then s.reuseLook (coreOf k) (s.reuseKey k t r row (rowBits m row))
        else s) = s2
      intro q
      obtain ⟨s3, id, e, g⟩ := nameValue_some s2 (coreOf k) (s2.slicesDue (coreOf k)) (after.slice r.dest row) (after.poisonOf r.dest row).isSome
        (s.nameOf k r.dest row :: r.sources.map fun x => s.nameOf k x row)
        (by
          have := q.room
          rw [q.quiet.due]
          omega)
      rw [e]
      refine ⟨_, rfl, ?_⟩
      split
      · exact (q.trans g).trans ((stored_reuseInstall _ _ _).trans (stored_mapSlice _ _ _ _))
      · exact (q.trans g).trans (stored_mapSlice _ _ _ _)

/-- The same for pass after pass. -/
theorem storePasses_some (k : Nat) (t after : Team) (r : ReuseForm) (el : Bool) (m : Mask) (fl : Nat → BitVec 6)
    (rows : List Nat) (s : State)
    (h : (s.core (coreOf k)).slices.length + s.slicesDue (coreOf k) + rows.length ≤ sliceRoom) :
    ∃ s', s.storePasses k t after r el m fl rows = (s', none) ∧ Quiet (fun t => t) Core.stillReuse s s' := by
  induction rows generalizing s with
  | nil => exact ⟨s, rfl, Quiet.refl _ _ _⟩
  | cons row rows ih =>
    have hl : (row :: rows).length = rows.length + 1 := rfl
    obtain ⟨s1, e, g⟩ := storePass_some s k t after r el m (fl row) row (by omega)
    obtain ⟨s2, e2, g2⟩ := ih s1 (by have := g.room; rw [g.quiet.due]; omega)
    exact ⟨s2, by simp only [State.storePasses, e, e2], g.quiet.trans g2⟩

/-- Completing after changes that only concern reuse and spilling. -/
theorem complete_quiet {s1 s2 : State} (k : Nat) (i : Instr) (u : Team) (h : s1.team? k = some u)
    (t : Team) (q : Quiet (fun t => t) Core.stillReuse s1 s2) :
    ((s2.complete k t i).team? k).map Team.timeless = some (u.advance (chainBit i) (wordsOf i)).timeless ∧
      OnlyTeam Core.stillReuse k s1 (s2.complete k t i) := by
  have h2 : s2.team? k = some u := by
    have := q.teams k
    simpa [h] using this
  obtain ⟨a, b⟩ := complete_spec s2 k t i u h2
  refine ⟨a, fun j hj => ?_, fun c => ?_, ?_, fun x => ?_⟩
  · rw [b.others j hj]
    have := q.teams j
    simp at this
    rw [this]
  · rw [Core.stillReuse_of_still _ _ (b.cores c), q.cores c]
  · exact rest_trans q.rest b.rest
  · rw [b.memory x, q.memory x]

theorem range_below (n m : Nat) : ((List.range n).filter fun x => Nat.blt x m).length = min n m := by
  induction n with
  | zero => simp
  | succ n ih =>
    rw [List.range_succ, List.filter_append, List.length_append, ih]
    have e : (List.filter (fun x => Nat.blt x m) [n]).length = if n < m then 1 else 0 := by
      have b : Nat.blt n m = decide (n < m) := by
        rw [Bool.eq_iff_iff, decide_eq_true_iff]; exact iff_of_eq Nat.ble_eq
      by_cases h : n < m <;> simp [List.filter, b, h]
    rw [e]
    split <;> omega

/-- The passes of an instruction are at most 32. -/
theorem passesLeft_length (t : Team) : (t.passesLeft.filter fun row => Nat.blt row 32).length ≤ 32 := by
  have e : (t.passesLeft.filter fun row => Nat.blt row 32) =
      (((List.range t.rows).filter fun row => Nat.blt row 32).filter fun k => rowBits t.active k != 0).filter
        fun k => Nat.ble t.resume k := by
    unfold Team.passesLeft Team.passes
    simp only [List.filter_filter]
    congr 1
    funext x
    cases Nat.blt x 32 <;> cases Nat.ble t.resume x <;> cases rowBits t.active x != 0 <;> rfl
  rw [e]
  refine Nat.le_trans (List.length_filter_le _ _) (Nat.le_trans (List.length_filter_le _ _) ?_)
  rw [range_below]
  exact Nat.min_le_right _ _

/-- A vector form whose sources are not poisoned completes where the slice store has room, and writes the lanes of its mask. -/
theorem passes_result {i : Instr} {s : State} {k : Nat} {t : Team} {e : Nat → Team → Did} {r : ReuseForm} {el : Bool}
    {m : Mask} {f : Nat → Word × BitVec 6} (h : Ready s k t i) (hp : t.poisonStop r.sources = none) (hr : s.SliceRoom k)
    (he : e k t = vectorPasses s k t r el m f) :
    ∃ s' u, run i s e = .next s' ∧ CompletedPasses i k s s' u ∧ WroteLanes t u r.dest m f := by
  have hd : ∃ s2, vectorPasses s k t r el m f = .done s2 ∧
      Quiet (fun t => t) Core.stillReuse (s.putTeam k (t.compute r.dest (m &&& rowsMask t.resume 32) f)) s2 := by
    unfold vectorPasses
    simp only [hp]
    obtain ⟨s1, e1, q⟩ := storePasses_some k t (t.compute r.dest (m &&& rowsMask t.resume 32) f) r el m
      (fun row => flagsOf (m &&& rowsMask row (row + 1)) t.width fun l => (f l).2)
      (t.passesLeft.filter fun row => Nat.blt row 32) s (by
        have := passesLeft_length t
        unfold State.SliceRoom at hr
        omega)
    rw [e1]
    exact ⟨_, rfl, Quiet.putTeam q k _⟩
  obtain ⟨s2, h2, q⟩ := hd
  refine ⟨_, _, run_done h (he.trans h2), ?_, compute_wrote t r.dest m f⟩
  have hu : (s.putTeam k (t.compute r.dest (m &&& rowsMask t.resume 32) f)).team? k =
      some (t.compute r.dest (m &&& rowsMask t.resume 32) f) := by simp [State.team?_putTeam]
  obtain ⟨a, b⟩ := complete_quiet k i _ hu t q
  refine ⟨a, fun j hj => ?_, b.cores, ?_, b.memory⟩
  · rw [b.others j hj, State.team?_putTeam, if_neg hj]
  · simpa [State.putTeam] using b.rest

/-- The same for a meaning that is written as its passes. -/
theorem run_passes {i : Instr} {s : State} {k : Nat} {t : Team} {el : Bool} {r : Nat → Team → ReuseForm}
    {m : Nat → Team → Mask} {f : Nat → Team → Nat → Word × BitVec 6} (h : Ready s k t i)
    (hp : t.poisonStop (r k t).sources = none) (hr : s.SliceRoom k) :
    ∃ s' u, run i s (fun k t => vectorPasses s k t (r k t) el (m k t) (f k t)) = .next s' ∧ CompletedPasses i k s s' u ∧
      WroteLanes t u (r k t).dest (m k t) (f k t) := passes_result h hp hr rfl

end Sys2Proof.Machine
end

