-- ==== Sys2Proof/Laws/Memory.lean ====
section
/-! SUPPORT. Laws of physical memory: every operation keeps its canonical form, and what a byte reads as after a write. -/

namespace Sys2Proof.Machine

theorem Memory.wf_iff (m : Memory) : Memory.wf m = true ↔ Table.wf m = true ∧ ∀ c ∈ m, c.2 ≠ 0#8 := by
  simp [Memory.wf, List.all_eq_true]

/-- Setting a cell keeps the canonical form. -/
theorem Memory.wf_setByte {m : Memory} (h : Memory.wf m = true) (pa : Nat) (b : Byte) :
    Memory.wf (Memory.setByte m pa b) = true := by
  obtain ⟨h1, h2⟩ := (Memory.wf_iff m).1 h
  unfold Memory.setByte
  split
  · exact (Memory.wf_iff _).2 ⟨Table.wf_del h1 _, fun c hc => h2 c (Table.mem_del hc)⟩
  · rename_i hb
    refine (Memory.wf_iff _).2 ⟨Table.wf_put h1 _ _, fun c hc => ?_⟩
    rcases Table.mem_put hc with rfl | hc
    · simpa using hb
    · exact h2 c hc

/-- A cell after setting one. -/
theorem Memory.getD_setByte {m : Memory} (h : Memory.wf m = true) (pa a : Nat) (b : Byte) :
    Table.getD (Memory.setByte m pa b) a 0 = if a = pa then b else Table.getD m a 0 := by
  have h1 := ((Memory.wf_iff m).1 h).1
  unfold Memory.setByte
  split
  · rename_i hb
    simp only [Table.getD, Table.find?_del h1]
    by_cases ha : a = pa <;> simp_all
  · by_cases ha : a = pa
    · subst ha; simp
    · simp [ha, Table.getD_put_ne]

/-- Setting cells one after another keeps the canonical form. -/
theorem Memory.wf_setMany {m : Memory} (h : Memory.wf m = true) (l : List Nat) (p : Nat → Nat) (f : Nat → Byte) :
    Memory.wf (l.foldl (fun m i => Memory.setByte m (p i) (f i)) m) = true := by
  induction l generalizing m with
  | nil => exact h
  | cons i l ih => exact ih (Memory.wf_setByte h _ _)

/-- A cell after setting n cells in a row. -/
theorem Memory.getD_setRange {m : Memory} (h : Memory.wf m = true) (n base a : Nat) (f : Nat → Byte) :
    Table.getD ((List.range n).foldl (fun m i => Memory.setByte m (base + i) (f i)) m) a 0 =
      if base ≤ a ∧ a < base + n then f (a - base) else Table.getD m a 0 := by
  induction n with
  | zero => simp <;> omega
  | succ n ih =>
    rw [List.range_succ, List.foldl_append]
    simp only [List.foldl_cons, List.foldl_nil]
    rw [Memory.getD_setByte (Memory.wf_setMany h _ _ _), ih]
    by_cases ha : a = base + n
    · subst ha; simp
    · by_cases hb : base ≤ a ∧ a < base + n
      · simp [ha, hb, show a < base + (n + 1) by omega]
      · rw [if_neg ha, if_neg hb, if_neg (by omega)]

/-- Making a block one of its page's key keeps the canonical form. -/
theorem State.wf_rekey {s : State} (h : Memory.wf s.mem = true) (blk : Nat) : Memory.wf (s.rekey blk).mem = true := by
  unfold State.rekey
  split
  · exact h
  · split
    · exact h
    · split
      · exact h
      · exact Memory.wf_setMany h _ _ _

/-- A write of one byte keeps the canonical form. -/
theorem State.wf_setByte {s : State} (h : Memory.wf s.mem = true) (pa : Nat) (b : Byte) :
    Memory.wf (s.setByte pa b).mem = true := Memory.wf_setByte (State.wf_rekey h _) _ _

theorem State.setDesc_mem (s : State) (pa : Nat) (d : BitVec 16) : (s.setDesc pa d).mem = s.mem := by
  unfold State.setDesc
  split <;> rfl

theorem State.wf_setBytes {s : State} (h : Memory.wf s.mem = true) (l : List Nat) (g : Nat → Bool) (p : Nat → Nat)
    (f : Nat → Byte) :
    Memory.wf (l.foldl (fun (a : State) i => if g i then a.setByte (p i) (f i) else a) s).mem = true := by
  induction l generalizing s with
  | nil => exact h
  | cons i l ih =>
    refine ih ?_
    dsimp only
    split
    · exact State.wf_setByte h _ _
    · exact h

/-- A write at the home of a line keeps the canonical form. -/
theorem State.wf_homeWrite {s : State} (h : Memory.wf s.mem = true) (line : Nat) (mask : BitVec 64) (data : BitVec 512)
    (d : Option (BitVec 16)) : Memory.wf (s.homeWrite line mask data d).mem = true := by
  have h1 := State.wf_setBytes h (List.range 64) mask.getLsbD (fun i => 64 * line + i) (lineByte data)
  unfold State.homeWrite
  dsimp only
  split
  · show Memory.wf (State.setDesc _ _ _).mem = true
    rw [State.setDesc_mem]
    exact h1
  · exact h1

/-- A run of bytes written at its homes keeps the canonical form. -/
theorem State.wf_homeWriteRun {s : State} (h : Memory.wf s.mem = true) (pa : Nat) (bs : List Byte)
    (d : Option (BitVec 16)) : Memory.wf (s.homeWriteRun pa bs d).mem = true := by
  unfold State.homeWriteRun
  split
  · exact h
  · dsimp only
    generalize List.range _ = l
    induction l generalizing s with
    | nil => exact h
    | cons i l ih => exact ih (State.wf_homeWrite h _ _ _ _)

/-- Memory at reset has the canonical form. -/
theorem State.wf_reset : Memory.wf State.reset.mem = true := rfl

/-! ### Reading after a write -/

theorem isCxl_block (a b : Nat) (h : a / 16 = b / 16) : isCxl a = isCxl b := by
  simp only [isCxl, Bool.and_eq_decide, Nat.ble_eq, Nat.blt_eq, decide_eq_decide]
  omega

theorem State.keyAt_block (s : State) (a b : Nat) (h : a / 16 = b / 16) : s.keyAt a = s.keyAt b := by
  have : a / 65536 = b / 65536 := by omega
  simp [State.keyAt, State.owner, this]

/-- The key of a page depends on its owner and on the contexts only. -/
theorem State.keyAt_congr {s s' : State} (ho : s'.owners = s.owners) (hc : s'.ctxs = s.ctxs) (a : Nat) :
    s'.keyAt a = s.keyAt a := by
  simp [State.keyAt, State.owner, State.ctx, ho, hc]

/-- A byte depends on its cell, the key of its block and the key of its page only. -/
theorem State.byte_congr {s s' : State} {a : Nat} (hm : s'.cell a = s.cell a)
    (ht : Table.find? s'.keyTags (a / 16) = Table.find? s.keyTags (a / 16)) (ho : s'.owners = s.owners)
    (hc : s'.ctxs = s.ctxs) : s'.byte a = s.byte a := by
  simp only [State.byte, hm, ht, State.keyAt_congr ho hc a]

/-- A byte reads as stored where its block is of its page's key, or of none. -/
theorem State.byte_tagged {s : State} {a : Nat}
    (h : isCxl a = true ∨ Table.find? s.keyTags (a / 16) = none ∨ Table.find? s.keyTags (a / 16) = some (s.keyAt a)) :
    s.byte a = s.cell a := by
  unfold State.byte
  rcases h with h | h | h <;> simp [h]

theorem State.rekey_owners (s : State) (blk : Nat) : (s.rekey blk).owners = s.owners := by
  unfold State.rekey
  repeat' split
  all_goals rfl

theorem State.rekey_ctxs (s : State) (blk : Nat) : (s.rekey blk).ctxs = s.ctxs := by
  unfold State.rekey
  repeat' split
  all_goals rfl

/-- After it, the block is of its page's key. -/
theorem State.rekey_tag (s : State) (a : Nat) (hx : isCxl a = false) :
    Table.find? (s.rekey (a / 16)).keyTags (a / 16) = some ((s.rekey (a / 16)).keyAt a) := by
  rw [State.keyAt_congr (s.rekey_owners _) (s.rekey_ctxs _)]
  have hk : s.keyAt (16 * (a / 16)) = s.keyAt a := s.keyAt_block _ _ (by omega)
  have hx' : isCxl (16 * (a / 16)) = false := by rw [isCxl_block _ a (by omega)]; exact hx
  unfold State.rekey
  simp only [hx', Bool.false_eq_true, if_false]
  split
  · simp [Table.find?_put, hk]
  · rename_i k hf
    split
    · rename_i he
      simp only [beq_iff_eq] at he
      rw [hf, he, hk]
    · simp [Table.find?_put, hk]

/-- Making a block one of its page's key changes no byte that memory reads as. -/
theorem State.byte_rekey {s : State} (h : Memory.wf s.mem = true) (blk a : Nat) : (s.rekey blk).byte a = s.byte a := by
  by_cases ha : a / 16 = blk
  · subst ha
    cases hx : isCxl a
    · rw [State.byte_tagged (.inr (.inr (s.rekey_tag a hx)))]
      have hx' : isCxl (16 * (a / 16)) = false := by rw [isCxl_block _ a (by omega)]; exact hx
      have hk : s.keyAt (16 * (a / 16)) = s.keyAt a := s.keyAt_block _ _ (by omega)
      unfold State.rekey
      simp only [hx', Bool.false_eq_true, if_false]
      split
      · rename_i hf
        exact (State.byte_tagged (.inr (.inl hf))).symm
      · rename_i k hf
        split
        · rename_i he
          simp only [beq_iff_eq] at he
          exact (State.byte_tagged (.inr (.inr (by rw [hf, he, hk])))).symm
        · have hr := Memory.getD_setRange h 16 (16 * (a / 16)) a fun i => s.byte (16 * (a / 16) + i)
          have e : 16 * (a / 16) + (a - 16 * (a / 16)) = a := by omega
          rw [if_pos (by omega)] at hr
          rw [e] at hr
          exact hr
    · have hx' : isCxl (16 * (a / 16)) = true := by rw [isCxl_block _ a (by omega)]; exact hx
      simp [State.rekey, hx']
  · refine State.byte_congr ?_ ?_ (s.rekey_owners _) (s.rekey_ctxs _)
    · unfold State.rekey
      repeat' split
      all_goals first | rfl | skip
      have hr := Memory.getD_setRange h 16 (16 * blk) a fun i => s.byte (16 * blk + i)
      rw [if_neg (by omega)] at hr
      exact hr
    · unfold State.rekey
      repeat' split
      all_goals first | rfl | exact Table.find?_put_ne _ _ ha

/-- A byte after a write of one byte: the byte written at its address, every other as before (R393). -/
theorem State.byte_setByte {s : State} (h : Memory.wf s.mem = true) (pa a : Nat) (b : Byte) :
    (s.setByte pa b).byte a = if a = pa then b else s.byte a := by
  have hm := Memory.getD_setByte (State.wf_rekey h (pa / 16)) pa a b
  by_cases ha : a = pa
  · subst ha
    rw [if_pos rfl] at hm ⊢
    rw [State.byte_tagged]
    · exact hm
    · cases hx : isCxl a
      · exact .inr (.inr (s.rekey_tag a hx))
      · exact .inl rfl
  · rw [if_neg ha] at hm ⊢
    rw [← State.byte_rekey h (pa / 16) a]
    exact State.byte_congr hm rfl rfl rfl

theorem State.byte_setBytes {s : State} (h : Memory.wf s.mem = true) (n : Nat) (g : Nat → Bool) (base a : Nat)
    (f : Nat → Byte) :
    ((List.range n).foldl (fun (x : State) i => if g i then x.setByte (base + i) (f i) else x) s).byte a =
      if base ≤ a ∧ a < base + n ∧ g (a - base) = true then f (a - base) else s.byte a := by
  induction n with
  | zero => simp <;> omega
  | succ n ih =>
    rw [List.range_succ, List.foldl_append]
    simp only [List.foldl_cons, List.foldl_nil]
    have hw := State.wf_setBytes h (List.range n) g (fun i => base + i) f
    split
    · rename_i hg
      rw [State.byte_setByte hw, ih]
      by_cases ha : a = base + n
      · subst ha; simp [hg]
      · have : (base ≤ a ∧ a < base + (n + 1) ∧ g (a - base) = true) ↔ (base ≤ a ∧ a < base + n ∧ g (a - base) = true) := by
          constructor <;> rintro ⟨x, y, z⟩ <;> exact ⟨x, by omega, z⟩
        simp only [ha, if_false, this]
    · rename_i hg
      rw [ih]
      by_cases ha : a = base + n
      · subst ha; simp [hg]
      · have : (base ≤ a ∧ a < base + (n + 1) ∧ g (a - base) = true) ↔ (base ≤ a ∧ a < base + n ∧ g (a - base) = true) := by
          constructor <;> rintro ⟨x, y, z⟩ <;> exact ⟨x, by omega, z⟩
        simp only [this]

theorem State.byte_setDesc (s : State) (pa : Nat) (d : BitVec 16) (a : Nat) : (s.setDesc pa d).byte a = s.byte a := by
  unfold State.setDesc
  split <;> rfl

/-- A byte after a write at the home of a line: the bytes of the line that the mask names, every other as before. -/
theorem State.byte_homeWrite {s : State} (h : Memory.wf s.mem = true) (line : Nat) (mask : BitVec 64) (data : BitVec 512)
    (d : Option (BitVec 16)) (a : Nat) :
    (s.homeWrite line mask data d).byte a =
      if a / 64 = line ∧ mask.getLsbD (a % 64) = true then lineByte data (a % 64) else s.byte a := by
  have h1 := State.byte_setBytes h 64 mask.getLsbD (64 * line) a (lineByte data)
  have e : (64 * line ≤ a ∧ a < 64 * line + 64 ∧ mask.getLsbD (a - 64 * line) = true) ↔
      (a / 64 = line ∧ mask.getLsbD (a % 64) = true) := by
    constructor
    · rintro ⟨x, y, z⟩
      refine ⟨by omega, ?_⟩
      rwa [show a % 64 = a - 64 * line by omega]
    · rintro ⟨x, z⟩
      refine ⟨by omega, by omega, ?_⟩
      rwa [show a - 64 * line = a % 64 by omega]
  have h2 : (if 64 * line ≤ a ∧ a < 64 * line + 64 ∧ mask.getLsbD (a - 64 * line) = true then lineByte data (a - 64 * line)
      else s.byte a) = if a / 64 = line ∧ mask.getLsbD (a % 64) = true then lineByte data (a % 64) else s.byte a := by
    by_cases hc : a / 64 = line ∧ mask.getLsbD (a % 64) = true
    · rw [if_pos hc, if_pos (e.2 hc), show a - 64 * line = a % 64 by omega]
    · rw [if_neg hc, if_neg (fun x => hc (e.1 x))]
  rw [h2] at h1
  rw [← h1]
  unfold State.homeWrite
  dsimp only
  split
  · exact State.byte_setDesc _ _ _ _
  · rfl

/-! ### Bytes, lines and runs -/

theorem ofBytes_byte (bs : List Byte) (i : Nat) : ofBytes bs / 256 ^ i % 256 = (bs.getD i 0).toNat := by
  induction bs generalizing i with
  | nil => simp [ofBytes]
  | cons b bs ih =>
    have hb : b.toNat < 256 := b.isLt
    cases i with
    | zero => simp only [ofBytes, Nat.pow_zero, Nat.div_one, List.getD_cons_zero]; omega
    | succ i =>
      rw [Nat.pow_succ', ← Nat.div_div_eq_div_mul, List.getD_cons_succ, ← ih]
      congr 2
      simp only [ofBytes]
      omega

/-- A byte of a line made of bytes. -/
theorem lineByte_lineOf (bs : List Byte) (i : Nat) (hi : i < 64) : lineByte (lineOf bs) i = bs.getD i 0 := by
  apply BitVec.eq_of_toNat_eq
  rw [← ofBytes_byte]
  simp only [lineByte, lineOf, BitVec.extractLsb'_toNat, BitVec.toNat_ofNat, Nat.shiftRight_eq_div_pow]
  have h256 : (256 : Nat) ^ i = 2 ^ (8 * i) := by rw [Nat.pow_mul]
  rw [h256]
  have hd : (2 : Nat) ^ 512 = 2 ^ (8 * i) * 2 ^ (512 - 8 * i) := by rw [← Nat.pow_add]; congr 1; omega
  rw [hd, Nat.mod_mul_right_div_self]
  exact Nat.mod_mod_of_dvd _ (Nat.pow_dvd_pow 2 (by omega))

theorem maskFold_bit (n : Nat) (g : Nat → Bool) (j : Nat) (hj : j < 64) :
    ((List.range n).foldl (fun (m : BitVec 64) i => if g i then m ||| (1#64 <<< i) else m) 0).getLsbD j =
      (decide (j < n) && g j) := by
  induction n with
  | zero => simp
  | succ n ih =>
    rw [List.range_succ, List.foldl_append]
    simp only [List.foldl_cons, List.foldl_nil]
    split
    · rename_i hg
      rw [BitVec.getLsbD_or, ih]
      simp only [BitVec.getLsbD_shiftLeft, BitVec.getLsbD_one, hj, decide_true, Bool.true_and]
      by_cases h1 : j = n
      · subst h1; simp [hg]
      · by_cases h2 : j < n
        · simp [h2, show j < n + 1 by omega]
        · simp [h2, show ¬ j < n + 1 by omega]; omega
    · rename_i hg
      rw [ih]
      by_cases h1 : j = n
      · subst h1; simp [hg]
      · simp [show j < n + 1 ↔ j < n by omega]

/-- The mask of a run in a line, and its data where the mask is set. -/
theorem runInLine_mask (pa : Nat) (bs : List Byte) (line j : Nat) (hj : j < 64) :
    (runInLine pa bs line).1.getLsbD j = true ↔ pa ≤ 64 * line + j ∧ 64 * line + j < pa + bs.length := by
  show BitVec.getLsbD _ j = true ↔ _
  unfold runInLine
  dsimp only
  rw [maskFold_bit 64 (fun i => Nat.ble pa (64 * line + i) && Nat.blt (64 * line + i) (pa + bs.length)) j hj]
  simp [hj]

theorem runInLine_data (pa : Nat) (bs : List Byte) (line j : Nat) (hj : j < 64) (h : pa ≤ 64 * line + j) :
    lineByte (runInLine pa bs line).2 j = bs.getD (64 * line + j - pa) 0 := by
  unfold runInLine
  dsimp only
  rw [lineByte_lineOf _ _ hj]
  simp [List.getD_eq_getElem?_getD, hj, h]

/-- A byte after a run of bytes is written at its homes: the run's bytes at their addresses, every other as before. -/
theorem State.byte_homeWriteRun {s : State} (h : Memory.wf s.mem = true) (pa : Nat) (bs : List Byte)
    (d : Option (BitVec 16)) (a : Nat) :
    (s.homeWriteRun pa bs d).byte a = if pa ≤ a ∧ a < pa + bs.length then bs.getD (a - pa) 0 else s.byte a := by
  have key : ∀ n, Memory.wf ((List.range n).foldl (fun (x : State) i =>
        let r := runInLine pa bs (pa / 64 + i)
        x.homeWrite (pa / 64 + i) r.1 r.2 d) s).mem = true ∧
      ((List.range n).foldl (fun (x : State) i =>
        let r := runInLine pa bs (pa / 64 + i)
        x.homeWrite (pa / 64 + i) r.1 r.2 d) s).byte a =
      if pa ≤ a ∧ a < pa + bs.length ∧ a / 64 < pa / 64 + n then bs.getD (a - pa) 0 else s.byte a := by
    intro n
    induction n with
    | zero =>
      refine ⟨h, ?_⟩
      rw [if_neg (by omega)]
      rfl
    | succ n ih =>
      rw [List.range_succ, List.foldl_append]
      simp only [List.foldl_cons, List.foldl_nil]
      refine ⟨State.wf_homeWrite ih.1 _ _ _ _, ?_⟩
      rw [State.byte_homeWrite ih.1, ih.2]
      by_cases hl : a / 64 = pa / 64 + n
      · have e : 64 * (pa / 64 + n) + a % 64 = a := by omega
        have hm := runInLine_mask pa bs (pa / 64 + n) (a % 64) (by omega)
        rw [e] at hm
        by_cases hc : pa ≤ a ∧ a < pa + bs.length
        · rw [if_pos ⟨hl, hm.2 hc⟩, if_pos ⟨hc.1, hc.2, by omega⟩, runInLine_data _ _ _ _ (by omega) (by omega), e]
        · rw [if_neg (fun x => hc (hm.1 x.2)), if_neg (by omega), if_neg (by omega)]
      · rw [if_neg (by simp [hl])]
        have : (pa ≤ a ∧ a < pa + bs.length ∧ a / 64 < pa / 64 + (n + 1)) ↔
            (pa ≤ a ∧ a < pa + bs.length ∧ a / 64 < pa / 64 + n) := by omega
        simp only [this]
  unfold State.homeWriteRun
  split
  · rw [if_neg (by simp)]
  · rw [(key _).2]
    rename_i hne
    have hlen : 0 < bs.length := by
      cases bs with
      | nil => exact absurd rfl hne
      | cons _ _ => simp
    have : (pa ≤ a ∧ a < pa + bs.length ∧ a / 64 < pa / 64 + ((pa + bs.length - 1) / 64 - pa / 64 + 1)) ↔
        (pa ≤ a ∧ a < pa + bs.length) := by omega
    simp only [this]

end Sys2Proof.Machine
end

