-- ==== Sys2Proof/Laws/Spdm.lean ====
section
/-! SUPPORT. What the hash, the cipher and the sealing of the SPDM responder give: lengths, and that what is sealed is opened. -/

namespace Sys2Proof.Machine

/-! ### Keccak -/

theorem stepTheta_length (a : List Word) : (stepTheta a).length = a.length := by simp [stepTheta]

theorem stepRhoPi_length (a : List Word) : ∀ n x y b, (stepRhoPi a n x y b).length = b.length
  | 0, _, _, _ => rfl
  | n + 1, x, y, b => by rw [stepRhoPi, stepRhoPi_length a n, List.length_set]

theorem stepChi_length (a : List Word) : (stepChi a).length = a.length := by simp [stepChi]

theorem stepIota_length (c : Nat) (a : List Word) : (stepIota c a).length = a.length := by cases a <;> rfl

theorem keccakRounds_length : ∀ n r a, (keccakRounds n r a).length = a.length
  | 0, _, _ => rfl
  | n + 1, r, a => by
    rw [keccakRounds, keccakRounds_length n, stepIota_length, stepChi_length, stepRhoPi_length, stepTheta_length]

theorem absorbBlocks_length : ∀ n bs a, (absorbBlocks n bs a).length = a.length
  | 0, _, _ => rfl
  | n + 1, bs, a => by rw [absorbBlocks, absorbBlocks_length n]; simp [keccakP, keccakRounds_length]

/-- SHAKE256 gives the bytes that were asked for, up to 136 and more. -/
theorem shake256_length (bs : List Byte) (n : Nat) (h : n ≤ 200) : (shake256 bs n).length = n := by
  rw [shake256, List.length_take, List.length_flatMap]
  rw [List.map_congr_left (g := fun _ => 8) fun _ _ => by simp, List.map_const', List.sum_replicate_nat, absorbBlocks_length]
  simp <;> omega

theorem hmac_length (key msg : List Byte) : (hmac key msg).length = 32 := shake256_length _ _ (by decide)

theorem derive_length (secret label context : List Byte) (n : Nat) (h : n ≤ 32) : (derive secret n label context).length = n := by
  simp [derive, hmac_length, h]

/-! ### AES and its Galois counter mode -/

theorem aXor_length (a b : List Nat) : (aXor a b).length = min a.length b.length := by simp [aXor]

/-- What was added twice is gone. -/
theorem aXor_aXor (a b : List Nat) (h : a.length ≤ b.length) : aXor (aXor a b) b = a := by
  apply List.ext_getElem
  · simp [aXor_length, h]
  · intro i h1 h2
    simp only [aXor, List.getElem_zipWith]
    show (a[i] ^^^ b[i]) ^^^ b[i] = a[i]
    rw [Nat.xor_assoc, Nat.xor_self, Nat.xor_zero]

theorem aExpand_lengths (box : List Nat) : ∀ n rc ws, 8 ≤ ws.length → (∀ w ∈ ws, w.length = 4) →
    (aExpand box n rc ws).length = ws.length + n ∧ ∀ w ∈ aExpand box n rc ws, w.length = 4
  | 0, _, ws, _, h => ⟨rfl, h⟩
  | n + 1, rc, ws, h8, h => by
    have hget : ∀ i, i < ws.length → (ws.getD i []).length = 4 := fun i hi => by
      rw [List.getD_eq_getElem?_getD, List.getElem?_eq_getElem hi]; exact h _ (List.getElem_mem hi)
    rw [aExpand]
    have := aExpand_lengths box n (if ws.length % 8 == 0 then aTwice rc else rc) (ws ++ [aXor (ws.getD (ws.length - 8) [])
      (if ws.length % 8 == 0 then
        aXor (((ws.getD (ws.length - 1) []).drop 1 ++ (ws.getD (ws.length - 1) []).take 1).map fun b => box.getD b 0) [rc, 0, 0, 0]
      else if ws.length % 8 == 4 then (ws.getD (ws.length - 1) []).map fun b => box.getD b 0 else ws.getD (ws.length - 1) [])])
      (by simp <;> omega) (by
        intro w hw
        rcases List.mem_append.1 hw with hw | hw
        · exact h w hw
        · rw [List.mem_singleton] at hw
          subst hw
          have h1 := hget (ws.length - 1) (by omega)
          rw [aXor_length, hget _ (by omega)]
          split
          · simp only [aXor_length, List.length_map, List.length_append, List.length_drop, List.length_take, h1]; rfl
          · split
            · rw [List.length_map, h1]; rfl
            · rw [h1]; rfl)
    refine ⟨?_, this.2⟩
    rw [this.1]; simp <;> omega

theorem aKeys_lengths (box key : List Nat) (hk : key.length = 32) :
    (aKeys box key).length = 15 ∧ ∀ k ∈ aKeys box key, k.length = 16 := by
  refine ⟨by simp [aKeys], ?_⟩
  have := aExpand_lengths box 52 1 ((List.range 8).map fun i => (key.drop (4 * i)).take 4) (by simp) (by
    intro w hw
    obtain ⟨i, hi, rfl⟩ := List.mem_map.1 hw
    have := List.mem_range.1 hi
    simp [hk] <;> omega)
  intro k hm
  simp only [aKeys, List.mem_map, List.mem_range] at hm
  obtain ⟨r, hr, rfl⟩ := hm
  rw [List.length_flatten]
  have h4 : ∀ w ∈ ((aExpand box 52 1 ((List.range 8).map fun i => (key.drop (4 * i)).take 4)).drop (4 * r)).take 4, w.length = 4 :=
    fun w hw => this.2 w (List.mem_of_mem_drop (List.mem_of_mem_take hw))
  rw [List.map_congr_left h4, List.map_const', List.sum_replicate_nat]
  rw [List.length_take, List.length_drop, this.1]
  simp <;> omega

/-- AES-256 gives blocks of 16 bytes. -/
theorem aEncrypt_length (box : List Nat) (keys : List (List Nat)) (b : List Nat) (hb : b.length = 16) (h0 : keys ≠ [])
    (hk : ∀ k ∈ keys, k.length = 16) : (aEncrypt box keys b).length = 16 := by
  have fold : ∀ (ks : List (List Nat × Nat)) (s : List Nat), s.length = 16 → (∀ k ∈ ks, k.1.length = 16) →
      (ks.foldl (fun (s : List Nat) k =>
        let t := aShift false (s.map fun x => box.getD x 0)
        aXor (if k.2 == 13 then t else aMix [2, 3, 1, 1] t) k.1) s).length = 16 := by
    intro ks
    induction ks with
    | nil => intro s hs _; exact hs
    | cons k ks ih =>
      intro s hs hks
      refine ih _ ?_ fun k' h' => hks k' (List.mem_cons_of_mem _ h')
      simp only [aXor_length, hks k List.mem_cons_self]
      split <;> simp [aShift, aMix]
  unfold aEncrypt
  refine fold _ _ ?_ ?_
  · rw [aXor_length, hb]
    cases keys with
    | nil => exact absurd rfl h0
    | cons k ks => simp [hk k List.mem_cons_self]
  · intro k hm
    have := List.fst_mem_of_mem_zipIdx hm
    exact hk _ (List.mem_of_mem_drop this)

theorem gBytes_length (v : Nat) : (gBytes v).length = 16 := by simp [gBytes]

/-- The blocks of a byte string, joined, are the string. -/
theorem gBlock_flatMap : ∀ n (bs : List Nat), bs.length ≤ 16 * n → (List.range n).flatMap (gBlock bs) = bs
  | 0, bs, h => by simp at h; simp [h]
  | n + 1, bs, h => by
    rw [List.range_succ_eq_map, List.flatMap_cons, List.flatMap_map]
    have e : ((fun i => gBlock bs (Nat.succ i))) = gBlock (bs.drop 16) := by
      funext i; simp [gBlock, List.drop_drop, Nat.mul_succ, Nat.add_comm]
    rw [e, gBlock_flatMap n (bs.drop 16) (by simp <;> omega)]
    simp [gBlock]

/-- A stream of blocks of 16 bytes added to a byte string keeps its length, and added again gives it back. -/
theorem stream_stream : ∀ n (bs : List Nat) (e : Nat → List Nat), bs.length ≤ 16 * n → (∀ i, (e i).length = 16) →
    let c := (List.range n).flatMap fun i => aXor (gBlock bs i) (e i)
    c.length = bs.length ∧ ((List.range n).flatMap fun i => aXor (gBlock c i) (e i)) = bs
  | 0, bs, _, h, _ => by simp at h; simp [h]
  | n + 1, bs, e, h, he => by
    have ih := stream_stream n (bs.drop 16) (fun i => e (i + 1)) (by simp <;> omega) fun i => he _
    simp only [List.range_succ_eq_map, List.flatMap_cons, List.flatMap_map] at ih ⊢
    have tail : (fun i => aXor (gBlock bs (Nat.succ i)) (e (Nat.succ i))) = fun i => aXor (gBlock (bs.drop 16) i) (e (i + 1)) := by
      funext i; simp [gBlock, List.drop_drop, Nat.mul_succ, Nat.add_comm]
    rw [tail]
    generalize hc : ((List.range n).flatMap fun i => aXor (gBlock (bs.drop 16) i) (e (i + 1))) = c at ih ⊢
    have hl : (aXor (gBlock bs 0) (e 0)).length = min 16 bs.length := by rw [aXor_length, he]; simp [gBlock]
    have ht : (aXor (gBlock bs 0) (e 0) ++ c).take 16 = aXor (gBlock bs 0) (e 0) := by
      rw [List.take_append, hl, List.take_of_length_le (by omega)]
      by_cases h16 : 16 ≤ bs.length
      · simp [h16]
      · have : c = [] := List.eq_nil_of_length_eq_zero (by rw [ih.1]; simp <;> omega)
        simp [this]
    have hd : (aXor (gBlock bs 0) (e 0) ++ c).drop 16 = c := by
      rw [List.drop_append, hl, List.drop_of_length_le (by omega)]
      by_cases h16 : 16 ≤ bs.length
      · simp [h16]
      · have : c = [] := List.eq_nil_of_length_eq_zero (by rw [ih.1]; simp <;> omega)
        simp [this]
    refine ⟨by rw [List.length_append, hl, ih.1]; simp <;> omega, ?_⟩
    have h0 : gBlock (aXor (gBlock bs 0) (e 0) ++ c) 0 = aXor (gBlock bs 0) (e 0) := by simpa [gBlock] using ht
    have hs : (fun i => aXor (gBlock (aXor (gBlock bs 0) (e 0) ++ c) (Nat.succ i)) (e (Nat.succ i))) =
        fun i => aXor (gBlock c i) (e (i + 1)) := by
      funext i
      rw [show gBlock (aXor (gBlock bs 0) (e 0) ++ c) (Nat.succ i) = gBlock c i by
        conv => rhs; rw [← hd]
        simp [gBlock, List.drop_drop, Nat.mul_succ, Nat.add_comm]]
    rw [h0, hs, ih.2, aXor_aXor _ _ (by rw [he]; simp [gBlock] <;> omega)]
    simp [gBlock]

/-- What is sealed is opened again, and its tag is of 16 bytes (R415). -/
theorem gcm_unseal_seal (g : Gcm) (m : List Nat) (hk : g.key.length = 32) (hi : g.iv.length = 12) :
    g.unseal (g.seal m) = some m ∧ (g.seal m).length = m.length + 16 := by
  have hkeys := aKeys_lengths aBox g.key hk
  have hne : aKeys aBox g.key ≠ [] := by intro h; rw [h] at hkeys; exact absurd hkeys.1 (by decide)
  have henc : ∀ n, (aEncrypt aBox (aKeys aBox g.key) (g.iv ++ (gBytes n).drop 12)).length = 16 := fun n =>
    aEncrypt_length _ _ _ (by simp [hi, gBytes_length]) hne hkeys.2
  have hs := stream_stream ((m.length + 15) / 16) m (fun i => aEncrypt aBox (aKeys aBox g.key) (g.iv ++ (gBytes (i + 2)).drop 12))
    (by omega) fun i => henc _
  have htag : ∀ d, (g.run m d).2.length = 16 := fun d => by simp only [Gcm.run, aXor_length, gBytes_length, henc]; rfl
  have hc : (g.run m false).1.length = m.length := hs.1
  have hr : g.run (g.run m false).1 true = (m, (g.run m false).2) := by
    refine Prod.ext ?_ (by simp only [Gcm.run, if_true, Bool.false_eq_true, if_false])
    show ((List.range (((g.run m false).1.length + 15) / 16)).flatMap fun i => aXor (gBlock (g.run m false).1 i)
      (aEncrypt aBox (aKeys aBox g.key) (g.iv ++ (gBytes (i + 2)).drop 12))) = m
    rw [hc]
    exact hs.2
  have hl : (g.seal m).length = m.length + 16 := by simp [Gcm.seal, hc, htag]
  refine ⟨?_, hl⟩
  have h1 : (g.seal m).take ((g.seal m).length - 16) = (g.run m false).1 := by
    rw [hl, Nat.add_sub_cancel]; simp [Gcm.seal, ← hc]
  have h2 : (g.seal m).drop ((g.seal m).length - 16) = (g.run m false).2 := by
    rw [hl, Nat.add_sub_cancel]; simp [Gcm.seal, ← hc]
  simp only [Gcm.unseal, h1, h2, hr]
  simp [hl]

/-! ### The bytes stay bytes -/

/-- Every number is a byte. -/
def AllBytes (l : List Nat) : Prop := ∀ b ∈ l, b < 256

theorem AllBytes.aXor {a b : List Nat} (ha : AllBytes a) (hb : AllBytes b) : AllBytes (aXor a b) := by
  intro x hx
  obtain ⟨i, hi, rfl⟩ := List.getElem_of_mem hx
  simp only [Machine.aXor, List.getElem_zipWith]
  exact Nat.xor_lt_two_pow (n := 8) (ha _ (List.getElem_mem _)) (hb _ (List.getElem_mem _))

theorem AllBytes.getD {l : List Nat} (h : AllBytes l) (i : Nat) : l.getD i 0 < 256 := by
  rw [List.getD_eq_getElem?_getD]
  by_cases hi : i < l.length
  · rw [List.getElem?_eq_getElem hi]; exact h _ (List.getElem_mem hi)
  · rw [List.getElem?_eq_none (by omega)]; exact Nat.zero_lt_succ _

theorem AllBytes.take {l : List Nat} (h : AllBytes l) (n : Nat) : AllBytes (l.take n) := fun b hb => h b (List.mem_of_mem_take hb)

theorem AllBytes.drop {l : List Nat} (h : AllBytes l) (n : Nat) : AllBytes (l.drop n) := fun b hb => h b (List.mem_of_mem_drop hb)

theorem AllBytes.append {a b : List Nat} (ha : AllBytes a) (hb : AllBytes b) : AllBytes (a ++ b) := fun x hx =>
  (List.mem_append.1 hx).elim (ha x) (hb x)

theorem AllBytes.flatMap {α : Type} {l : List α} {f : α → List Nat} (h : ∀ x ∈ l, AllBytes (f x)) : AllBytes (l.flatMap f) := by
  intro b hb
  obtain ⟨x, hx, hb⟩ := List.mem_flatMap.1 hb
  exact h x hx b hb

theorem allBytes_toNat (l : List Byte) : AllBytes (l.map fun b => b.toNat) := by
  intro b hb
  obtain ⟨x, _, rfl⟩ := List.mem_map.1 hb
  exact x.isLt

theorem aBox_allBytes : AllBytes aBox := by
  have : aBox.all (fun b => Nat.blt b 256) = true := by decide +kernel
  exact fun b hb => by simpa using List.all_eq_true.1 this b hb

theorem aExpand_bytes (box : List Nat) (hbox : AllBytes box) : ∀ n rc ws, rc < 256 → (∀ w ∈ ws, AllBytes w) →
    ∀ w ∈ aExpand box n rc ws, AllBytes w
  | 0, _, _, _, h => h
  | n + 1, rc, ws, hr, h => by
    have hget : ∀ i, AllBytes (ws.getD i []) := fun i => by
      rw [List.getD_eq_getElem?_getD]
      by_cases hi : i < ws.length
      · rw [List.getElem?_eq_getElem hi]; exact h _ (List.getElem_mem hi)
      · rw [List.getElem?_eq_none (by omega)]; exact fun b hb => absurd hb (by simp)
    have hsub : ∀ l : List Nat, AllBytes (l.map fun b => box.getD b 0) := fun l b hb => by
      obtain ⟨x, _, rfl⟩ := List.mem_map.1 hb
      exact hbox.getD x
    have htwice : aTwice rc < 256 := by
      unfold aTwice
      split
      · rename_i h; have : rc < 128 := by simpa using h
        omega
      · exact Nat.xor_lt_two_pow (n := 8) (by omega) (by decide)
    rw [aExpand]
    refine aExpand_bytes box hbox n _ _ (by split <;> assumption) fun w hw => ?_
    rcases List.mem_append.1 hw with hw | hw
    · exact h w hw
    · rw [List.mem_singleton] at hw
      subst hw
      refine (hget _).aXor ?_
      split
      · exact (hsub _).aXor fun b hb => by
          rcases List.mem_cons.1 hb with rfl | hb
          · exact hr
          · have : b = 0 := by simpa using hb
            subst this; decide
      · split
        · exact hsub _
        · exact hget _

theorem aKeys_bytes (box key : List Nat) (hbox : AllBytes box) (hk : AllBytes key) : ∀ k ∈ aKeys box key, AllBytes k := by
  intro k hm
  simp only [aKeys, List.mem_map] at hm
  obtain ⟨r, _, rfl⟩ := hm
  intro b hb
  obtain ⟨w, hw, hb⟩ := List.mem_flatten.1 hb
  refine aExpand_bytes box hbox 52 1 _ (by decide) ?_ w (List.mem_of_mem_drop (List.mem_of_mem_take hw)) b hb
  intro w hw
  obtain ⟨i, _, rfl⟩ := List.mem_map.1 hw
  exact (hk.drop _).take _

theorem aMix_bytes (f s : List Nat) (hs : AllBytes s) : AllBytes (aMix f s) := by
  have mul : ∀ n a b, a < 256 → aMul a b n < 256 := by
    intro n
    induction n with
    | zero => intro a b _; exact Nat.zero_lt_succ _
    | succ n ih =>
      intro a b ha
      rw [aMul]
      have h1 := ih a (b / 2) ha
      refine Nat.xor_lt_two_pow (n := 8) ?_ (by split <;> omega)
      unfold aTwice
      split
      · rename_i h; have : aMul a (b / 2) n < 128 := by simpa using h
        omega
      · exact Nat.xor_lt_two_pow (n := 8) (by omega) (by decide)
  intro b hb
  simp only [aMix, List.mem_map] at hb
  obtain ⟨i, _, rfl⟩ := hb
  have fold : ∀ (l : List Nat) (x : Nat), x < 256 → l.foldl (fun x j =>
      Nat.xor x (aMul (s.getD (4 * (i / 4) + j) 0) (f.getD ((j + 4 - i % 4) % 4) 0) 4)) x < 256 := by
    intro l
    induction l with
    | nil => intro x hx; exact hx
    | cons j l ih => intro x hx; exact ih _ (Nat.xor_lt_two_pow (n := 8) hx (mul _ _ _ (hs.getD _)))
  exact fold _ 0 (by decide)

theorem aEncrypt_bytes (box : List Nat) (keys : List (List Nat)) (b : List Nat) (hbox : AllBytes box)
    (hk : ∀ k ∈ keys, AllBytes k) (hb : AllBytes b) : AllBytes (aEncrypt box keys b) := by
  have shift : ∀ s : List Nat, AllBytes s → AllBytes (aShift false s) := fun s hs x hx => by
    simp only [aShift, List.mem_map] at hx
    obtain ⟨i, _, rfl⟩ := hx
    exact hs.getD _
  have sub : ∀ l : List Nat, AllBytes (l.map fun b => box.getD b 0) := fun l b hb => by
    obtain ⟨x, _, rfl⟩ := List.mem_map.1 hb
    exact hbox.getD x
  have fold : ∀ (ks : List (List Nat × Nat)) (s : List Nat), AllBytes s → (∀ k ∈ ks, AllBytes k.1) →
      AllBytes (ks.foldl (fun (s : List Nat) k =>
        let t := aShift false (s.map fun x => box.getD x 0)
        aXor (if k.2 == 13 then t else aMix [2, 3, 1, 1] t) k.1) s) := by
    intro ks
    induction ks with
    | nil => intro s hs _; exact hs
    | cons k ks ih =>
      intro s _ hks
      refine ih _ (AllBytes.aXor ?_ (hks k List.mem_cons_self)) fun k' h' => hks k' (List.mem_cons_of_mem _ h')
      split
      · exact shift _ (sub _)
      · exact aMix_bytes _ _ (shift _ (sub _))
  unfold aEncrypt
  refine fold _ _ (hb.aXor ?_) fun k hm => hk _ (List.mem_of_mem_drop (List.fst_mem_of_mem_zipIdx hm))
  rw [List.getD_eq_getElem?_getD]
  cases keys with
  | nil => intro x hx; simp at hx
  | cons k ks => exact hk k List.mem_cons_self

theorem gBytes_bytes (v : Nat) : AllBytes (gBytes v) := by
  intro b hb
  simp only [gBytes, List.mem_map] at hb
  obtain ⟨i, _, rfl⟩ := hb
  exact Nat.mod_lt _ (by decide)

/-- What is sealed is bytes. -/
theorem gcm_seal_bytes (g : Gcm) (m : List Nat) (hk : AllBytes g.key) (hi : AllBytes g.iv) (hm : AllBytes m) : AllBytes (g.seal m) := by
  have henc : ∀ n, AllBytes (aEncrypt aBox (aKeys aBox g.key) (g.iv ++ (gBytes n).drop 12)) := fun n =>
    aEncrypt_bytes _ _ _ aBox_allBytes (aKeys_bytes _ _ aBox_allBytes hk) (hi.append ((gBytes_bytes n).drop 12))
  have h1 : AllBytes (g.run m false).1 := by
    simp only [Gcm.run]
    exact AllBytes.flatMap fun i _ => AllBytes.aXor ((hm.drop _).take _) (henc _)
  have h2 : AllBytes (g.run m false).2 := by
    simp only [Gcm.run]
    exact (gBytes_bytes _).aXor (henc _)
  exact h1.append h2

/-! ### A session -/

/-- A request that the requester seals with the cipher of its number is opened (R414, R415). -/
theorem openSealed_seal (s : State) (code : Nat) (bs : List Byte) (h0 : s.spdm.session ≠ 0) (h1 : s.spdm.th1 ≠ [])
    (h2 : 2 ≤ bs.length) :
    let m := ([0x13, BitVec.ofNat 8 code] ++ bs).map fun (b : Byte) => b.toNat
    s.openSealed code s.spdm.session (((s.spdm.cipher true s.spdm.opened m.length).seal m).map (BitVec.ofNat 8)) =
      some ({ s with spdm := { s.spdm with opened := s.spdm.opened + 1 } }, bs) := by
  intro m
  have hg := gcm_unseal_seal (s.spdm.cipher true s.spdm.opened m.length) m
    (by simp [Spdm.cipher, derive_length]) (by simp [Spdm.cipher, derive_length, aXor_length, toBytes])
  have hb := gcm_seal_bytes (s.spdm.cipher true s.spdm.opened m.length) m (allBytes_toNat _)
    ((allBytes_toNat _).aXor (allBytes_toNat _)) (allBytes_toNat _)
  have hmap : ∀ l : List Nat, AllBytes l → (l.map (BitVec.ofNat 8)).map (fun b => b.toNat) = l := fun l hl => by
    rw [List.map_map]
    conv => rhs; rw [← List.map_id l]
    exact List.map_congr_left fun b hm => by simp [Nat.mod_eq_of_lt (hl b hm)]
  have hback : (m.map fun n => BitVec.ofNat 8 n) = [0x13, BitVec.ofNat 8 code] ++ bs := by
    rw [List.map_map]
    conv => rhs; rw [← List.map_id ([0x13, BitVec.ofNat 8 code] ++ bs)]
    exact List.map_congr_left fun b _ => by simp
  unfold State.openSealed
  have hl : (((s.spdm.cipher true s.spdm.opened m.length).seal m).map (BitVec.ofNat 8)).length - 16 = m.length := by
    rw [List.length_map, hg.2, Nat.add_sub_cancel]
  simp only [hl, hmap _ hb, hg.1, hback]
  simp [h0, h1]
  omega

end Sys2Proof.Machine
end

