-- ==== Sys2Proof/Tests/Slice0.lean ====
section
/-! SUPPORT. Tests: ill-formed terms, words of every row, single steps with results worked out from the manual, and for each
statement states that meet its hypotheses. -/

namespace Sys2Proof.Tests

open Sys2Proof Sys2Proof.Machine


set_option Elab.async false

/-! ### WellFormed: for each check a term that only it refuses -/

/-- Guards, rounding modes, widths, formats and the fields that must be zero in the vector rows (R44, R45, R50). -/
theorem test_ill_formed_vector : ∀ i ∈ ([
    .bra ⟨false, 8, 1⟩, .call ⟨false, 1, 1⟩, .mark ⟨false, 8, 1⟩, .iadd ⟨false, 8, 3, 1, 2, 0⟩, .iaddi ⟨false, 8, 3, 1, 5⟩,
    .shli ⟨false, 0, 3, 1, 32⟩, .popc ⟨false, 0, 3, 1, 1, 0⟩, .bfx ⟨false, 0, 3, 1, 2, 1⟩, .bfi ⟨false, 0, 3, 1, 2, 2⟩,
    .bcast ⟨false, 0, 3, 1, 4, 0⟩, .fadd ⟨false, 0, 3, 1, 2, 3⟩, .fabs ⟨false, 0, 3, 1, 1, 0⟩, .frcp ⟨false, 0, 3, 1, 0, 3⟩,
    .cvtff ⟨false, 0, 3, 1, 5, 0, 0⟩, .cvtff ⟨false, 0, 3, 1, 0, 3, 0⟩, .cvtff ⟨false, 0, 3, 1, 0, 0, 3⟩,
    .cvtfi ⟨false, 0, 3, 1, 0, 3, 0⟩, .cvtif ⟨false, 0, 3, 1, 0, 0, 3⟩, .cvtii ⟨false, 0, 3, 1, 7, 0, 0⟩,
    .fdotb ⟨false, 0, 3, 1, 2, 0⟩, .mov ⟨false, 0, 3, 1, 0, 1⟩, .mov ⟨false, 0, 3, 1, 1, 0⟩, .xrd ⟨false, 0, 3, 8, 0, 0⟩,
    .xwr ⟨false, 0, 8, 3, 0, 0⟩, .xset ⟨false, 0, 8, 3, 0, 0⟩, .xadd ⟨false, 1, 1, 3, 0, 0⟩, .xget ⟨false, 0, 3, 8, 0, 0⟩,
    .ruse ⟨false, 0, 0, 0, 0, 3⟩, .rclr ⟨false, 0, 0, 1, 0, 0⟩, .ballot ⟨false, 0, 3, 1, 4, 1⟩, .pcnt ⟨false, 0, 3, 1, 1, 0⟩,
    .lextId ⟨false, 0, 3, 0, 0, 0⟩, .lextHome ⟨false, 0, 3, 0, 0, 1⟩, .compact ⟨false, 0, 1, 0, 0, 0⟩] : List Instr),
    i.wf = false := by decide +kernel

/-- Scalar, compare, predicate and loop rows. -/
theorem test_ill_formed_scalar : ∀ i ∈ ([
    .bri ⟨false, 1, 4, 0, 0⟩, .calli ⟨false, 31, 4, 1, 0⟩, .ret ⟨false, 0, 31, 0, 1⟩, .yield ⟨false, 0, 0, 0, 1⟩,
    .nop ⟨false, 1, 0, 0, 0⟩, .loop ⟨false, 3, 4, 0, 1⟩, .loop ⟨false, 0, 4, 1, 1⟩, .loopi ⟨false, 0, 4, 1, 1⟩,
    .lbrk ⟨false, 3, 0, 0, 0⟩, .lbrk ⟨false, 0, 0, 0, 1⟩, .smin ⟨false, 3, 4, 5, 2⟩, .sadd ⟨false, 3, 4, 5, 1⟩,
    .smov ⟨false, 3, 4, 5, 0⟩, .sshli ⟨false, 3, 4, 64⟩, .sldi ⟨false, 3, 4, 0⟩, .slit ⟨false, 3, 1, 0⟩ 5, .slith ⟨false, 3, 0, 1⟩ 5,
    .icmp ⟨false, 6, 1, 1, 2, 0, 0⟩, .icmps ⟨false, 0, 1, 1, 2, 2, 0⟩, .fcmp ⟨false, 8, 1, 1, 2, 0, 0⟩, .fcmp ⟨false, 0, 1, 1, 2, 0, 3⟩,
    .scmp ⟨false, 0, 1, 1, 2, 0, 1⟩, .pnot ⟨false, 1, 2, 3⟩, .pseta ⟨false, 1, 2, 0⟩, .pclr ⟨false, 1, 0, 3⟩] : List Instr),
    i.wf = false := by decide +kernel

/-- Memory rows. -/
theorem test_ill_formed_memory : ∀ i ∈ ([
    .ldl ⟨false, 8, 4, 4, 1, 0⟩, .ldq ⟨false, 0, 10, 4, 1, 0⟩, .ldq ⟨false, 0, 10, 4, 0, 3⟩, .stq ⟨false, 0, 8, 4, 5, 3⟩,
    .stq ⟨false, 0, 8, 4, 0, 5⟩, .stq ⟨false, 0, 25, 4, 0, 0⟩, .fence ⟨false, 0, 0, 0, 7⟩, .ldacq ⟨false, 3, 4, 1, 0⟩,
    .ldacq ⟨false, 3, 4, 0, 7⟩, .strel ⟨false, 1, 4, 5, 0⟩, .strel ⟨false, 0, 4, 5, 32⟩, .pfd ⟨false, 0, 4, 0, 2⟩,
    .l1inv ⟨false, 0, 4, 0, 32⟩, .l1wb ⟨false, 0, 4, 5, 1⟩, .aadd ⟨false, 0, 4, 4, 7, false, false, 0⟩,
    .aadd ⟨false, 0, 4, 4, 0, false, false, 2⟩, .aadd ⟨false, 0, 31, 4, 0, false, false, 0⟩, .aadd ⟨false, 0, 4, 4, 0, false, true, 0⟩,
    .afadd ⟨false, 0, 4, 4, 0, false, false, 0⟩, .acas ⟨false, 0, 30, 4, 0, false, false, 0⟩,
    .acas ⟨false, 0, 4, 4, 0, true, false, 0⟩, .amin ⟨false, 8, 4, 4, 0, false, false, 0⟩] : List Instr), i.wf = false := by decide +kernel

/-- The rows of the engines, the fabric, the system and launches (format E). -/
theorem test_ill_formed_engine : ∀ i ∈ ([
    .barv ⟨false, 0, 0, 16, 1⟩, .barw ⟨false, 0, 0, 0, 5⟩, .bari ⟨false, 1, 0, 0, 1⟩, .cpy ⟨false, 4, 0, 0, 12⟩,
    .cpy ⟨false, 30, 0, 0, 0⟩, .cpyp ⟨false, 4, 0, 0, 5⟩, .gath ⟨false, 28, 0, 0, 0⟩, .scat ⟨false, 4, 0, 0, 1⟩,
    .bclose ⟨false, 4, 0, 0, 4⟩, .bwait ⟨false, 1, 4, 0, 0⟩, .bstat ⟨false, 4, 0, 2, 0⟩, .push ⟨false, 2, 0, 4, 0⟩,
    .pop ⟨false, 1, 9, 0, 3⟩, .peos ⟨false, 0, 0, 4, 0⟩, .pstat ⟨false, 1, 1, 0, 0⟩, .mapset ⟨false, 4, 0, 8, 0⟩,
    .mapset ⟨false, 4, 0, 0, 5⟩, .gang ⟨false, 4, 1, 0, 0⟩, .accz ⟨false, 1, 0, 0, 0⟩, .accrd ⟨false, 1, 4, 1, 0⟩,
    .mma ⟨false, 8, 0, 0, 0⟩, .mmaz ⟨false, 0, 8, 0, 0⟩, .clook ⟨false, 3, 1, 4, 1⟩, .cnode ⟨false, 3, 25, 0, 0⟩,
    .cwalk ⟨false, 3, 4, 5, 32⟩, .cref ⟨false, 3, 1, 0, 0⟩, .cnew ⟨false, 0, 4, 5, 16⟩, .croot ⟨false, 3, 4, 0, 2⟩,
    .cout ⟨false, 29, 0, 0, 0⟩, .ldv ⟨false, 3, 4, 5, 2⟩, .vpin ⟨false, 1, 4, 5, 0⟩, .stepr ⟨false, 3, 4, 0, 1⟩,
    .pexc ⟨false, 0, 4, 0, 2⟩, .plead ⟨false, 0, 4, 0, 1⟩, .qopen ⟨false, 30, 0, 0, 0⟩, .qcont ⟨false, 31, 0, 0, 0⟩,
    .qstat ⟨false, 3, 4, 0, 2⟩, .rld ⟨false, 3, 4, 5, 0⟩, .rst ⟨false, 3, 4, 0, 8⟩, .ratom ⟨false, 3, 4, 0, 10⟩,
    .ratom ⟨false, 3, 4, 0, 1⟩, .ratom ⟨false, 3, 4, 1, 0⟩, .ratom ⟨false, 3, 4, 0, 41⟩, .ratom ⟨false, 30, 4, 0, 9⟩,
    .putsig ⟨false, 28, 0, 0, 0⟩, .rfence ⟨false, 0, 0, 0, 4⟩, .trap ⟨false, 1, 0, 0, 0⟩, .rett ⟨false, 0, 0, 0, 2⟩,
    .srd ⟨false, 3, 1, 0, 0⟩, .swr ⟨false, 1, 4, 0, 0⟩, .tlbinv ⟨false, 4, 5, 0, 1⟩, .keykill ⟨false, 4, 1, 0, 0⟩,
    .haltStop ⟨false, 0, 6, 0, 2⟩, .haltSwap ⟨false, 0, 6, 0, 1⟩, .haltGo ⟨false, 0, 6, 1, 3⟩, .launch ⟨false, 4, 5, 0, 1⟩,
    .launchPro ⟨false, 4, 5, 0, 0⟩, .lcancelAgain ⟨false, 0, 6, 0, 0⟩, .qtake ⟨false, 31, 0, 0, 0⟩, .tspawn ⟨false, 29, 0, 0, 0⟩,
    .tsteal ⟨false, 12, 13, 0, 0⟩] : List Instr), i.wf = false := by decide +kernel

/-- The largest values that the checks admit. -/
theorem test_well_formed_bounds : ∀ i ∈ ([
    .bra ⟨false, 15, 65535⟩, .shli ⟨false, 15, 31, 31, 31⟩, .cvtff ⟨false, 7, 31, 31, 4, 2, 2⟩, .xrd ⟨false, 7, 31, 7, 31, 0⟩,
    .loop ⟨true, 2, 31, 0, 255⟩, .sshli ⟨false, 31, 31, 63⟩, .icmp ⟨false, 5, 127, 31, 31, 1, 3⟩, .fcmp ⟨false, 7, 127, 31, 31, 1, 2⟩,
    .stq ⟨false, 15, 24, 31, 4, 0⟩, .stq ⟨false, 15, 24, 31, 4, 8⟩, .stq ⟨false, 15, 31, 31, 4, 4⟩, .fence ⟨false, 0, 0, 0, 6⟩,
    .ldacq ⟨false, 31, 31, 0, 30⟩, .aadd ⟨false, 15, 30, 31, 6, true, false, 1⟩, .acas ⟨false, 15, 29, 31, 6, false, false, 1⟩,
    .bars ⟨false, 0, 0, 15, 4⟩, .cpy ⟨false, 27, 0, 0, 11⟩, .gath ⟨false, 27, 0, 0, 16⟩, .mapset ⟨false, 31, 0, 7, 24⟩,
    .cnode ⟨false, 31, 24, 0, 0⟩, .ratom ⟨false, 29, 31, 0, 25⟩, .tsteal ⟨false, 28, 27, 0, 0⟩, .tsteal ⟨false, 4, 8, 0, 0⟩,
    .trap ⟨true, 0, 0, 31, 63⟩] : List Instr), i.wf = true := by decide +kernel

/-! ### Decode: words written out bit by bit from the encodings -/

/-- The manual's worked encodings and the words beside its example programs. -/
theorem test_decode_manual_words : ∀ x ∈ ([
    (0x08003088, .iadd ⟨false, 0, 3, 1, 2, 0⟩), (0x88003088, .iadd ⟨true, 0, 3, 1, 2, 0⟩),
    (0x22567299, .fmul ⟨false, 11, 7, 5, 6, 1⟩), (0x10052FFF, .saddi ⟨false, 5, 5, 0x7FF⟩),
    (0x40004204, .ldl ⟨false, 0, 4, 4, 1, 0⟩), (0x10042080, .saddi ⟨false, 4, 4, 128⟩), (0x78000123, .trap ⟨false, 0, 0, 4, 35⟩),
    (0x78200000, .rett ⟨false, 0, 0, 0, 0⟩), (0x78470030, .srd ⟨false, 7, 0, 0, 48⟩), (0x78600030, .swr ⟨false, 0, 0, 0, 48⟩),
    (0x78852000, .tlbinv ⟨false, 5, 4, 0, 0⟩), (0x78A50000, .keykill ⟨false, 5, 0, 0, 0⟩), (0x78C00000, .haltIdle),
    (0x78C03002, .haltSwap ⟨false, 0, 6, 0, 2⟩), (0x78E00007, .bkpt ⟨false, 0, 0, 0, 7⟩), (0x7C053000, .launch ⟨false, 5, 6, 0, 0⟩),
    (0x7C053001, .launchPro ⟨false, 5, 6, 0, 1⟩), (0x7C200000, .lcancel ⟨false, 0, 0, 0, 0⟩),
    (0x7C203001, .lcancelAgain ⟨false, 0, 6, 0, 1⟩), (0x7C4531C0, .qpost ⟨false, 5, 6, 7, 0⟩), (0x7C680000, .qtake ⟨false, 8, 0, 0, 0⟩),
    (0x7C8C0000, .tspawn ⟨false, 12, 0, 0, 0⟩), (0x7CAC4800, .tsteal ⟨false, 12, 9, 0, 0⟩), (0x2A208203, .stq ⟨false, 0, 8, 4, 0, 3⟩),
    (0x2A00A200, .ldq ⟨false, 0, 10, 4, 0, 0⟩), (0x52020042, .push ⟨false, 2, 0, 1, 2⟩), (0x52214802, .pop ⟨false, 1, 9, 0, 2⟩),
    (0x14404220, .icmp ⟨false, 2, 1, 1, 2, 0, 0⟩), (0x12C09113, .lea ⟨false, 0, 9, 2, 4, 3⟩), (0x0F432141, .smin ⟨false, 3, 4, 5, 1⟩),
    (0x20006180, .mov ⟨false, 0, 6, 3, 0, 0⟩), (0x2020708C, .xrd ⟨false, 0, 7, 1, 3, 0⟩), (0x20401494, .xwr ⟨false, 0, 1, 9, 5, 0⟩),
    (0x20601480, .xset ⟨false, 0, 1, 9, 0, 0⟩), (0x20801500, .xadd ⟨false, 0, 1, 10, 0, 0⟩), (0x20A0B080, .xget ⟨false, 0, 11, 1, 0, 0⟩),
    (0x20C00001, .ruse ⟨false, 0, 0, 0, 0, 1⟩), (0x20E00000, .rclr ⟨false, 0, 0, 0, 0, 0⟩)] : List (Nat × Instr)),
    decodeTableWord 32 x.1 = some x.2 := by decide +kernel

/-- The example word that the manual gives beside each form of the rows from 0x18 on. -/
theorem test_decode_cross_lane_and_memory_examples : ∀ x ∈ ([
    (0x30003088, .shfl ⟨false, 0, 3, 1, 2, 0⟩), (0x3020308B, .shflx ⟨false, 0, 3, 1, 2, 3⟩), (0x30404098, .bcl ⟨false, 0, 4, 1, 6, 0⟩),
    (0x30605100, .ballot ⟨false, 0, 5, 2, 0, 0⟩), (0x30806100, .vany ⟨false, 0, 6, 2, 0, 0⟩), (0x30A06100, .vall ⟨false, 0, 6, 2, 0, 0⟩),
    (0x30C07100, .pcnt ⟨false, 0, 7, 2, 0, 0⟩), (0x30E07100, .pfirst ⟨false, 0, 7, 2, 0, 0⟩), (0x31008080, .scan ⟨false, 0, 8, 1, 0, 0⟩),
    (0x3120808D, .scanx ⟨false, 0, 8, 1, 3, 1⟩), (0x31409080, .red ⟨false, 0, 9, 1, 0, 0⟩), (0x31807190, .lext ⟨false, 0, 7, 3, 4, 0⟩),
    (0x31807002, .lextHome ⟨false, 0, 7, 0, 0, 2⟩), (0x31A02298, .lins ⟨false, 0, 2, 5, 6, 0⟩), (0x40204225, .ldg ⟨false, 0, 4, 4, 9, 1⟩),
    (0x40E02288, .lduRo ⟨false, 0, 2, 5, 2, 0⟩), (0x42006300, .stl ⟨false, 0, 6, 6, 0, 0⟩), (0x42206024, .stg ⟨false, 0, 6, 0, 9, 0⟩),
    (0x44000003, .fence ⟨false, 0, 0, 0, 3⟩), (0x4425200B, .ldacq ⟨false, 5, 4, 0, 11⟩), (0x4440218B, .strel ⟨false, 0, 4, 6, 11⟩),
    (0x44600020, .l1inv ⟨false, 0, 0, 0, 32⟩), (0x4A000142, .barv ⟨false, 0, 0, 5, 2⟩), (0x4A200142, .barw ⟨false, 0, 0, 5, 2⟩),
    (0x4A400003, .bars ⟨false, 0, 0, 0, 3⟩), (0x4A6048C4, .bari ⟨false, 0, 9, 3, 4⟩)] : List (Nat × Instr)),
    decodeTableWord 32 x.1 = some x.2 := by decide +kernel

theorem test_decode_engine_examples : ∀ x ∈ ([
    (0x50080004, .cpy ⟨false, 8, 0, 0, 4⟩), (0x502A0002, .cpyp ⟨false, 10, 0, 0, 2⟩), (0x504C0000, .gath ⟨false, 12, 0, 0, 0⟩),
    (0x506C0010, .scat ⟨false, 12, 0, 0, 16⟩), (0x508A0000, .bclose ⟨false, 10, 0, 0, 0⟩), (0x50A05000, .bwait ⟨false, 0, 10, 0, 0⟩),
    (0x50C50001, .bstat ⟨false, 5, 0, 0, 1⟩), (0x52400040, .peos ⟨false, 0, 0, 1, 0⟩), (0x52670000, .pstat ⟨false, 7, 0, 0, 0⟩),
    (0x580021C0, .mma ⟨false, 0, 4, 7, 0⟩), (0x58212000, .mmaz ⟨false, 1, 4, 0, 0⟩), (0x58643000, .accrd ⟨false, 4, 6, 0, 0⟩),
    (0x58843000, .accwr ⟨false, 4, 6, 0, 0⟩), (0x58A80000, .gang ⟨false, 8, 0, 0, 0⟩), (0x58CB0113, .mapset ⟨false, 11, 0, 4, 19⟩),
    (0x58EC0000, .winset ⟨false, 12, 0, 0, 0⟩), (0x60051980, .clook ⟨false, 5, 3, 6, 0⟩), (0x60254000, .cnode ⟨false, 5, 8, 0, 0⟩),
    (0x60442980, .cread ⟨false, 4, 5, 6, 0⟩), (0x60672A42, .cwalk ⟨false, 7, 5, 9, 2⟩), (0x60850000, .cref ⟨false, 5, 0, 0, 0⟩),
    (0x60A50000, .crel ⟨false, 5, 0, 0, 0⟩), (0x60C52001, .croot ⟨false, 5, 4, 0, 1⟩), (0x60E52180, .cswap ⟨false, 5, 4, 6, 0⟩),
    (0x610C0000, .cout ⟨false, 12, 0, 0, 0⟩), (0x61202141, .cnew ⟨false, 0, 4, 5, 1⟩)] : List (Nat × Instr)),
    decodeTableWord 32 x.1 = some x.2 := by decide +kernel

theorem test_decode_chain_and_system_examples : ∀ x ∈ ([
    (0x68042140, .ldv ⟨false, 4, 4, 5, 0⟩), (0x68252180, .publ ⟨false, 5, 4, 6, 0⟩), (0x68472000, .vstep ⟨false, 7, 4, 0, 0⟩),
    (0x68602180, .vpin ⟨false, 0, 4, 6, 0⟩), (0x6A004800, .stepa ⟨false, 0, 9, 0, 0⟩), (0x6A270001, .stepr ⟨false, 7, 0, 0, 1⟩),
    (0x6A274802, .stepr ⟨false, 7, 9, 0, 2⟩), (0x6A404800, .pexc ⟨false, 0, 9, 0, 0⟩), (0x6A404801, .pexc ⟨false, 0, 9, 0, 1⟩),
    (0x6A604800, .plead ⟨false, 0, 9, 0, 0⟩), (0x6C0A0000, .qopen ⟨false, 10, 0, 0, 0⟩), (0x6C2E0000, .qcont ⟨false, 14, 0, 0, 0⟩),
    (0x6C474800, .qwait ⟨false, 7, 9, 0, 0⟩), (0x6C700000, .qread ⟨false, 16, 0, 0, 0⟩), (0x6C874800, .qstat ⟨false, 7, 9, 0, 0⟩),
    (0x70042800, .rld ⟨false, 4, 5, 0, 0⟩), (0x70042A45, .rld ⟨false, 4, 5, 9, 5⟩), (0x70262800, .rst ⟨false, 6, 5, 0, 0⟩),
    (0x704A0000, .putsig ⟨false, 10, 0, 0, 0⟩), (0x70682830, .ratom ⟨false, 8, 5, 0, 48⟩), (0x70800005, .rfence ⟨false, 0, 0, 0, 5⟩),
    (0x70800006, .rfence ⟨false, 0, 0, 0, 6⟩)] : List (Nat × Instr)), decodeTableWord 32 x.1 = some x.2 := by decide +kernel

/-- A word of every other row, written as the manual adds it up: MAJ x 2^25 + MIN x 2^21 and the fields at the positions of
R43. -/
theorem test_decode_rows : ∀ x ∈ ([
    (0x01 * 2 ^ 25 + 4 * 2 ^ 21 + 0x1FFFF, .mark ⟨false, 0, 0x1FFFF⟩), (0x02 * 2 ^ 25 + 1 * 2 ^ 21 + 31 * 2 ^ 16 + 4 * 2 ^ 11, .calli ⟨false, 31, 4, 0, 0⟩),
    (0x02 * 2 ^ 25 + 3 * 2 ^ 21, .join), (0x02 * 2 ^ 25 + 4 * 2 ^ 21, .exit),
    (0x03 * 2 ^ 25 + 1 * 2 ^ 21 + 2 * 2 ^ 19 + 63 * 2 ^ 8 + 9, .loopi ⟨false, 2, 0, 63, 9⟩),
    (0x05 * 2 ^ 25 + 7 * 2 ^ 21 + 9 * 2 ^ 17 + 3 * 2 ^ 12 + 1 * 2 ^ 7 + 31, .sari ⟨false, 9, 3, 1, 31⟩),
    (0x06 * 2 ^ 25 + 9 * 2 ^ 21 + 1 * 2 ^ 17 + 3 * 2 ^ 12 + 1 * 2 ^ 7 + 2 * 2 ^ 2, .sel ⟨false, 1, 3, 1, 2, 0⟩),
    (0x0B * 2 ^ 25 + 7 * 2 ^ 21 + 5 * 2 ^ 14 + 1 * 2 ^ 9 + 2 * 2 ^ 4 + 1 * 2 ^ 2 + 2, .fcmp ⟨false, 7, 5, 1, 2, 1, 2⟩),
    (0x0C * 2 ^ 25 + 3 * 2 ^ 21 + 5 * 2 ^ 14 + 1 * 2 ^ 9 + 9 * 2 ^ 4 + 1, .icmps ⟨false, 3, 5, 1, 9, 0, 1⟩),
    (0x0D * 2 ^ 25 + 3 * 2 ^ 21 + 5 * 2 ^ 14 + 6 * 2 ^ 7 + 7, .pandn ⟨false, 5, 6, 7⟩),
    (0x0E * 2 ^ 25 + 5 * 2 ^ 21 + 5 * 2 ^ 14 + 8 * 2 ^ 9 + 9 * 2 ^ 4 + 1 * 2 ^ 2, .scmp ⟨false, 5, 5, 8, 9, 1, 0⟩),
    (0x12 * 2 ^ 25 + 7 * 2 ^ 21 + 3 * 2 ^ 12 + 1 * 2 ^ 7 + 2, .ftanh ⟨false, 0, 3, 1, 0, 2⟩),
    (0x13 * 2 ^ 25 + 1 * 2 ^ 21 + 3 * 2 ^ 12 + 1 * 2 ^ 7 + 4 * 2 ^ 4 + 2 * 2 ^ 2 + 3, .cvtfi ⟨false, 0, 3, 1, 4, 2, 3⟩),
    (0x14 * 2 ^ 25 + 3 * 2 ^ 21 + 3 * 2 ^ 12 + 1 * 2 ^ 7 + 2 * 2 ^ 2 + 1, .fdotb ⟨false, 0, 3, 1, 2, 1⟩),
    (0x18 * 2 ^ 25 + 9 * 2 ^ 21 + 3 * 2 ^ 12 + 1 * 2 ^ 7 + 2 * 2 ^ 2 + 1, .scanx ⟨false, 0, 3, 1, 2, 1⟩),
    (0x21 * 2 ^ 25 + 1 * 2 ^ 21 + 3 * 2 ^ 12 + 4 * 2 ^ 7 + 5 * 2 ^ 2 + 3, .stg ⟨false, 0, 3, 4, 5, 3⟩),
    (0x22 * 2 ^ 25 + 1 * 2 ^ 21 + 3 * 2 ^ 16 + 4 * 2 ^ 11 + 26, .ldacq ⟨false, 3, 4, 0, 26⟩),
    (0x24 * 2 ^ 25 + 2 * 2 ^ 21 + 8 * 2 ^ 12 + 4 * 2 ^ 7 + 5 * 2 ^ 4 + 1 * 2 ^ 3 + 1 * 2 ^ 2 + 1, .amin ⟨false, 0, 8, 4, 5, true, true, 1⟩),
    (0x25 * 2 ^ 25 + 3 * 2 ^ 21 + 7 * 2 ^ 11 + 15 * 2 ^ 6 + 4, .bari ⟨false, 0, 7, 15, 4⟩),
    (0x28 * 2 ^ 25 + 5 * 2 ^ 21 + 7 * 2 ^ 11 + 3, .bwait ⟨false, 0, 7, 0, 3⟩),
    (0x2C * 2 ^ 25 + 0 * 2 ^ 21 + 3 * 2 ^ 16 + 5 * 2 ^ 11 + 9 * 2 ^ 6, .mma ⟨false, 3, 5, 9, 0⟩),
    (0x30 * 2 ^ 25 + 3 * 2 ^ 21 + 3 * 2 ^ 16 + 5 * 2 ^ 11 + 9 * 2 ^ 6 + 22, .cwalk ⟨false, 3, 5, 9, 22⟩),
    (0x34 * 2 ^ 25 + 0 * 2 ^ 21 + 3 * 2 ^ 16 + 5 * 2 ^ 11 + 9 * 2 ^ 6 + 1, .ldv ⟨false, 3, 5, 9, 1⟩),
    (0x35 * 2 ^ 25 + 1 * 2 ^ 21 + 3 * 2 ^ 16 + 5 * 2 ^ 11 + 2, .stepr ⟨false, 3, 5, 0, 2⟩),
    (0x36 * 2 ^ 25 + 4 * 2 ^ 21 + 3 * 2 ^ 16 + 5 * 2 ^ 11 + 1, .qstat ⟨false, 3, 5, 0, 1⟩),
    (0x38 * 2 ^ 25 + 3 * 2 ^ 21 + 4 * 2 ^ 16 + 5 * 2 ^ 11 + 1 * 2 ^ 6 + 50, .ratom ⟨false, 4, 5, 1, 50⟩)] : List (Nat × Instr)),
    decodeTableWord 32 x.1 = some x.2 := by decide +kernel

/-- SLIT and SLITH take the word after them as their literal (R52); words that the map leaves undefined, the all-zero word, a
reserved guard, and a field that must be zero are not read (R44, R53, R54). -/
theorem test_decode_literal_and_refused :
    decodeTableWord 64 (0x08 * 2 ^ 25 + 7 * 2 ^ 21 + 3 * 2 ^ 16 + 0x89ABCDEF * 2 ^ 32) = some (.slit ⟨false, 3, 0, 0⟩ 0x89ABCDEF) ∧
    decodeTableWord 64 (0x08 * 2 ^ 25 + 8 * 2 ^ 21 + 3 * 2 ^ 16 + 7 * 2 ^ 32) = some (.slith ⟨false, 3, 0, 0⟩ 7) ∧
    ∀ w ∈ [0, 0x3F * 2 ^ 25, 0x0F * 2 ^ 25, 0x16 * 2 ^ 25 + 5, 0x03 * 2 ^ 25 + 3 * 2 ^ 21, 0x04 * 2 ^ 25 + 8 * 2 ^ 17,
      0x0A * 2 ^ 25 + 6 * 2 ^ 21, 0x02 * 2 ^ 25 + 6 * 2 ^ 21 + 1, 0x25 * 2 ^ 25], decodeTableWord 32 w = none := by decide +kernel

/-! ### Small states -/

/-- A team of 32 lanes on core 0 of context 1, with a trap handler at 0x400. -/
def team : Team := { probeTeam 9 with trap := { entry := 0x400 } }

/-- The same with lanes of v1 and v2 and scalars set. -/
def busy : Team :=
  { team with
    v := [(1, List.replicate 32 0xFFFFFFFF00000005), (2, List.replicate 32 0x0000000100000003)]
    sr := [(4, 7), (5, 0xFFFFFFFFFFFFFFFF)] }

/-- A block of the team with 1,024 bytes of scratchpad and 64 accumulator rows. -/
def block : Block := { core := 0, ctx := 1, launch := 0, record := 0, scratchSize := 1024, accRows := 64 }

/-- A package in which a team issues for core 0: its context owns the page at 0x100000, which virtual address 0 maps with
every permission but execution. -/
def on (t : Team) : State :=
  { State.reset with
    actor := 0, serial := 10, teams := Table.put State.reset.teams 0 t, ctxs := [(1, probeContext)], blocks := [(0, block)]
    parts := [(1, { live := 1 })], quads := [(0, { part := 1 })], owners := [(16, 1)]
    tlb := [(0, [{ ctx := 1, base := 0, size := 65536, leaf := 0x10002F }])] }

/-- A package in which the system thread of die 0 issues, with scalars. -/
def onSystem (sr : Table Word) : State :=
  { on team with
    actor := sysKey 0, teams := Table.put (on team).teams (sysKey 0) { Team.thread 1 .system 2 .ready with sr := sr } }

def sysTeam (sr : Table Word) : Team := { Team.thread 1 .system 2 .ready with sr := sr }

/-- The state a step ends in. -/
def result (o : Host.Outcome State Fault Refusal) : Option State :=
  match o with
  | .next s => some s
  | _ => none

/-- A team after an instruction. -/
def after (i : Instr) (s : State) (k : Nat) : Option Team := (result (exec i s)).bind fun s' => s'.team? k

/-- A team found by its identity stands at one key only, where the list of teams shows it. -/
theorem uid_unique {s : State} {k n : Nat} (h : ∀ e ∈ s.teams, e.2.uid = n → e.1 = k) :
    ∀ j u, s.team? j = some u → u.uid = n → j = k := by
  intro j u hj hu
  have : ∀ (l : Table Team), Table.find? l j = some u → (j, u) ∈ l := by
    intro l
    induction l with
    | nil => intro h; simp [Table.find?] at h
    | cons e l ih =>
      obtain ⟨a, b⟩ := e
      intro h
      unfold Table.find? at h
      split at h
      · rename_i hk
        simp only [beq_iff_eq] at hk
        cases h
        subst hk
        exact List.mem_cons_self
      · split at h
        · simp at h
        · exact List.mem_cons_of_mem _ (ih h)
  exact h (j, u) (this _ hj) hu

/-! ### Registers, scalar and vector arithmetic -/

/-- Each scalar form is ready on the small state, so the statements of rows 0x07 and 0x08 speak of it. -/
theorem wit_ScalarArithmetic : ∀ i ∈ ([.sadd ⟨false, 3, 4, 5, 0⟩, .ssub ⟨false, 3, 4, 5, 0⟩, .smul ⟨false, 3, 4, 5, 0⟩,
    .smulh ⟨false, 3, 4, 5, 1⟩, .sand ⟨false, 3, 4, 5, 0⟩, .sor ⟨false, 3, 4, 5, 0⟩, .sxor ⟨false, 3, 4, 5, 0⟩,
    .sshl ⟨false, 3, 4, 5, 0⟩, .sshr ⟨false, 3, 4, 5, 0⟩, .ssar ⟨false, 3, 4, 5, 0⟩, .smin ⟨false, 3, 4, 5, 1⟩,
    .smax ⟨false, 0, 4, 5, 0⟩, .smov ⟨false, 3, 4, 0, 0⟩, .saddi ⟨false, 3, 4, 0x7FF⟩, .sandi ⟨false, 3, 4, 1⟩, .sori ⟨false, 3, 4, 1⟩,
    .sxori ⟨false, 3, 4, 1⟩, .sshli ⟨false, 3, 4, 63⟩, .sshri ⟨false, 3, 4, 63⟩, .sldi ⟨false, 3, 0, 0x7FF⟩, .slit ⟨false, 3, 0, 0⟩ 5,
    .slith ⟨false, 3, 0, 0⟩ 5] : List Instr), Ready (on busy) 0 busy i := by
  unfold Ready; decide +kernel

/-- The literal's other clause: a loop body that ends at the word of a SLIT. -/
theorem wit_ScalarArithmetic_literal : let t := { busy with loops := [{ first := 0, last := 0, count := 2 }] }
    Ready (on t) 0 t (.slit ⟨false, 3, 0, 0⟩ 5) ∧ t.trap.inh = false ∧ ∃ l ∈ t.loops, l.last = t.pc := by
  unfold Ready; decide +kernel

/-- Sums wrap, products go both ways, shifts take their count modulo 64, and s0 ignores a write (R103, R110, R111). -/
theorem test_scalar : ∀ x ∈ ([(.sadd ⟨false, 3, 4, 5, 0⟩, 3, 6), (.ssub ⟨false, 3, 5, 4, 0⟩, 3, 0xFFFFFFFFFFFFFFF8),
    (.smul ⟨false, 3, 5, 5, 0⟩, 3, 1), (.smulh ⟨false, 3, 5, 4, 0⟩, 3, 0xFFFFFFFFFFFFFFFF), (.smulh ⟨false, 3, 5, 4, 1⟩, 3, 6),
    (.sand ⟨false, 3, 4, 5, 0⟩, 3, 7), (.sor ⟨false, 3, 4, 5, 0⟩, 3, 0xFFFFFFFFFFFFFFFF), (.sxor ⟨false, 3, 4, 5, 0⟩, 3, 0xFFFFFFFFFFFFFFF8),
    (.sshl ⟨false, 3, 4, 5, 0⟩, 3, 0x8000000000000000), (.sshr ⟨false, 3, 5, 4, 0⟩, 3, 0x01FFFFFFFFFFFFFF),
    (.ssar ⟨false, 3, 5, 4, 0⟩, 3, 0xFFFFFFFFFFFFFFFF), (.smin ⟨false, 3, 4, 5, 0⟩, 3, 0xFFFFFFFFFFFFFFFF), (.smin ⟨false, 3, 4, 5, 1⟩, 3, 7),
    (.smax ⟨false, 3, 4, 5, 0⟩, 3, 7), (.sadd ⟨false, 0, 4, 5, 0⟩, 0, 0), (.saddi ⟨false, 5, 4, 0x7FF⟩, 5, 6),
    (.sldi ⟨false, 3, 0, 0x400⟩, 3, 0xFFFFFFFFFFFFFC00), (.slit ⟨false, 3, 0, 0⟩ 0x80000000, 3, 0xFFFFFFFF80000000),
    (.slith ⟨false, 4, 0, 0⟩ 0x12345678, 4, 0x1234567800000007)] : List (Instr × BitVec 5 × Word)),
    (after x.1 (on busy) 0).map (fun t => t.s x.2.1) = some x.2.2 := by decide +kernel

/-- The register statement: a team at user level with a predicate number at its declared count, and one below. -/
theorem wit_HardwiredRegisters : team.role = .alone ∧ privileged team (.pand ⟨false, 1, 8, 2⟩) = false ∧
    (Instr.pand ⟨false, 1, 8, 2⟩).wf = true ∧ formCause team (.pand ⟨false, 1, 8, 2⟩) = some 41 ∧
    formCause team (.pand ⟨false, 1, 7, 2⟩) = none := by decide +kernel

/-- Each clause of the statement on the end of a chain. -/
theorem wit_GoingPastAWord :
    let l : LoopLevel := { first := 0x10, last := 0, count := 2 }
    (∃ t : Team, t.trap.inh = true) ∧ (∃ t : Team, t.trap.inh = false ∧ t.loops = [l] ∧ l.last = t.pc ∧ 1 < l.count) ∧
    (∃ (t : Team) (y : LoopLevel), t.trap.inh = false ∧ t.loops = [y] ∧ y.last = t.pc ∧ y.count ≤ 1) ∧
    (∃ (t : Team) (y : LoopLevel), t.trap.inh = false ∧ t.loops = [y] ∧ y.last ≠ t.pc) ∧
    ∃ (t : Team) (x y : LoopLevel), t.trap.inh = false ∧ t.loops = [x] ++ [y] ∧ x.last = t.pc ∧ x.count ≤ 1 ∧ y.last = t.pc ∧ 1 < y.count :=
  ⟨⟨{ team with trap := { inh := true } }, rfl⟩, ⟨{ team with loops := [⟨0x10, 0, 2⟩] }, rfl, rfl, rfl, by decide⟩,
    ⟨{ team with loops := [⟨0x10, 0, 1⟩] }, ⟨0x10, 0, 1⟩, rfl, rfl, rfl, by decide⟩,
    ⟨{ team with loops := [⟨0x10, 8, 1⟩] }, ⟨0x10, 8, 1⟩, rfl, rfl, by decide⟩,
    ⟨{ team with loops := [⟨0x10, 0, 1⟩, ⟨0x20, 0, 3⟩] }, ⟨0x10, 0, 1⟩, ⟨0x20, 0, 3⟩, rfl, rfl, rfl, by decide, rfl, by decide⟩⟩

/-- A loop body of one word goes back with its count lowered, and goes on after its last pass; where the level outside it ends at
the same word, that one goes back (R90). -/
theorem test_back_edge :
    (after (.saddi ⟨false, 4, 4, 1⟩) (on { busy with loops := [{ first := 0, last := 0, count := 2 }] }) 0).map
      (fun t => (t.pc, t.loops.map fun l => l.count)) = some (0, [1]) ∧
    (after (.saddi ⟨false, 4, 4, 1⟩) (on { busy with loops := [{ first := 0, last := 0, count := 1 }] }) 0).map
      (fun t => (t.pc, t.loops.length)) = some (4, 0) ∧
    (after (.saddi ⟨false, 4, 4, 1⟩) (on { busy with loops := [⟨0, 0, 1⟩, ⟨0x20, 0, 3⟩] }) 0).map
      (fun t => (t.pc, t.loops.map fun l => l.count)) = some (0x20, [2]) := by decide +kernel

/-- Every vector form of rows 0x04 to 0x06 and 0x09 is ready, with no poisoned source. -/
theorem wit_IntegerArithmetic : (∀ r, busy.poisonStop r = none) ∧ (on busy).SliceRoom 0 ∧
    (∀ x ∈ ([Instr.iadd, .isub, .imul, .imulh, .imac, .imin, .imax, .umin, .umax, .and, .or, .xor, .andn, .shl, .shr, .sar, .iadds,
      .isubs, .uadds, .usubs, .sel] : List (FmtV → Instr)), Ready (on busy) 0 busy (x ⟨false, 0, 3, 1, 2, 0⟩)) ∧
    (∀ x ∈ ([Instr.popc, .clz, .brev] : List (FmtV → Instr)), Ready (on busy) 0 busy (x ⟨false, 0, 3, 1, 0, 3⟩)) ∧
    (∀ x ∈ ([Instr.bfx, .bfi] : List (FmtV → Instr)), Ready (on busy) 0 busy (x ⟨false, 0, 3, 1, 2, 3⟩)) ∧
    (∀ x ∈ ([Instr.iaddi, .imuli, .andi, .ori, .xori, .shli, .shri, .sari] : List (FmtVI → Instr)),
      Ready (on busy) 0 busy (x ⟨false, 0, 3, 1, 31⟩)) ∧
    ∀ x ∈ ([Instr.adds, .subs, .muls, .shls, .ands, .lea] : List (FmtVS → Instr)), Ready (on busy) 0 busy (x ⟨false, 0, 3, 1, 4, 0⟩) ∧
      Ready (on busy) 0 busy (.bcast ⟨false, 0, 3, 0, 4, 0⟩) := by
  refine ⟨fun r => ?_, ?_⟩
  · simp [Team.poisonStop, busy, team, probeTeam, Team.poisonOf]
  · unfold Ready State.SliceRoom; decide +kernel

/-- Lane 7 of v3, where v1 holds 0xFFFFFFFF_00000005 and v2 holds 0x00000001_00000003 (R105 to R113). -/
theorem test_vector : ∀ x ∈ ([(.iadd ⟨false, 0, 3, 1, 2, 0⟩, 0x0000000000000008), (.iadd ⟨false, 0, 3, 1, 2, 3⟩, 0x0000000000000008),
    (.isub ⟨false, 0, 3, 2, 1, 0⟩, 0x00000002FFFFFFFE), (.imul ⟨false, 0, 3, 1, 2, 0⟩, 0xFFFFFFFF0000000F),
    (.imulh ⟨false, 0, 3, 1, 2, 0⟩, 0xFFFFFFFF00000000), (.imac ⟨false, 0, 1, 1, 2, 0⟩, 0xFFFFFFFE00000014),
    (.imin ⟨false, 0, 3, 1, 2, 0⟩, 0xFFFFFFFF00000003), (.imax ⟨false, 0, 3, 1, 2, 0⟩, 0x0000000100000005),
    (.umin ⟨false, 0, 3, 1, 2, 0⟩, 0x0000000100000003), (.umax ⟨false, 0, 3, 1, 2, 0⟩, 0xFFFFFFFF00000005),
    (.andn ⟨false, 0, 3, 1, 2, 0⟩, 0xFFFFFFFE00000004), (.shl ⟨false, 0, 3, 1, 2, 0⟩, 0xFFFFFFFE00000028),
    (.sar ⟨false, 0, 3, 1, 2, 0⟩, 0xFFFFFFFF00000000), (.iadds ⟨false, 0, 3, 1, 2, 0⟩, 0x0000000000000008),
    (.uadds ⟨false, 0, 3, 1, 2, 0⟩, 0xFFFFFFFF00000008), (.usubs ⟨false, 0, 3, 2, 1, 0⟩, 0), (.popc ⟨false, 0, 3, 1, 0, 0⟩, 0x0000002000000002),
    (.clz ⟨false, 0, 3, 1, 0, 0⟩, 29), (.brev ⟨false, 0, 3, 1, 0, 0⟩, 0xFFFFFFFFA0000000), (.iaddi ⟨false, 0, 3, 1, 0x7F⟩, 0xFFFFFFFE00000004),
    (.sari ⟨false, 0, 3, 1, 31⟩, 0xFFFFFFFF00000000), (.adds ⟨false, 0, 3, 1, 4, 0⟩, 0x000000060000000C),
    (.bcast ⟨false, 0, 3, 0, 4, 0⟩, 0x0000000700000007), (.lea ⟨false, 0, 3, 1, 4, 3⟩, 47)] : List (Instr × Word)),
    (after x.1 (on busy) 0).map (fun t => t.lane (if x.1 = .imac ⟨false, 0, 1, 1, 2, 0⟩ then 1 else 3) 7) = some x.2 := by decide +kernel

/-- A saturated sum sets SAT (R109, R149); a lane whose guard is false keeps its value (R102). -/
theorem test_saturation_and_guard :
    (after (.uadds ⟨false, 0, 3, 1, 2, 0⟩) (on busy) 0).map (fun t => t.nflags) = some 0x20 ∧
    (after (.iadd ⟨false, 1, 3, 1, 2, 0⟩) (on { busy with p := [(1, 2)] }) 0).map (fun t => (t.lane 3 0, t.lane 3 1)) = some (0, 8) := by
  decide +kernel

/-- The same state with the slices of v1 and v2 in the slice store of core 0. -/
def sliced (t : Team) : State :=
  (on t).putCore 0 { (on t).core 0 with
    slices := [{ id := 1, val := List.replicate 32 0xFFFFFFFF00000005 }, { id := 2, val := List.replicate 32 0x0000000100000003 }]
    names := [(32, 1), (64, 2)], nextSlice := 3 }

/-- A pass leaves an entry; one that overwrites the only holder of its source leaves none; a result that a held slice has
already takes its name (R124, R127, R134). -/
theorem test_freed_slices :
    (result (exec (.iadd ⟨false, 0, 3, 1, 2, 0⟩) (sliced busy))).map (fun s => (s.core 0).reuse.length) = some 1 ∧
    (result (exec (.iadd ⟨false, 0, 1, 1, 2, 0⟩) (sliced busy))).map (fun s => (s.core 0).reuse.length) = some 0 ∧
    (result (exec (.umin ⟨false, 0, 3, 1, 2, 0⟩) (sliced busy))).map (fun s => (s.core 0).names) = some [(32, 1), (64, 2), (96, 2)] := by
  decide +kernel

/-! ### Compares, predicates, moves, floating point, cross-lane forms -/

theorem wit_Compares : busy.width ≤ 1024 ∧ busy.poisonStop [1, 2] = none ∧
    (∀ x ∈ ([Instr.icmp, .icmps, .fcmp] : List (FmtPC → Instr)), Ready (on busy) 0 busy (x ⟨false, 2, 1, 1, 2, 1, 0⟩) ∧
      Ready (on busy) 0 busy (x ⟨false, 2, 0, 1, 2, 0, 2⟩)) ∧
    Ready (on busy) 0 busy (.scmp ⟨false, 2, 1, 4, 5, 1, 0⟩) := by unfold Ready; decide +kernel

/-- 5 against 3 in lane 0; unsigned 7 against the largest word; FCMP of a signalling operand sets NV (R114 to R116). -/
theorem test_compares :
    (after (.icmp ⟨false, 2, 1, 2, 1, 0, 0⟩) (on busy) 0).map (fun t => t.pred 1 == fullMask 32) = some true ∧
    (after (.icmp ⟨false, 2, 1, 1, 2, 0, 0⟩) (on busy) 0).map (fun t => t.pred 1) = some 0 ∧
    (after (.scmp ⟨false, 2, 1, 4, 5, 1, 0⟩) (on busy) 0).map (fun t => t.pred 1 == fullMask 32) = some true ∧
    (after (.scmp ⟨false, 2, 1, 4, 5, 0, 0⟩) (on busy) 0).map (fun t => t.pred 1) = some 0 ∧
    (after (.fcmp ⟨false, 2, 1, 1, 2, 0, 0⟩) (on { busy with v := [(1, [0x7F800001])] }) 0).map
      (fun t => (t.pred 1 == 0xFFFFFFFE, t.nflags)) = some (false, 1) := by decide +kernel

theorem wit_PredicateLogic :
    (∀ x ∈ ([Instr.pand, .por, .pxor, .pandn] : List (FmtPL → Instr)), Ready (on busy) 0 busy (x ⟨false, 7, 1, 2⟩)) ∧
    (∀ x ∈ ([Instr.pnot, .pmov] : List (FmtPL → Instr)), Ready (on busy) 0 busy (x ⟨false, 0, 1, 0⟩)) ∧
    (∀ x ∈ ([Instr.pseta, .pclr] : List (FmtPL → Instr)), Ready (on busy) 0 busy (x ⟨false, 7, 0, 0⟩)) ∧
    team.role = .alone ∧ formCause team (.pnot ⟨false, 1, 2, 1⟩) = some 4 ∧ formCause team (.pseta ⟨false, 1, 0, 1⟩) = some 4 := by
  unfold Ready; decide +kernel

/-- PNOT of p0 is false in the active lanes; PSETA does not reach p0 (R103, R117). -/
theorem test_predicates :
    (after (.pnot ⟨false, 1, 0, 0⟩) (on { busy with p := [(1, 5)] }) 0).map (fun t => t.pred 1) = some 0 ∧
    (after (.pandn ⟨false, 3, 1, 2⟩) (on { busy with p := [(1, 5), (2, 4)] }) 0).map (fun t => t.pred 3) = some 1 := by
  decide +kernel

/-- Index registers that reach v31 at their limit, one past the limit, and one past the declared registers. -/
def indexed : Team := { busy with x := [0x2000, 0x201F, 0x2020, 0xFF20, 0, 0, 0, 0] }

theorem wit_MovesAndReuse : indexed.poisonStop [1] = none ∧ (on indexed).SliceRoom 0 ∧
    Ready (on indexed) 0 indexed (.mov ⟨false, 0, 6, 1, 0, 0⟩) ∧
    Ready (on indexed) 0 indexed (.xrd ⟨false, 0, 6, 1, 0, 0⟩) ∧ indexed.xBase 1 + 0 < indexed.xLimit 1 ∧ indexed.xBase 1 < indexed.vdecl ∧
    Ready (on indexed) 0 indexed (.xwr ⟨false, 0, 1, 2, 0, 0⟩) ∧
    Ready (on indexed) 0 indexed (.xrd ⟨false, 0, 6, 2, 0, 0⟩) ∧ indexed.xLimit 2 ≤ indexed.xBase 2 + 0 ∧
    Ready (on indexed) 0 indexed (.xwr ⟨false, 0, 3, 2, 0, 0⟩) ∧ indexed.xBase 3 < indexed.xLimit 3 ∧ indexed.vdecl ≤ indexed.xBase 3 ∧
    Ready (on indexed) 0 indexed (.ruse ⟨false, 0, 0, 0, 0, 2⟩) ∧ Ready (on indexed) 0 indexed (.rclr ⟨false, 0, 0, 0, 0, 0⟩) := by
  unfold Ready State.SliceRoom; decide +kernel

theorem wit_IndexRegisters : indexed.x.length = 8 ∧ ∀ i ∈ ([.xset ⟨false, 0, 7, 4, 0, 0⟩, .xadd ⟨false, 0, 7, 4, 0, 0⟩,
    .xget ⟨false, 0, 7, 1, 0, 0⟩] : List Instr), Ready (on indexed) 0 indexed i := by unfold Ready; decide +kernel

/-- XADD wraps BASE and keeps LCODE (R140); XRD reads past its limit with cause 40. -/
theorem test_index :
    (after (.xadd ⟨false, 0, 1, 5, 0, 0⟩) (on indexed) 0).map (fun t => t.x.getD 1 0) = some 0x201E ∧
    (after (.xget ⟨false, 0, 7, 1, 0, 0⟩) (on indexed) 0).map (fun t => t.s 7) = some 0x201F ∧
    (after (.xrd ⟨false, 0, 6, 2, 0, 0⟩) (on indexed) 0).map (fun t => (t.trap.cause, t.pc)) = some (40, 0x400) ∧
    (after (.xrd ⟨false, 0, 6, 0, 1, 0⟩) (on indexed) 0).map (fun t => t.lane 6 3) = some 0xFFFFFFFF00000005 := by decide +kernel

/-- Two lanes of FP32 operands: v1 holds 1.5 and 2^-149, v2 holds 2.5 and -1.0. -/
def floats : Team :=
  { team with v := [(1, List.replicate 32 0x000000013FC00000), (2, List.replicate 32 0xBF80000040200000)], sr := [(4, 0)] }

theorem wit_FloatingPoint : floats.poisonStop [3, 1, 2] = none ∧ (on floats).SliceRoom 0 ∧
    (∀ x ∈ ([Instr.fadd, .fsub, .fmul, .fmac, .fnmac, .fmin, .fmax, .fcpys] : List (FmtV → Instr)),
      Ready (on floats) 0 floats (x ⟨false, 0, 3, 1, 2, 0⟩) ∧ Ready (on floats) 0 floats (x ⟨false, 0, 3, 1, 2, 2⟩)) ∧
    (∀ x ∈ ([Instr.fabs, .fneg, .frcp, .frsq, .fsqrt, .fexp2, .flog2, .fsin, .fcos, .ftanh] : List (FmtV → Instr)),
      Ready (on floats) 0 floats (x ⟨false, 0, 3, 1, 0, 0⟩)) ∧
    (∀ x ∈ ([Instr.cvtff, .cvtfi, .cvtif, .cvtii] : List (FmtCv → Instr)), Ready (on floats) 0 floats (x ⟨false, 0, 3, 1, 4, 0, 2⟩)) ∧
    (∀ x ∈ ([Instr.idot4, .idot8, .idot16] : List (FmtV → Instr)), Ready (on floats) 0 floats (x ⟨false, 0, 3, 1, 2, 2⟩)) ∧
    Ready (on floats) 0 floats (.fdotb ⟨false, 0, 3, 1, 2, 1⟩) := by unfold Ready State.SliceRoom; decide +kernel

/-- 1.5 + 2.5 = 4; 1.5 x 2.5 = 3.75; |-1| = 1; the sign of 2.5 on 1.5; 1.5 to the integer 2 under round-to-even; NX where the sum
of a subnormal and -1 rounds (R149, R152, R153, R158). -/
theorem test_floats : ∀ x ∈ ([(.fadd ⟨false, 0, 3, 1, 2, 0⟩, 0xBF80000040800000), (.fmul ⟨false, 0, 3, 1, 2, 0⟩, 0x8000000140700000),
    (.fabs ⟨false, 0, 3, 2, 0, 0⟩, 0x3F80000040200000), (.fneg ⟨false, 0, 3, 1, 0, 0⟩, 0x80000001BFC00000),
    (.fmax ⟨false, 0, 3, 1, 2, 0⟩, 0x0000000140200000), (.fcpys ⟨false, 0, 3, 1, 2, 0⟩, 0x800000013FC00000)] : List (Instr × Word)),
    (after x.1 (on floats) 0).map (fun t => t.lane 3 5) = some x.2 := by decide +kernel

theorem test_float_flags :
    (after (.fadd ⟨false, 0, 3, 1, 2, 0⟩) (on floats) 0).map (fun t => t.nflags) = some flNX ∧
    (after (.frcp ⟨false, 0, 3, 5, 0, 0⟩) (on floats) 0).map (fun t => (t.lane 3 0, t.nflags)) = some (0x7F8000007F800000, flDZ) ∧
    (after (.fsqrt ⟨false, 0, 3, 2, 0, 0⟩) (on { floats with v := [(2, List.replicate 32 0x4080000040800000)] }) 0).map
      (fun t => (t.lane 3 0, t.nflags)) = some (0x4000000040000000, 0) ∧
    (after (.idot8 ⟨false, 0, 3, 1, 2, 0⟩) (on { floats with v := [(1, List.replicate 32 0x0101010101010101),
      (2, List.replicate 32 0x01010101010101FF), (3, List.replicate 32 0x0000000700000001)] }) 0).map (fun t => t.lane 3 0) =
      some 0x0000000700000007 := by decide +kernel

/-- A third rounds up to 0x3EAAAAAB and down to the number below; half a place above the largest finite FP16 number rounds to
infinity, and what is less does not; RTO gives an odd number (R147, R149, R151). -/
theorem test_rounding :
    fp32.round .rne false 1 3 0 = (0x3EAAAAAB, flNX) ∧ fp32.round .rz false 1 3 0 = (0x3EAAAAAA, flNX) ∧
    fp32.round .ru true 1 3 0 = (0xBEAAAAAA, flNX) ∧ fp32.round .rd true 1 3 0 = (0xBEAAAAAB, flNX) ∧
    fp16.round .rne false 65520 1 0 = (0x7C00, flOF ||| flNX) ∧ fp16.round .rne false 65519 1 0 = (0x7BFF, flNX) ∧
    fp16.round .rto false 2049 1 0 = (0x6801, flNX) := by decide +kernel

/-- The clauses of the statement on exact sums: terms that cancel, terms of -0 alone, a term of two factors; and those on
products and roots (R147, R155, R163). -/
theorem wit_ExactResults :
    (∀ x ∈ [fp32.decode 0x3F800000, fp32.decode 0xBF800000, fp32.decode 0x80000000, fp32.decode 0x40400000], x.finite = true) ∧
    fp32.sumTerms [[fp32.decode 0x3F800000], [fp32.decode 0xBF800000]] = (0, 0) ∧
    fp32.sumTerms [[fp32.decode 0x80000000], [fp32.decode 0x80000000]] = (0x80000000, 0) ∧
    fp32.sumTerms [[fp32.decode 0x3F800000], [fp32.decode 0x40400000, fp32.decode 0x40400000]] = (0x41200000, 0) ∧
    fp32.mul 0x80000000 0x3F800000 = (0x80000000, 0) ∧ fp32.mul 0x40400000 0x40400000 = (0x41100000, 0) ∧
    (fp32.decode 0x40800000).minus = false ∧ (fp32.decode 0x40800000).value ≠ 0 ∧ (fp32.special 2 0x40800000).1 = 0x40000000 := by
  decide +kernel

/-- Lanes that hold their own numbers in v1 and the next lane's number in v2. -/
def numbered : Team :=
  { team with
    v := [(1, (List.range 32).map fun l => BitVec.ofNat 64 l), (2, (List.range 32).map fun l => BitVec.ofNat 64 ((l + 1) % 32))]
    sr := [(4, 31), (5, 99)], p := [(2, 0xF0)] }

theorem wit_CrossLane : numbered.poisonAcross [1] [2] = none ∧ (on numbered).SliceRoom 0 ∧
    ∀ i ∈ ([.shfl ⟨false, 0, 3, 1, 2, 0⟩, .shflx ⟨false, 0, 3, 1, 2, 3⟩, .bcl ⟨false, 0, 3, 1, 4, 0⟩, .ballot ⟨false, 0, 3, 2, 0, 0⟩,
      .vany ⟨false, 0, 3, 2, 0, 0⟩, .vall ⟨false, 0, 3, 2, 0, 0⟩, .pcnt ⟨false, 0, 3, 2, 0, 0⟩, .pfirst ⟨false, 0, 3, 2, 0, 0⟩,
      .scan ⟨false, 0, 3, 1, 0, 0⟩, .scanx ⟨false, 0, 3, 1, 7, 1⟩, .red ⟨false, 0, 3, 1, 0, 3⟩, .lext ⟨false, 0, 3, 1, 4, 0⟩,
      .lextId ⟨false, 0, 3, 0, 0, 1⟩, .lextHome ⟨false, 0, 3, 0, 0, 2⟩, .lins ⟨false, 0, 3, 5, 4, 0⟩] : List Instr),
      Ready (on numbered) 0 numbered i := by unfold Ready State.SliceRoom; decide +kernel

/-- The slice store of core 0 with no place left in it, and none in the spill area. -/
def brim (t : Team) : State :=
  (on t).putCore 0 { (on t).core 0 with slices := List.replicate 4095 { id := 1, val := [7] }, nextSlice := 2, spillres := 0 }

/-- The other clauses: a poisoned source, a store without room, and LEXT of no lane, of a lane too high and of a poisoned
slice. -/
theorem wit_CrossLane_stops :
    let t := { numbered with poison := [{ reg := 1, row := 0, cause := 21, addr := 0x40 }] }
    Ready (on t) 0 t (.shfl ⟨false, 0, 3, 1, 2, 3⟩) ∧ (t.poisonAcross [1] [2]).isSome = true ∧
    Ready (on t) 0 t (.lext ⟨false, 0, 3, 1, 4, 0⟩) ∧ t.parts 0 ≠ 0 ∧ (t.poisonOf 1 0).isSome = true ∧ (t.s 4).toNat < t.width ∧
    t.width ≤ (t.s 5).toNat ∧ Team.parts { t with active := 0 } 0 = 0 ∧
    Ready (brim numbered) 0 numbered (.lextId ⟨false, 0, 3, 0, 0, 1⟩) ∧
    ((brim numbered).nameSlices 0 (numbered.compute 3 (numbered.parts 0) fun l => (BitVec.ofNat 64 l, 0))
      (numbered.passesLeft.map fun row => (3, row))).isNone = true := by unfold Ready; decide +kernel

/-- A form that reads a poisoned slice and one that finds no place for its result stop before they write (R129, R205). -/
theorem test_cross_lane_stops :
    (after (.shfl ⟨false, 0, 3, 1, 2, 3⟩) (on { numbered with poison := [{ reg := 1, row := 0, cause := 21, addr := 0x40 }] }) 0).map
      (fun t => (t.trap.cause, t.lane 3 5)) = some (21, 0) ∧
    (after (.lextId ⟨false, 0, 3, 0, 0, 1⟩) (brim numbered) 0).map (fun t => (t.trap.cause, t.lane 3 5)) = some (42, 0) ∧
    (after (.iaddi ⟨false, 0, 3, 1, 5⟩) (brim numbered) 0).map (fun t => (t.trap.cause, t.lane 3 5)) = some (42, 0) := by
  decide +kernel

/-- SCANX leaves the flags of the additions that form the prefixes it writes: of 2^24, 1 and 1 the first sum alone is one, and
it is inexact; of three inexact sums' last it takes none (R182). -/
theorem test_scanx_flags :
    (after (.scanx ⟨false, 0, 3, 1, 0, 1⟩) (on { numbered with active := 7, v := [(1, [0x4B800000, 0x3F800000, 0x3F800000])] }) 0).map
      (fun t => (t.lane 3 0, t.lane 3 1, t.lane 3 2, t.nflags)) = some (0, 0x4B800000, 0x4B800000, flNX) ∧
    (after (.scanx ⟨false, 0, 3, 1, 0, 1⟩) (on { numbered with active := 3, v := [(1, [0x4B800000, 0x3F800000])] }) 0).map
      (fun t => t.nflags) = some 0 := by decide +kernel

/-- Lane 5: its neighbour's element, lane 31's, the prefix sums 0 + 1 + … + 5 and 0 + … + 4, the sum of all lanes; lanes 4 to 7
hold p2 (R176 to R182). -/
theorem test_cross_lane : ∀ x ∈ ([(.shfl ⟨false, 0, 3, 1, 2, 3⟩, 6), (.bcl ⟨false, 0, 3, 1, 4, 3⟩, 31), (.ballot ⟨false, 0, 3, 2, 0, 0⟩, 0xF0),
    (.pcnt ⟨false, 0, 3, 2, 0, 0⟩, 4), (.pfirst ⟨false, 0, 3, 2, 0, 0⟩, 4), (.scan ⟨false, 0, 3, 1, 0, 0⟩, 15),
    (.scanx ⟨false, 0, 3, 1, 0, 0⟩, 10), (.red ⟨false, 0, 3, 1, 0, 0⟩, 496), (.lextId ⟨false, 0, 3, 0, 0, 1⟩, 5),
    (.lextHome ⟨false, 0, 3, 0, 0, 2⟩, 5)] : List (Instr × Word)),
    (after x.1 (on numbered) 0).map (fun t => t.lane 3 5) = some x.2 := by decide +kernel

theorem test_single_lanes :
    (after (.lext ⟨false, 0, 3, 1, 4, 0⟩) (on numbered) 0).map (fun t => t.s 3) = some 31 ∧
    (after (.lext ⟨false, 0, 3, 1, 5, 0⟩) (on numbered) 0).map (fun t => t.s 3) = some 0 ∧
    (after (.lins ⟨false, 0, 3, 5, 4, 0⟩) (on numbered) 0).map (fun t => (t.lane 3 31, t.lane 3 30)) = some (99, 0) ∧
    (after (.vany ⟨false, 0, 3, 2, 0, 0⟩) (on numbered) 0).map (fun t => t.pred 3 == fullMask 32) = some true ∧
    (after (.vall ⟨false, 0, 3, 2, 0, 0⟩) (on numbered) 0).map (fun t => t.pred 3) = some 0 := by decide +kernel

/-- COMPACT with and without an empty stack, and with no place left in the slice store. -/
theorem wit_Compaction :
    let t := { numbered with live := 0xA, active := 0xA }
    let u := { t with stack := [{ rejoin := true, addr := 8, mask := 0xA }] }
    Ready (on t) 0 t (.compact ⟨false, 0, 0, 0, 0, 0⟩) ∧ t.stack = [] ∧ t.width ≤ 1024 ∧ (on t).compactRoom 0 t = true ∧
    ((on t).core 0).slices.length + t.v.length * t.rows ≤ sliceRoom ∧
    Ready (brim t) 0 t (.compact ⟨false, 0, 0, 0, 0, 0⟩) ∧ (brim t).compactRoom 0 t = false ∧
    Ready (on u) 0 u (.compact ⟨false, 0, 0, 0, 0, 0⟩) ∧ u.stack ≠ [] := by unfold Ready; decide +kernel

/-- Lanes 1 and 3 move to positions 0 and 1 (R183, R184). -/
theorem test_compact :
    (after (.compact ⟨false, 0, 0, 0, 0, 0⟩) (on { numbered with live := 0xA, active := 0xA }) 0).map
      (fun t => (t.lane 1 0, t.lane 1 1, t.live, t.active, t.home)) = some (1, 3, 3, 3, [1, 3]) := by decide +kernel

/-! ### Control -/

/-- Eight active lanes, p1 true in the low four and p2 in all of them. -/
def split : Team := { busy with active := 0xFF, live := 0xFF, p := [(1, 0xF), (2, 0xFF), (3, 0)] }

/-- The page that the small package maps at virtual address 0, for an offset. -/
def dataPage (o : Nat) : Page := leafPage 0x10002F 0 o

/-- A team whose stack holds n entries of all eight lanes, as many of them as can be on chip. -/
def deep (n : Nat) : Team :=
  { split with stack := List.replicate n { rejoin := false, addr := 8, mask := 0xFF }, spilled := n - 16 }

theorem wit_Branches :
    let f : FmtB := ⟨false, 1, 0x1FFFE⟩
    -- no lane, every lane, a split on chip at 0 and at 15 entries, the limit
    (Ready (on split) 0 split (.bra ⟨false, 3, 2⟩) ∧ split.takers 3 = 0) ∧
    (Ready (on split) 0 split (.bra ⟨false, 2, 2⟩) ∧ split.takers 2 ≠ 0 ∧ split.takers 2 = split.active) ∧
    (∀ n ∈ [0, 15], Ready (on (deep n)) 0 (deep n) (.bra f) ∧ (deep n).takers 1 ≠ 0 ∧ (deep n).takers 1 ≠ (deep n).active ∧
      (deep n).stack.length - (deep n).spilled < 16) ∧
    (Ready (on (deep 1024)) 0 (deep 1024) (.bra f) ∧ 1024 ≤ (deep 1024).stack.length) ∧
    -- a control thread, and the uniform branches
    Ready (onSystem []) 16384 (sysTeam []) (.bra ⟨false, 0, 2⟩) ∧
    Ready (on split) 0 split (.bany f) ∧ Ready (on split) 0 split (.ball f) ∧
    (0 : BitVec 4) = 0 ∧ split.active.getLsbD 0 = true := by
  unfold Ready; decide +kernel

/-- A spill of the first and of the last entry that may be pushed, one whose place cannot be written, and an entry that is
read back where it was put. -/
theorem wit_EntriesSpilled :
    let e : StackEntry := { rejoin := true, addr := 64, mask := 0xF }
    let lost := { deep 16 with dsbase := 0x200000 }
    (∀ n ∈ [16, 1023], Ready (on (deep n)) 0 (deep n) (.bra ⟨false, 1, 2⟩) ∧ 16 ≤ (deep n).stack.length - (deep n).spilled ∧
      (deep n).stack.length < 1024 ∧ (deep n).stack[15]?.isSome = true ∧
      ((on (deep n)).spillEntry 0 (deep n) (deep n).spilled e).toOption.isSome = true) ∧
    Ready (on lost) 0 lost (.bra ⟨false, 1, 2⟩) ∧ ((on lost).spillEntry 0 lost 0 e).toOption.isNone = true ∧
    split.width ≤ 1024 ∧ split.width % 32 = 0 ∧ split.dsbase.toNat % 8 = 0 ∧
    ((on split).core 0).reserved.length + 40 ≤ 64 * ((on split).core 0).spillres ∧ canonical e.addr = true ∧
    ∀ s1, ((on split).spillEntry 0 split 0 e).toOption = some s1 →
      (s1.areaPages 0 split { rd := true } (entryWords split 0)).toOption =
        ((on split).areaPages 0 split { wr := true } (entryWords split 0)).toOption ∧
      ((s1.readEntry 0 split 0).toOption.map Prod.snd) = some e := by
  have h : ((on split).spillEntry 0 split 0 { rejoin := true, addr := 64, mask := 0xF }).toOption.all (fun s1 =>
      decide ((s1.areaPages 0 split { rd := true } (entryWords split 0)).toOption =
        ((on split).areaPages 0 split { wr := true } (entryWords split 0)).toOption ∧
      ((s1.readEntry 0 split 0).toOption.map Prod.snd) = some { rejoin := true, addr := 64, mask := 0xF })) = true := by
    decide +kernel
  refine ⟨?_, ?_, ?_, ?_, ?_, ?_, ?_, ?_, fun s1 hs => ?_⟩
  · unfold Ready; decide +kernel
  · unfold Ready; decide +kernel
  · decide +kernel
  · decide +kernel
  · decide +kernel
  · decide +kernel
  · decide +kernel
  · decide +kernel
  · rw [hs] at h
    exact of_decide_eq_true h

/-- A BRA that splits goes on with the low lanes at its target and keeps the others as a path at the next word (R78, R79). -/
theorem test_bra :
    (after (.bra ⟨false, 1, 4⟩) (on split) 0).map (fun t => (t.pc, t.active, t.stack.map fun e => (e.rejoin, e.addr, e.mask))) =
      some (16, 0xF, [(false, 4, 0xF0)]) ∧
    (after (.bany ⟨false, 1, 4⟩) (on split) 0).map (fun t => (t.pc, t.active)) = some (16, 0xFF) ∧
    (after (.ball ⟨false, 1, 4⟩) (on split) 0).map (fun t => (t.pc, t.active)) = some (4, 0xFF) := by decide +kernel

/-- A rejoin entry at the PC, and the team of eight lanes with some entries. -/
def rejoin : StackEntry := { rejoin := true, addr := 0, mask := 0xF0 }
def stacked (l : List StackEntry) : Team := { split with stack := l }

theorem wit_CallsAndJoins :
    (∀ i ∈ ([.call ⟨false, 0, 4⟩, .bri ⟨false, 0, 4, 0, 0⟩, .ret ⟨false, 0, 5, 0, 0⟩, .calli ⟨false, 31, 0, 0, 0⟩] : List Instr),
      Ready (on split) 0 split i) ∧
    (split.s 0).toNat % 4 = 0 ∧ canonical (split.s 0) = true ∧ (split.s 4).toNat % 4 ≠ 0 ∧ canonical 0x0100000000000000 = false ∧
    -- MARK on chip, at the limit, and where the deepest entry moves or cannot be moved
    (∀ t ∈ [stacked [], stacked (List.replicate 15 rejoin)], Ready (on t) 0 t (.mark ⟨false, 0, 4⟩) ∧ t.stack.length - t.spilled < 16) ∧
    Ready (on (deep 1024)) 0 (deep 1024) (.mark ⟨false, 0, 4⟩) ∧
    (∀ n ∈ [16, 1023], Ready (on (deep n)) 0 (deep n) (.mark ⟨false, 0, 4⟩) ∧ 16 ≤ (deep n).stack.length - (deep n).spilled) := by
  unfold Ready; decide +kernel

/-- A JOIN of an empty stack, of another address, of a rejoin and of a path; of an entry with no live lane above a live one and
above none; and one that brings a spilled entry back, or cannot. -/
theorem wit_Joins :
    let gone : StackEntry := { rejoin with mask := 0xF00 }
    let back := { deep 17 with spilled := 16 }
    let lost := { back with dsbase := 0x200000 }
    Ready (on (stacked [])) 0 (stacked []) .join ∧
    (∀ x ∈ [rejoin, { rejoin with addr := 4 }, { rejoin with rejoin := false }],
      Ready (on (stacked [x])) 0 (stacked [x]) .join ∧ x.mask &&& split.live ≠ 0 ∧ (stacked [x]).spilled = 0) ∧
    (∀ l ∈ [[gone, gone, rejoin], [gone, gone]], Ready (on (stacked l)) 0 (stacked l) .join ∧ gone.mask &&& split.live = 0) ∧
    (∀ p ∈ (on split).pendings, p.2.team ≠ split.uid) ∧ Table.wf (on split).teams = true ∧
    Ready (on back) 0 back .join ∧ back.spilled ≠ 0 ∧ back.stack.length - 1 ≤ back.spilled ∧
    ((on back).readEntry 0 back 15).toOption.isSome = true ∧
    Ready (on lost) 0 lost .join ∧ ((on lost).readEntry 0 lost 15).toOption.isNone = true := by
  unfold Ready; decide +kernel

/-- An EXIT of all lanes, one while a value is on its way, and one that unwinds past a dead entry to a deeper one. -/
theorem wit_Exits :
    let s := { on (stacked []) with pendings := [(3, { team := 9, core := 0, kind := 0, targets := [] })] }
    let t := { stacked [{ rejoin with mask := 0xF }, rejoin] with active := 0xF }
    Ready (on (stacked [])) 0 (stacked []) .exit ∧ (stacked []).spilled = 0 ∧
    Ready s 0 (stacked []) .exit ∧ (∃ p ∈ s.pendings, p.2.team = (stacked []).uid) ∧
    Ready (on t) 0 t .exit ∧ (0xF : Mask) &&& (t.live &&& ~~~t.active) = 0 ∧ rejoin.mask &&& (t.live &&& ~~~t.active) ≠ 0 := by
  refine ⟨?_, ?_, ?_, ⟨_, List.mem_cons_self, ?_⟩, ?_, ?_, ?_⟩
  all_goals first | decide +kernel | (unfold Ready; decide +kernel)

/-- CALL links s31; a target off by one raises cause 11; JOIN resumes the path; EXIT retires a team with no other lane (R80 to
R85). -/
theorem test_calls :
    (after (.call ⟨false, 0, 4⟩) (on split) 0).map (fun t => (t.pc, t.s 31)) = some (16, 4) ∧
    (after (.bri ⟨false, 0, 4, 0, 0⟩) (on split) 0).map (fun t => (t.pc, t.trap.cause, t.trap.tpc)) = some (0x400, 11, 0) ∧
    (after .join (on { split with active := 0xF, stack := [{ rejoin := false, addr := 64, mask := 0xF0 }] }) 0).map
      (fun t => (t.pc, t.active, t.stack.length)) = some (64, 0xF0, 0) ∧
    (after .exit (on split) 0).isNone ∧ (result (exec .exit (on split))).isSome := by decide +kernel

/-- A JOIN goes past entries without live lanes to the first that has one; an EXIT of the low lanes resumes the path of the
others; the seventeenth entry leaves sixteen on chip (R71, R72, R75). -/
theorem test_unwind :
    (after .join (on (stacked [{ rejoin with mask := 0xF00 }, { rejoin := false, addr := 64, mask := 0xF0 }])) 0).map
      (fun t => (t.pc, t.active, t.stack.length)) = some (64, 0xF0, 0) ∧
    (after .exit (on { stacked [{ rejoin := true, addr := 64, mask := 0xFF }] with active := 0xF }) 0).map
      (fun t => (t.pc, t.live, t.active)) = some (68, 0xF0, 0xF0) ∧
    (after (.mark ⟨false, 0, 4⟩) (on (deep 16)) 0).map (fun t => (t.pc, t.stack.length, t.spilled)) = some (4, 17, 1) := by
  decide +kernel

theorem wit_LoopsAndIssue :
    let inner := { busy with loops := [{ first := 4, last := 40, count := 2 }, { first := 0, last := 80, count := 9 }] }
    (∀ x ∈ ([(.loop ⟨false, 0, 4, 0, 9⟩, 7), (.loop ⟨false, 0, 0, 0, 9⟩, 0), (.loopi ⟨false, 0, 0, 63, 255⟩, 64)] : List (Instr × Nat)),
      Ready (on busy) 0 busy x.1) ∧ (busy.s 4).toNat % 2 ^ 32 = 7 ∧ (busy.s 0).toNat % 2 ^ 32 = 0 ∧ busy.loops = [] ∧
    -- a level that is not the next, and a body at and beyond the end of the enclosing one
    Ready (on inner) 0 inner (.loopi ⟨false, 1, 0, 0, 1⟩) ∧ Ready (on inner) 0 inner (.loopi ⟨false, 2, 0, 0, 9⟩) ∧
    (inner.pc + 4 + BitVec.ofNat 64 (4 * 9) = 40) ∧ Ready (on inner) 0 inner (.loopi ⟨false, 2, 0, 0, 10⟩) ∧
    Ready (on inner) 0 inner (.lbrk ⟨false, 0, 0, 0, 0⟩) ∧ Ready (on inner) 0 inner (.lbrk ⟨false, 2, 0, 0, 0⟩) ∧ inner.trap.inh = false ∧
    (∃ y, inner.loops = [{ first := 4, last := 40, count := 2 }] ++ y :: []) ∧
    -- an empty body that ends with two levels
    (let t := { busy with loops := [⟨4, 8, 1⟩, ⟨0x20, 8, 3⟩] }
     Ready (on t) 0 t (.loop ⟨false, 2, 0, 0, 1⟩) ∧ t.trap.inh = false ∧ (t.s 0).toNat % 2 ^ 32 = 0 ∧ t.loops = [⟨4, 8, 1⟩] ++ [⟨0x20, 8, 3⟩] ∧
      t.pc + 4 + BitVec.ofNat 64 (4 * 1) = 8) ∧
    (∀ i ∈ ([.nop ⟨false, 0, 0, 0, 0⟩, .nop ⟨true, 0, 0, 0, 0⟩, .yield ⟨false, 0, 0, 0, 0⟩, .yield ⟨true, 0, 0, 0, 0⟩,
      .ipf ⟨false, 0, 48⟩] : List Instr), Ready (on busy) 0 busy i) := by
  refine ⟨?_, ?_, ?_, ?_, ?_, ?_, ?_, ?_, ?_, ?_, ?_, ⟨_, rfl⟩, ?_, ?_⟩
  all_goals first | decide +kernel | (unfold Ready; decide +kernel)

/-- The lines that IPF finds present and absent, and the page of the absent one. -/
theorem wit_LoopsAndIssue_lines :
    let s := { on busy with tlb := [(0, [{ ctx := 1, base := 0, size := 65536, leaf := 0x100037 }])] }
    (s.quad 0).held 1 (branchTarget busy 48) = none ∧
    (s.fetchPage 0 1 (branchTarget busy 48)).toOption = some (leafPage 0x100037 0 192) ∧
    (({ s with quads := [(0, { part := 1, icache := [(1, 1, [some 0])] })] }).quad 0).held 1 (branchTarget busy 48) ≠ none ∧
    (match (on busy).fetchPage 0 1 (branchTarget busy 48) with | .error x => x == (11, false) | _ => false) = true := by
  decide +kernel

/-- LOOPI opens level 0 over the next two words for five passes; LOOP of 0 goes past its body; LBRK of level 0 leaves both
levels (R89, R92). -/
theorem test_loops :
    (after (.loopi ⟨false, 0, 0, 4, 1⟩) (on busy) 0).map (fun t => (t.pc, t.loops.map fun l => (l.first, l.last, l.count))) =
      some (4, [(4, 8, 5)]) ∧
    (after (.loop ⟨false, 0, 0, 0, 1⟩) (on busy) 0).map (fun t => (t.pc, t.loops.length)) = some (12, 0) ∧
    (after (.loop ⟨false, 2, 0, 0, 1⟩) (on { busy with loops := [⟨4, 8, 1⟩, ⟨0x20, 8, 3⟩] }) 0).map
      (fun t => (t.pc, t.loops.map fun l => l.count)) = some (0x20, [2]) ∧
    (after (.lbrk ⟨false, 0, 0, 0, 0⟩) (on { busy with loops := [⟨4, 40, 2⟩, ⟨0, 80, 9⟩] }) 0).map (fun t => (t.pc, t.loops.length)) =
      some (84, 0) ∧
    (after (.loopi ⟨false, 1, 0, 0, 1⟩) (on busy) 0).map (fun t => t.trap.cause) = some 8 := by decide +kernel

/-! ### Memory -/

/-- Eight active lanes; v9 holds offsets 8, 16, … within the page; v6 holds data. -/
def loader8 : Team :=
  { busy with
    active := 0xFF, live := 0xFF, policy := 1, sr := [(6, 64)]
    v := [(6, List.replicate 32 0x1122334455667788), (9, (List.range 32).map fun l => BitVec.ofNat 64 (8 * l))] }

/-- Line 0 of the page, whole, in the L1 of core 0: byte i holds i. -/
def line0 : Line :=
  { ctx := 1, va := 0, pa := 0x4000, valid := BitVec.allOnes 64, dirty := 0, rd := true, wr := true, usr := true, cls := 0
    data := lineOf ((List.range 64).map fun i => BitVec.ofNat 8 i) }

def cached (t : Team) : State := { on t with cores := [(0, { lines := [line0] })] }

/-- A write of one byte keeps memory canonical, at an address never written and at one that it clears (R393). -/
theorem wit_MemoryBytes : Memory.wf [] = true ∧ Memory.wf [(5, 1#8)] = true ∧
    ({ State.reset with mem := [(5, 1#8)] }.setByte 5 0).mem = [] ∧ (State.reset.setByte 7 9).mem = [(7, 9#8)] ∧
    (State.reset.homeWriteRun 0x3F [1, 2] none).mem = [(0x3F, 1#8), (0x40, 2#8)] := by decide +kernel

/-- The region class of a translation. -/
def classIn : Translation → Option Nat
  | .page p => some p.cls
  | .cause _ => none

theorem wit_L1Loads :
    (∀ x ∈ ([(Instr.ldl, 0, 0), (.ldg, 9, 0), (.ldlNt, 0, 0), (.ldgNt, 9, 0), (.ldlRo, 0, 3), (.ldgRo, 9, 0)] :
        List ((FmtM → Instr) × BitVec 5 × BitVec 2)), Ready (cached loader8) 0 loader8 (x.1 ⟨false, 0, 4, 0, x.2.1, x.2.2⟩)) ∧
    loader8.poisonStop [9] = none ∧ (((cached loader8).ctx 1).key ≠ none) ∧ (cached loader8).SliceRoom 0 ∧
    ((cached loader8).core 0).lines.length ≤ ((cached loader8).core 0).l1Room ∧ loader8.policy ≠ 0 ∧
    (∀ l p, (cached loader8).translate 0 1 ((gatherPlace loader8 ⟨false, 0, 4, 0, 9, 0⟩).addr loader8 8 l) { rd := true } = .page p → p.cls ≠ 3) ∧
    (∀ x ∈ ([(linearPlace loader8 ⟨false, 0, 4, 0, 0, 0⟩, 8), (gatherPlace loader8 ⟨false, 0, 4, 0, 9, 0⟩, 8),
        (linearPlace loader8 ⟨false, 0, 4, 0, 0, 3⟩, 1)] : List (Place × Nat)), ∀ l, l < 32 → (loader8.takers 0).getLsbD l →
      (x.1.addr loader8 x.2 l).toNat % x.2 = 0 ∧ ((cached loader8).hit 0 1 (x.1.addr loader8 x.2 l) x.2 { classes := loadClasses }).isSome) ∧
    (∀ x ∈ ([Instr.ldu, .lduRo] : List (FmtM → Instr)), Ready (cached loader8) 0 loader8 (x ⟨false, 0, 4, 0, 7, 0⟩)) ∧
    (cached loader8).hit 0 1 (uniformAddr loader8 ⟨false, 0, 4, 0, 7, 0⟩) 8 { classes := loadClasses } = some line0 := by
  refine ⟨?_, ?_, ?_, ?_, ?_, ?_, ?_, ?_⟩
  · unfold Ready; decide +kernel
  · decide +kernel
  · decide +kernel
  · unfold State.SliceRoom; decide +kernel
  · decide +kernel
  · decide +kernel
  · intro l p h
    have far : ∀ n, n < 33 → classIn ((cached loader8).translate 0 1 ((gatherPlace loader8 ⟨false, 0, 4, 0, 9, 0⟩).addr loader8 8 n)
        { rd := true }) ≠ some 3 := by decide +kernel
    have beyond : 32 ≤ l → (gatherPlace loader8 ⟨false, 0, 4, 0, 9, 0⟩).addr loader8 8 l =
        (gatherPlace loader8 ⟨false, 0, 4, 0, 9, 0⟩).addr loader8 8 32 := by
      intro hl
      have hz : loader8.lane 9 l = 0 := by
        have : loader8.vreg 9 = (List.range 32).map fun l => BitVec.ofNat 64 (8 * l) := by decide +kernel
        simp [Team.lane, this, List.getD_eq_getElem?_getD, hl]
      show _ + loader8.lane 9 l = _ + loader8.lane 9 32
      rw [hz]
      rfl
    intro hp
    by_cases hl : l < 33
    · exact far l hl (by rw [h]; simp [classIn, hp])
    · rw [beyond (by omega)] at h
      exact far 32 (by omega) (by rw [h]; simp [classIn, hp])
  · unfold Ready; decide +kernel

/-- An aligned load of the cached line: lane 3 reads bytes 24 to 31; a byte load of .RO; LDU of the last doubleword (R197, R198). -/
theorem test_loads :
    (after (.ldl ⟨false, 0, 4, 0, 0, 0⟩) (cached loader8) 0).map (fun t => (t.lane 4 3, t.lane 4 8)) = some (0x1F1E1D1C1B1A1918, 0) ∧
    (after (.ldgRo ⟨false, 0, 4, 0, 9, 3⟩) (cached loader8) 0).map (fun t => t.lane 4 7) = some 0x38 ∧
    (after (.ldu ⟨false, 0, 4, 0, 7, 0⟩) (cached loader8) 0).map (fun t => t.lane 4 0) = some 0x3F3E3D3C3B3A3938 ∧
    (after (.ldl ⟨false, 0, 4, 4, 0, 0⟩) (cached { loader8 with sr := [(4, 1)] }) 0).map (fun t => (t.trap.cause, t.trap.addr)) =
      some (18, 1) := by decide +kernel

theorem wit_LoadsFromMemory :
    let m := loader8.takers 0 &&& rowsMask 0 1
    (∀ x ∈ ([(Instr.ldl, linearPlace, { classes := loadClasses }), (.ldg, gatherPlace, { classes := loadClasses }),
        (.ldlNt, linearPlace, { classes := loadClasses, nt := true }), (.ldgNt, gatherPlace, { classes := loadClasses, nt := true }),
        (.ldlRo, linearPlace, { classes := roClasses, ro := true }), (.ldgRo, gatherPlace, { classes := roClasses, ro := true })] :
        List ((FmtM → Instr) × (Team → FmtM → Place) × AccessForm)),
      let f : FmtM := ⟨false, 0, 4, 0, 9, 0⟩
      let ls := laneList loader8 m (x.2.1 loader8 f) 8 0
      Ready (on loader8) 0 loader8 (x.1 f) ∧ loader8.poisonStop (x.2.1 loader8 f).reg = none ∧
        (on loader8).passCause 0 loader8 (ls.map Prod.snd) 8 x.2.2 = none ∧
        ((on loader8).loadLanes 0 loader8 ls 8 x.2.2).missed = true ∧ (on loader8).remLanes 0 loader8 ls = []) ∧
    loader8.passesLeft = [0] ∧ loader8.policy ≠ 0 ∧ (on loader8).flights = [] ∧ (on loader8).resultRoom 0 1 = true := by unfold Ready; decide +kernel

/-- Eight active lanes in each of two passes; the offsets of v9 go on through both. -/
def wide : Team :=
  { loader8 with
    width := 64, active := 0xFF000000FF, live := 0xFF000000FF
    v := [(6, List.replicate 64 0x1122334455667788), (9, (List.range 64).map fun l => BitVec.ofNat 64 (8 * l))] }

/-- The page of each lane's address, and what the statements on several passes ask of the lanes. -/
theorem wit_SeveralPasses :
    let page := fun a => match (on wide).translate 0 1 a { rd := true } with | .page p => p | .cause _ => dataPage 0
    (∀ x ∈ ([(Instr.ldl, linearPlace, { classes := loadClasses }), (.ldg, gatherPlace, { classes := loadClasses }),
        (.ldlNt, linearPlace, { classes := loadClasses, nt := true }), (.ldgNt, gatherPlace, { classes := loadClasses, nt := true }),
        (.ldlRo, linearPlace, { classes := roClasses, ro := true }), (.ldgRo, gatherPlace, { classes := roClasses, ro := true }),
        (.stl, linearPlace, { classes := storeClasses, store := true }), (.stg, gatherPlace, { classes := storeClasses, store := true })] :
        List ((FmtM → Instr) × (Team → FmtM → Place) × AccessForm)),
      let f : FmtM := ⟨false, 0, 6, 0, 9, 0⟩
      Ready (on wide) 0 wide (x.1 f) ∧ wide.poisonStop (6 :: (x.2.1 wide f).reg) = none ∧
      ∀ l ∈ lanesOf (wide.takers 0) 64, let a := (x.2.1 wide f).addr wide 8 l
        a.toNat % 8 = 0 ∧ ((on wide).tlbFind 0 1 (sig57 a)).isSome = true ∧
        (on wide).translate 0 1 a { rd := true } = .page (page a) ∧ (on wide).translate 0 1 a { wr := true } = .page (page a) ∧
        x.2.2.classes.contains (page a).cls = true ∧ (page a).cls ≠ 3 ∧ (page a).usr = true ∧ (page a).pa % 64 = sig57 a % 64 ∧
        (on wide).badData (page a).pa = false) ∧
    wide.passesLeft = [0, 1] ∧ ((on wide).ctx 1).key ≠ none ∧ (on wide).SliceRoom 0 ∧ wide.policy ≠ 0 ∧
    ((on wide).core 0).lines = [] ∧ (on wide).flights = [] ∧ 1024 ≤ ((on wide).core 0).l1Room := by
  unfold Ready State.SliceRoom; decide +kernel

/-- The lanes of both passes of a store reach the L1; of a load, both passes are on their way (R19, R197). -/
theorem test_two_passes :
    (result (exec (.stl ⟨false, 0, 6, 0, 0, 0⟩) (on wide))).map (fun s => (s.core 0).lines.map fun l => (l.va, l.dirty)) =
      some [(4, BitVec.allOnes 64), (0, BitVec.allOnes 64)] ∧
    (result (exec (.ldl ⟨false, 0, 4, 0, 0, 0⟩) (on wide))).map (fun s => s.pendings.map fun p => p.2.targets.map Target.slice?) =
      some [[some (4, 0)], [some (4, 1)]] := by decide +kernel

/-- One access that misses: at the end of a line, on good and on bad data, kept and non-temporal. -/
theorem wit_LoadsFromMemory_access : ∀ s ∈ [on loader8, { on loader8 with bad := [(0x4000, true, false)] }],
    ∀ g ∈ [({ classes := loadClasses } : AccessForm), { classes := loadClasses, nt := true }],
      sig57 (0x38 : Word) % 64 + 8 ≤ 64 ∧ s.hit 0 1 0x38 8 g = none ∧
      s.translate 0 1 0x38 { rd := true, wr := false } = .page (dataPage 0x38) ∧ s.lineFind 0 1 0x38 = none ∧
      (dataPage 0x38).pa % 64 = sig57 (0x38 : Word) % 64 ∧ s.flights = [] ∧ (s.core 0).lines.length < (s.core 0).l1Room := by
  decide +kernel

/-- One that misses in a line which holds dirty bytes alone: they stay, and the home gives the others (R188). -/
theorem wit_LoadsFromMemory_partial :
    let y : Line := { line0 with valid := 0xFF, dirty := 0xFF }
    let s : State := { on loader8 with cores := [(0, { lines := [y] })] }
    let g : AccessForm := { classes := loadClasses }
    s.hit 0 1 0x38 8 g = none ∧ s.translate 0 1 0x38 { rd := true, wr := false } = .page { dataPage 0x38 with pa := 0x100038 } ∧
    s.lineFind 0 1 0x38 = some y ∧ s.flights = [] ∧ (s.load 0 loader8 0x38 8 g).missed = true ∧
    ((s.load 0 loader8 0x38 8 g).state.lineFind 0 1 0x38).map (fun l => (l.dirty, lineByte l.data 3, lineByte l.data 9)) =
      some (0xFF, 3, 0) := by decide +kernel

/-- A value on its way, of each kind. -/
def awaiting (kind : Nat) : State :=
  { on busy with detail := .place 3 0, pendings := [(3, { core := 0, team := 9, kind := kind, targets := [.scalar 5 77] })] }

/-- The same for a team that has ended and waits for it. -/
def ending : State := { awaiting 0 with teams := Table.put (awaiting 0).teams 0 { busy with wait := .retire, live := 0 } }

theorem wit_ValuesArrive : (∀ kind ∈ [0, 1, 2, 3], (awaiting kind).detail = .place 3 0 ∧
    Table.find? (awaiting kind).pendings 3 = some { core := 0, team := 9, kind := kind, targets := [.scalar 5 77] } ∧
    (awaiting kind).teamByUid 9 = some (0, busy) ∧ (awaiting kind).team? 0 = some busy ∧ Table.wf (awaiting kind).pendings = true ∧
    ((awaiting kind).core 0).slices.length + 1 ≤ sliceRoom ∧ ∀ e ∈ (awaiting kind).teams, e.2.wait ≠ .retire) ∧
    (ending.teamByUid 9).map Prod.fst = some 0 ∧ (ending.team? 0).map (fun t => (t.wait, t.uid)) = some (.retire, 9) ∧
    (∀ p ∈ ending.pendings, p.1 = 3) ∧ (awaiting 3).ops = [] ∧ Table.wf ending.teams = true := by decide +kernel

theorem test_arrival :
    (after .memoryReply (awaiting 0) 0).map (fun t => t.s 5) = some 77 ∧ (after .atomicReturn (awaiting 1) 0).map (fun t => t.s 5) = some 77 ∧
    (after .storeValueReturn (awaiting 3) 0).map (fun t => t.s 5) = some 77 ∧
    (after .memoryReply (awaiting 1) 0).map (fun t => t.s 5) = some 0xFFFFFFFFFFFFFFFF ∧
    (after .memoryReply ending 0).isNone ∧ (result (exec .memoryReply ending)).isSome := by decide +kernel

/-- Two lanes that store to the same byte, and the store statement on each form. -/
theorem wit_Stores :
    (let before : List (Word × List Byte) := [(0, [1, 2])]
     (∀ w ∈ before ++ [((1 : Word), [3#8])] ++ [], sig57 w.1 % 64 + w.2.length ≤ 64) ∧ 0 < [3#8].length) ∧
    (∀ s ∈ [on loader8, cached loader8],
      (∀ x ∈ ([(Instr.stl, linearPlace, false), (.stg, gatherPlace, false), (.stlNt, linearPlace, true), (.stgNt, gatherPlace, true)] :
          List ((FmtM → Instr) × (Team → FmtM → Place) × Bool)),
        let f : FmtM := ⟨false, 0, 6, 0, 9, 0⟩
        let ws := (laneList loader8 (loader8.takers 0) (x.2.1 loader8 f) 8 0).map fun y => (y.2, toBytes 8 (loader8.lane 6 y.1).toNat)
        Ready s 0 loader8 (x.1 f) ∧ loader8.poisonStop (6 :: (x.2.1 loader8 f).reg) = none ∧
          s.passCause 0 loader8 (ws.map Prod.fst) 8 { store := true, classes := storeClasses, nt := x.2.2 } = none ∧
          (∀ w ∈ ws, (s.tlbFind 0 1 (sig57 w.1)).isSome)) ∧
      Ready s 0 loader8 (.stu ⟨false, 0, 6, 0, 7, 0⟩) ∧
      s.passCause 0 loader8 [uniformAddr loader8 ⟨false, 0, 6, 0, 7, 0⟩] 8 { store := true, classes := storeClasses } = none ∧
      (s.core 0).lines.length + 32 ≤ (s.core 0).l1Room) ∧
    loader8.passesLeft = [0] ∧ lanesOf (loader8.takers 0) 32 = 0 :: [1, 2, 3, 4, 5, 6, 7] ∧ loader8.poisonOf 6 0 = none := by
  unfold Ready; decide +kernel

/-- STL leaves its bytes dirty in the L1 and nothing at the home; STL.NT sends them (R188, R203); STU stores the lowest lane. -/
theorem test_stores :
    (result (exec (.stl ⟨false, 0, 6, 0, 0, 0⟩) (on loader8))).map (fun s => ((s.core 0).lines.map fun l => (l.va, l.dirty, lineByte l.data 8), s.mem)) =
      some ([(0, BitVec.allOnes 64, 0x88)], []) ∧
    (result (exec (.stlNt ⟨false, 0, 6, 0, 0, 0⟩) (on loader8))).map (fun s => ((s.core 0).lines.length, s.flights.map fun e => e.2.pa)) =
      some (0, [0x4000]) ∧
    (result (exec (.stu ⟨false, 0, 6, 0, 7, 3⟩) (on loader8))).map (fun s => (s.core 0).lines.map fun l => (l.dirty, lineByte l.data 56)) =
      some [(0x0100000000000000, 0x88)] := by decide +kernel

theorem wit_Scratchpad :
    let far := { loader8 with sr := [(4, 1024 - 64)] }
    let out := { loader8 with sr := [(4, 1024 - 63)] }
    let past := { loader8 with sr := [(4, 1024)] }
    (∀ i ∈ ([.ldp ⟨false, 0, 4, 4, 0, 0⟩, .ldpg ⟨false, 0, 4, 4, 9, 0⟩, .stp ⟨false, 0, 6, 4, 0, 0⟩, .stpg ⟨false, 0, 6, 4, 9, 0⟩] : List Instr),
      ∀ t ∈ [far, out, past], Ready (on t) 0 t i) ∧
    (∀ l, l < 32 → (far.takers 0).getLsbD l = true → ((gatherPlace far ⟨false, 0, 4, 4, 9, 0⟩).addr far 8 l).toNat % 8 = 0 ∧
      ((gatherPlace far ⟨false, 0, 4, 4, 9, 0⟩).addr far 8 l).toNat + 8 ≤ (on far).scratchSize far) ∧
    ((gatherPlace out ⟨false, 0, 4, 4, 9, 0⟩).addr out 8 0).toNat % 8 ≠ 0 ∧
    (on past).scratchSize past < ((gatherPlace past ⟨false, 0, 4, 4, 9, 0⟩).addr past 8 0).toNat + 8 ∧
    (∀ l, l < 32 → ((gatherPlace past ⟨false, 0, 4, 4, 9, 0⟩).addr past 8 l).toNat % 8 = 0) ∧
    loader8.passesLeft = [0] ∧ loader8.poisonStop [6, 9] = none ∧ (on far).block? 0 = some block ∧ block.scratch = [] := by
  unfold Ready; decide +kernel

theorem test_scratchpad :
    (result (exec (.stp ⟨false, 0, 6, 0, 1, 1⟩) (on loader8))).map (fun s => (s.scratchByte loader8 64, s.scratchByte loader8 95, s.scratchByte loader8 96)) =
      some (0x88, 0x55, 0) ∧
    (after (.ldp ⟨false, 0, 4, 4, 0, 0⟩) (on { loader8 with sr := [(4, 1024)] }) 0).map (fun t => (t.trap.cause, t.trap.addr)) = some (52, 1024) := by
  decide +kernel

/-! ### Quantised lines, fences, atomics, barriers -/

/-- v8 holds 1.0 and -2.0 in every lane. -/
def quant : Team := { team with v := [(8, List.replicate 32 0xC00000003F800000)], sr := [(4, 0)], policy := 1 }

/-- The same package with a described line at the page: i8 elements, scale code 0x7F, elements 1, 2, 3, … -/
def described (d : BitVec 16) : State :=
  { on quant with descs := [(0x4000, d)], mem := (List.range 64).map fun i => (0x100000 + i, BitVec.ofNat 8 (i + 1)) }

theorem wit_QuantisedLines_store :
    (∀ fmt ∈ [0#4, 3#4, 8#4], Ready (on quant) 0 quant (.stq ⟨false, 0, 8, 4, 0, fmt⟩)) ∧ quant.passesLeft = [0] ∧
    quant.poisonStop ((List.range 8).map fun i => 8 + i) = none ∧
    (on quant).passCause 0 quant [0] 64 { store := true, classes := [0] } = none ∧
    (on quant).translate 0 1 0 { wr := true } = .page (dataPage 0) ∧ isCxl (dataPage 0).pa = false ∧ (dataPage 0).pa % 64 = 0 ∧
    Memory.wf (on quant).mem = true ∧ Table.wf (on quant).descs = true ∧ ((on quant).core 0).lines = [] ∧ (on quant).flights = [] ∧
    Table.wf (on quant).bad = true ∧
    (let t := { quant with poison := [{ reg := 9, row := 0, cause := 21, addr := 0x40 }] }
     Ready (on t) 0 t (.stq ⟨false, 0, 8, 4, 0, 0⟩) ∧ t.poisonOf 8 0 = none ∧ (t.poisonOf 9 0).isSome = true ∧ 1 < spanOf 1) := by
  unfold Ready; decide +kernel

/-- LDQ of a tensor line, of a line of no tensor, of a bad descriptor, and of one that spans beyond v31. -/
theorem wit_QuantisedLines_load :
    (∀ s ∈ [described 0, described 0x7F13, described 0x7F10], Ready s 0 quant (.ldq ⟨false, 0, 10, 4, 0, 0⟩) ∧
      s.passCause 0 quant [0] 64 { classes := [0, 1] } = none ∧
      s.translate 0 1 0 { rd := true } = .page (dataPage 0) ∧ s.badDesc 0x100000 = false) ∧
    Ready (described 0x7F10) 0 quant (.ldq ⟨false, 0, 31, 4, 0, 0⟩) ∧
    tensorOf ((described 0).desc 0x100000) = none ∧ (tensorOf ((described 0x7F13).desc 0x100000)).isSome ∧
    ({ described 0x7F13 with bad := [(0x4000, false, true)] } : State).badDesc 0x100000 = true ∧ quant.policy ≠ 0 ∧
    ({ described 0x7F13 with bad := [(0x4000, true, false)] } : State).badData 0x100000 = true ∧ 10 + spanOf 8 ≤ 32 ∧
    (described 0).SliceRoom 0 ∧ ((described 0).core 0).lines = [] ∧ (described 0).flights = [] := by
  unfold Ready State.SliceRoom; decide +kernel

/-- Elements 1 and 2 at scale code 127 read as 1.0 and 2.0; the elements 1.0 and -2.0 are stored with a tensor descriptor of
width 8 (R165, R166, R169). -/
theorem test_quantised :
    (after (.ldq ⟨false, 0, 10, 4, 0, 0⟩) (described 0x7F13) 0).map (fun t => t.lane 10 0) = some 0x400000003F800000 ∧
    (after (.ldq ⟨false, 0, 10, 4, 0, 0⟩) (described 0) 0).map (fun t => t.trap.cause) = some 20 ∧
    (result (exec (.stq ⟨false, 0, 8, 4, 0, 3⟩) (on quant))).map (fun s => (s.desc 0x100000).extractLsb' 0 8) = some 0x13 := by
  decide +kernel

/-- The cached line with a dirty byte. -/
def dirtied : State := { cached busy with cores := [(0, { lines := [{ line0 with dirty := 2 }] })] }

theorem wit_FencesAndCaches :
    (∀ f ∈ [(0 : BitVec 6), 1, 2, 6], ∀ s ∈ [cached busy, dirtied], Ready s 0 busy (.fence ⟨false, 0, 0, 0, f⟩)) ∧
    (∀ l ∈ ((cached busy).core 0).lines, l.ctx = 1 → l.dirty = 0) ∧
    (∀ l ∈ (dirtied.core 0).lines, l.dirty ≠ 0 ∧ cacheSel ⟨false, 0, 0, 0, 32⟩ busy l = true) ∧
    (cached busy).flightsOf 0 1 = [] ∧ (cached busy).fabricBusy busy = false ∧
    (∀ x ∈ ([Instr.l1inv, .l1wb] : List (FmtS → Instr)), ∀ s ∈ [cached busy, dirtied], Ready s 0 busy (x ⟨false, 0, 0, 0, 32⟩)) ∧
    Table.wf (cached busy).flights = true ∧ (∀ e ∈ (cached busy).flights, e.1 < (cached busy).serial) ∧
    Ready (on { busy with phase := 1 }) 0 { busy with phase := 1 } (.l1wb ⟨false, 0, 0, 0, 32⟩) := by
  unfold Ready; decide +kernel

def aimed (a : Word) : Team := { busy with sr := [(4, a)] }

/-- Acquiring loads, releasing stores and prefetches, below QUAD in the L1 and from QUAD on at the home. -/
theorem wit_OrderedAccesses :
    Ready (cached (aimed 56)) 0 (aimed 56) (.ldacq ⟨false, 3, 4, 0, 1⟩) ∧
    (cached (aimed 56)).passCause 0 (aimed 56) [56] 8 { classes := loadClasses } = none ∧
    (cached (aimed 56)).hit 0 1 56 8 { classes := loadClasses } = some line0 ∧
    Ready (on (aimed 56)) 0 (aimed 56) (.ldacq ⟨false, 3, 4, 0, 2⟩) ∧
    (on (aimed 56)).passCause 0 (aimed 56) [56] 8 { classes := loadClasses } = none ∧
    (on (aimed 56)).translate 0 1 56 { rd := true } = .page (dataPage 56) ∧ (on (aimed 56)).badData (dataPage 56).pa = false ∧
    (∀ f ∈ [(1 : BitVec 6), 2, 11], Ready (on (aimed 56)) 0 (aimed 56) (.strel ⟨false, 0, 4, 5, f⟩)) ∧
    (∀ nt ∈ [false, true], (on (aimed 56)).passCause 0 (aimed 56) [56] 8 { store := true, classes := storeClasses, nt := nt } = none) ∧
    ((on (aimed 56)).release 0 (aimed 56) 2).2 = none ∧
    (∀ f ∈ [(0 : BitVec 6), 1], Ready (on (aimed 56)) 0 (aimed 56) (.pfd ⟨false, 0, 4, 0, f⟩)) ∧
    ((on (aimed 56)).accessCause 0 (aimed 56) 0 64 { classes := loadClasses }).or
      ((on (aimed 56)).classCause 0 (aimed 56) 0 64 { classes := loadClasses }) = none ∧ (on (aimed 56)).flights = [] ∧
    (on (aimed 56)).hit 0 1 0 64 { classes := loadClasses } = none ∧
    (on (aimed 56)).translate 0 1 0 { rd := true } = .page (dataPage 0) ∧ (on (aimed 56)).badData (64 * (dataPage 0).pa) = false ∧
    Ready (on (aimed 0x0100000000000000)) 0 (aimed 0x0100000000000000) (.pfd ⟨false, 0, 4, 0, 0⟩) ∧
    (on busy).accessCause 0 busy 0x0100000000000000 64 { classes := loadClasses } = some 17 ∧
    (let s := { on (aimed 56) with tlb := [], ctxs := [(1, { probeContext with ptroot := 0xFFFFFFFFFFFFF000 })] }
     Ready s 0 (aimed 56) (.pfd ⟨false, 0, 4, 0, 0⟩) ∧ s.accessCause 0 (aimed 56) 0 64 { classes := loadClasses } = some 23) := by
  unfold Ready; decide +kernel

/-- The same of a system thread, at a physical address. -/
theorem wit_OrderedAccesses_thread :
    (∀ i ∈ ([.ldacq ⟨false, 3, 4, 0, 3⟩, .strel ⟨false, 0, 4, 5, 3⟩] : List Instr),
      Ready (onSystem [(4, 0x100038)]) 16384 (sysTeam [(4, 0x100038)]) i) ∧
    (sysTeam [(4, 0x100038)]).role = .system ∧ (sysTeam [(4, 0x100038)]).level = 2 ∧ 0x100038 % 8 = 0 ∧ isPopulated 0x100038 = true ∧
    (onSystem [(4, 0x100038)]).badData 0x100038 = false ∧ Memory.wf (onSystem [(4, 0x100038)]).mem = true := by
  unfold Ready; decide +kernel

/-- A FENCE at DIE scope drops a clean line; over a dirty one the team waits for the write-back of its byte (R208, R209). -/
theorem test_fence :
    (result (exec (.fence ⟨false, 0, 0, 0, 3⟩) (cached busy))).map (fun s => (s.core 0).lines.length) = some 0 ∧
    (result (exec (.fence ⟨false, 0, 0, 0, 3⟩) dirtied)).map
      (fun s => ((s.team? 0).map fun t => (t.wait, t.pc), s.flights.map fun e => e.2.mask)) = some (some (.acks [10], 0), [2]) ∧
    (after (.ldacq ⟨false, 3, 4, 0, 1⟩) (cached { busy with sr := [(4, 56)] }) 0).map (fun t => t.s 3) = some 0x3F3E3D3C3B3A3938 := by
  decide +kernel

/-- A value that the content store is still to return to the team. -/
def due (s : State) : State := { s with pendings := [(3, { core := 0, team := 9, kind := 3, targets := [.scalar 5 77] })] }

theorem wit_ValueDue :
    (∀ i ∈ ([.fence ⟨false, 0, 0, 0, 3⟩, .strel ⟨false, 0, 4, 5, 3⟩, .barv ⟨false, 0, 0, 1, 1⟩, .bars ⟨false, 0, 0, 1, 1⟩] : List Instr),
      Ready (due (on busy)) 0 busy i) ∧ (due (on busy)).valueDue 9 = some 3 ∧ (on busy).valueDue 9 = none ∧ busy.phase ≠ 1 := by
  unfold Ready; decide +kernel

/-- A release waits for the value (R432). -/
theorem test_value_due :
    (after (.fence ⟨false, 0, 0, 0, 3⟩) (due (on busy)) 0).map (fun t => (t.wait, t.pc)) = some (.value 3, 0) ∧
    (after .storeValueReturn { due (on { busy with wait := .value 3 }) with detail := .place 3 0 } 0).map (fun t => (t.wait, t.s 5)) =
      some (.ready, 77) := by decide +kernel

/-- One lane with data 5, offset 64 and new value 9 in v8 to v10. -/
def atomic : Team :=
  { team with active := 2, live := 2, v := [(8, [0, 5]), (9, [0, 64]), (10, [0, 9])] }

/-- Three lanes of two passes; two of them with one location. -/
def atomics : Team :=
  { team with
    width := 64, active := 0x100000006, live := 0x100000006
    v := [(8, (List.range 64).map fun l => BitVec.ofNat 64 (l + 1))
          , (9, (List.range 64).map fun l => if l == 1 then 72 else 64), (10, List.replicate 64 9)] }

/-- The page of lane l's address. -/
def atomicPage (t : Team) (l : Nat) : Page := dataPage (t.lane 9 l).toNat

/-- One lane, and several lanes of two passes of which two share a location. -/
theorem wit_AtomicLanes : ∀ t ∈ [atomic, atomics],
    (∀ x ∈ ([Instr.aadd, .amin, .amax, .aand, .aor, .axor, .axch] : List (FmtA → Instr)),
      Ready (on t) 0 t (x ⟨false, 0, 8, 0, 6, true, false, 0⟩) ∧ Ready (on t) 0 t (x ⟨false, 0, 8, 0, 0, false, false, 1⟩)) ∧
    (∀ x ∈ ([Instr.afadd, .afmax] : List (FmtA → Instr)), Ready (on t) 0 t (x ⟨false, 0, 8, 0, 0, false, false, 1⟩)) ∧
    Ready (on t) 0 t (.acas ⟨false, 0, 8, 0, 0, false, false, 0⟩) ∧ t.poisonStop (atomicRegs 8 9) = none ∧
    Ready (due (on t)) 0 t (.acas ⟨false, 0, 8, 0, 0, false, false, 0⟩) ∧ (due (on t)).valueDue 9 = some 3 ∧ (on t).valueDue 9 = none ∧
    (on t).SliceRoom 0 ∧
    (on t).fabricBusy t = false ∧ ((on t).core 0).lines = [] ∧ (on t).flights = [] ∧ ((on t).ctx 1).key ≠ none ∧
    Memory.wf (on t).mem = true ∧
    ∀ l ∈ lanesOf (t.takers 0) t.width, let a := t.s 0 + t.lane 9 l
      a.toNat % 8 = 0 ∧ canonical a = true ∧ ((on t).tlbFind 0 1 (sig57 a)).isSome = true ∧
      (on t).translate 0 1 a { wr := true } = .page (atomicPage t l) ∧ (atomicPage t l).cls = 0 ∧ (atomicPage t l).pa % 8 = 0 := by
  unfold Ready State.SliceRoom; decide +kernel

/-- AFADD.R of device memory by the same teams; one contribution that arrives alone, and one that finds another to its
location, into which a third has merged. -/
theorem wit_MergedAdds :
    (∀ t ∈ [atomic, atomics], Ready (on t) 0 t (.afadd ⟨false, 0, 8, 0, 0, true, false, 1⟩) ∧ t.poisonStop [8, 9] = none ∧
      ∀ l ∈ lanesOf (t.takers 0) t.width, (t.lane 9 l).toNat % 4 = 0 ∧ isCxl (atomicPage t l).pa = false) ∧
    (let f : Flight := { core := 0, ctx := 1, pa := 0x4001, mask := 0, data := 0, desc := none, add := some (0x100040, 0x3F800000) }
     ∀ fs ∈ [[(3, f)], [(3, f), (4, { f with core := 1 }), (5, { f with into := some 3 })]],
      let s := { on atomic with detail := .place 3 0, flights := fs }
      s.detail = .place 3 0 ∧ Table.find? s.flights 3 = some f ∧ f.add = some (0x100040, 0x3F800000) ∧ f.into = none ∧
      Table.wf s.flights = true ∧ Memory.wf s.mem = true ∧ s.badData 0x100040 = false ∧ 0x100040 % 4 = 0 ∧
      ({ s with bad := [(0x4001, true, false)] } : State).badData 0x100040 = true) := by
  unfold Ready; decide +kernel

/-- Mask word, lanes and first values of a slice that is filled. -/
def sliceParts : Target → Nat × BitVec 32 × List Word
  | .slice _ row m vals _ _ => (row, m, vals.take 3)
  | .scalar _ _ => (0, 0, [])

/-- Lanes 2 and 32 add to one location in their order, each finding what the one before has left: 2 + 3, then 5 + 33; lane 1
adds to the next doubleword (R231). -/
theorem test_atomic_lanes :
    let s := (result (exec (.aadd ⟨false, 0, 8, 0, 0, false, false, 0⟩) { on atomics with mem := [(0x100040, 2#8)] })).getD State.reset
    s.mem = [(0x100040, 38#8), (0x100048, 2#8)] ∧
    (s.pendings.flatMap fun e => e.2.targets.map sliceParts) = [(0, 6, [0, 0, 2]), (1, 1, [5, 0, 0])] := by decide +kernel

/-- 2 + 5 = 7 at the home, the old 2 on its way; a compare and swap that matches stores 9 (R229 to R231). -/
theorem test_atomics :
    (result (exec (.aadd ⟨false, 0, 8, 0, 0, false, false, 0⟩) { on atomic with mem := [(0x100040, 2#8)] })).map
      (fun s => (s.mem, s.pendings.map fun e => e.2.targets.length)) = some ([(0x100040, 7#8)], [1]) ∧
    (result (exec (.acas ⟨false, 0, 8, 0, 0, false, false, 0⟩) { on atomic with mem := [(0x100040, 5#8)] })).map (fun s => s.mem) =
      some [(0x100040, 9#8)] ∧
    (result (exec (.amax ⟨false, 0, 8, 0, 0, true, false, 1⟩) { on atomic with mem := [(0x100040, 2#8)] })).map
      (fun s => (s.mem, s.pendings.length)) = some ([(0x100040, 5#8)], 0) := by decide +kernel

/-- A team whose core expects two arrivals at CORE barrier 5 and has had none or one. -/
def barred (arrived : Nat) : State := { on busy with cores := [(0, { bars := [(barKey 1 5, { expected := 2, arrived := arrived })] })] }

theorem wit_Barriers :
    let f : FmtE := ⟨false, 0, 0, 5, 1⟩
    let waiting := { busy with pendingBars := [barKey 1 5] }
    (∀ x ∈ ([Instr.barv, .barw, .bars] : List (FmtE → Instr)), (∀ n ∈ [0, 1], Ready (barred n) 0 busy (x f)) ∧
      Ready (on busy) 0 busy (x ⟨false, 0, 0, 15, 3⟩) ∧ Ready (on busy) 0 busy (x ⟨false, 0, 0, 15, 4⟩)) ∧
    Ready (on waiting) 0 waiting (.barv f) ∧ Ready (on waiting) 0 waiting (.barw f) ∧
    (∀ q ∈ [(0 : BitVec 5), 4, 5], Ready (barred 0) 0 busy (.bari ⟨false, 0, q, 5, 1⟩)) ∧ Ready (on busy) 0 busy (.bari ⟨false, 0, 4, 0, 3⟩) ∧
    (barOf f).1 = 1 ∧ ((on busy).ctx 1).bargrant.getLsbD 15 = false ∧ ((on busy).ctx 1).bargrant.getLsbD (16 + 15) = false ∧
    (∀ n ∈ [0, 1], (((barred n).core 0).bar (barKey 1 5)).expected = 2 ∧ (((barred n).core 0).bar (barKey 1 5)).arrived = n) ∧
    busy.pendingBars = [] ∧ busy.phase ≠ 1 := by unfold Ready; decide +kernel

/-- Barriers of the wider scopes, granted to the context: cores 0 and 1 expect one arrival each; core 1's has come or not; and a
core that expects none. -/
def barredWide (sc came mine : Nat) (t : Team) : State :=
  { on t with
    ctxs := [(1, { probeContext with bargrant := 0x200020 })]
    cores := [(0, { bars := [(barKey sc 5, { expected := mine, arrived := 0 })] })
              , (1, { bars := [(barKey sc 5, { expected := 1, arrived := came })] })] }

theorem wit_Barriers_wide : ∀ sc ∈ [2, 3, 4], ∀ came ∈ [0, 1], ∀ mine ∈ [0, 1],
    let f : FmtE := ⟨false, 0, 4, 5, BitVec.ofNat 6 sc⟩
    let past := { busy with phase := 1 }
    let s := barredWide sc came mine busy
    (∀ x ∈ ([Instr.barv, .barw, .bars, .bari] : List (FmtE → Instr)),
      Ready s 0 busy (if x f = .bari f then .bari f else x { f with q := 0 })) ∧
    Ready (barredWide sc came mine past) 0 past (.bars { f with q := 0 }) ∧ (barOf f).1 = sc ∧ (barOf f).2 = 5 ∧
    (sc = 3 → (s.ctx 1).bargrant.getLsbD 5 = true) ∧ (sc = 4 → (s.ctx 1).bargrant.getLsbD (16 + 5) = true) ∧
    0 ∈ s.barCores 0 1 sc ∧ 1 ∈ s.barCores 0 1 sc ∧ (s.core 0).lines = [] ∧ s.flights = [] ∧ s.fabricBusy busy = false := by
  unfold Ready; decide +kernel

/-- The last arrival of a QUAD barrier releases both cores' counters; one too early waits (R239, R241, R244). -/
theorem test_wide_barriers :
    (result (exec (.bars ⟨false, 0, 0, 5, 2⟩) (barredWide 2 1 1 busy))).map
      (fun s => ([0, 1].map fun c => (s.core c |>.bar (barKey 2 5)).arrived, (s.team? 0).map fun t => t.pc)) = some ([0, 0], some 4) ∧
    (result (exec (.bars ⟨false, 0, 0, 5, 4⟩) (barredWide 4 0 1 busy))).map
      (fun s => ([0, 1].map fun c => (s.core c |>.bar (barKey 4 5)).arrived, (s.team? 0).map fun t => t.pc)) = some ([1, 0], some 0) := by
  decide +kernel

/-- The first of two arrivals is counted and waits; the second releases both (R239, R240). -/
theorem test_barriers :
    (result (exec (.bars ⟨false, 0, 0, 5, 1⟩) (barred 0))).map
      (fun s => ((s.core 0).bar (barKey 1 5) |>.arrived, (s.team? 0).map fun t => (t.wait, t.pc))) = some (1, some (.barrier 1 5, 0)) ∧
    (result (exec (.barv ⟨false, 0, 0, 5, 1⟩) (barred 1))).map
      (fun s => ((s.core 0).bar (barKey 1 5) |>.arrived, (s.team? 0).map fun t => (t.pendingBars, t.pc))) = some (0, some ([], 4)) ∧
    (after (.barw ⟨false, 0, 0, 15, 3⟩) (on busy) 0).map (fun t => t.trap.cause) = some 12 ∧
    (result (exec (.bari ⟨false, 0, 4, 5, 1⟩) (on busy))).map (fun s => (s.core 0).bar (barKey 1 5) |>.expected) = some 7 := by decide +kernel

/-! ### The copy engine, batches, pipes -/

/-- A team whose scalars from s8 on are a list. -/
def crew (xs : List Word) : Team := { busy with sr := (List.range xs.length).map fun i => (8 + i, xs.getD i 0) }

/-- An operation of the team. -/
def job (cls : Nat) (w : Work) : Op :=
  { core := 0, key := 0, uid := 9, ctx := 1, block := 0, part := 0, launch := 0, cls := cls, batch := 1, issue := 0x40, work := w
    since := 0 }

/-- Core 0 with 64 copies under way. -/
def crowded (t : Team) : State := { on t with ops := (List.range 64).map fun i => (i, job 0 (.settled none)) }

theorem wit_Copies_cpy :
    (∀ f ∈ [(2 : BitVec 6), 6, 10], ∀ s ∈ [on (crew [0, 64, 16]), crowded (crew [0, 64, 16])],
      Ready s 0 (crew [0, 64, 16]) (.cpy ⟨false, 8, 0, 0, f⟩)) ∧
    (∀ f ∈ [(0 : BitVec 6), 1, 3], ∀ t ∈ [crew [0, 0, 1024], crew [1, 1, 1024], crew [5, 5, 0]], Ready (on t) 0 t (.cpy ⟨false, 8, 0, 0, f⟩)) ∧
    (on busy).scratchSize busy = 1024 ∧ (on busy).copyFull (coreOf 0) = false ∧ (crowded busy).copyFull (coreOf 0) = true := by
  unfold Ready; decide +kernel

/-- CPYP: 129 rows; a misaligned address; K no multiple of a line; planes that just fit and that do not. -/
theorem wit_Copies_planes :
    (∀ t ∈ [crew [0, 0, 0x800000000000], crew [4, 0, 0], crew [0, 0, 0x0001000000000000]], ∀ f ∈ [(3 : BitVec 6), 8],
      Ready (on t) 0 t (.cpyp ⟨false, 8, 0, 0, f⟩)) ∧
    (∀ t ∈ [crew [0, 4, 0], crew [0, 0, 0x00010000200003E8], crew [0, 0, 0x0001000020000000]], ∀ s ∈ [on t, crowded t],
      Ready s 0 t (.cpyp ⟨false, 8, 0, 0, 3⟩)) ∧
    planeShape 0x00010000200003E8 = (1000, 512, 1, 128) ∧ planeShape 0x0001000020000000 = (0, 512, 1, 128) ∧
    planeShape 0x800000000000 = (0, 0, 129, 0) ∧ planeShape 0x0001000000000000 = (0, 0, 1, 128) ∧
    128 % (512 / planeWidth 3) = 0 ∧ 128 % (512 / planeWidth 8) ≠ 0 ∧
    0 + planeWidth 3 * 1 * 128 / 8 ≤ (on busy).scratchSize busy := by
  unfold Ready; decide +kernel

theorem wit_Copies_gather :
    ∀ x ∈ ([Instr.gath, .scat] : List (FmtE → Instr)), ∀ t ∈ [crew [0, 0, 2, 0x100000010], crew [0, 0, 1024, 0x100000010],
      crew [0, 0, 1020, 0x100000400], crew [0, 0, 1020, 0x10]],
      Ready (on t) 0 t (x ⟨false, 8, 0, 0, 0⟩) ∧ Ready (crowded t) 0 t (x ⟨false, 8, 0, 0, 0⟩) := by
  unfold Ready; decide +kernel

/-- A copy under way. -/
def copying (w : Work) (o : Op → Op) : State :=
  { on busy with detail := .place 3 0, ops := [(3, o (job 0 w))], mem := [(0x100000, 7#8)]
                 blocks := [(0, { block with scratch := [(0, [(64, 9#8)])] })] }

theorem wit_Copies_end :
    (∀ i, i < 4 →
      (copying (.copy 0 0 128 4 0 0) id).engineCause (job 0 (.copy 0 0 128 4 0 0)) (0 + BitVec.ofNat 64 i) false [0, 1, 4] = none ∧
      (copying (.copy 0 0 128 4 0 0) id).badData
        ((copying (.copy 0 0 128 4 0 0) id).engineAddr (job 0 (.copy 0 0 128 4 0 0)) (0 + BitVec.ofNat 64 i) false) = false) ∧
    (copying (.copy 3 64 128 4 0 0) id).detail = .place 3 0 ∧
    (copying (.copy 0 0 128 4 0 0) id).away 1 = false ∧ Table.wf [(64, 9#8)] = true ∧
    ((copying (.copy 0 0x0100000000000000 128 16 0 0) id).copyAct (job 0 (.copy 0 0x0100000000000000 128 16 0 0))).2.map
      (fun x => (x.cause, x.addr)) = some (17, 0x0100000000000000) ∧
    (copying (.copy 0 0 128 16 0 0) fun o => { o with miss := some 1 }).detail = .place 3 0 ∧
    (copying (.copy 0 0 128 4 0 0) id).flights = [] := by decide +kernel

/-- A copy out of the scratchpad to memory; and one that meets a page which is not mapped, before and after its miss was
answered without a mapping. -/
theorem wit_Copies_out :
    let s := copying (.copy 1 64 128 4 0 0) id
    let o := job 0 (.copy 1 64 128 4 0 0)
    (∀ i, i < 4 → s.engineCause o (128 + BitVec.ofNat 64 i) true [0, 4] = none ∧
      s.engineAddr o (128 + BitVec.ofNat 64 i) true = 0x100080 + i ∧ (s.tlbFind 0 1 (128 + i)).isSome = true) ∧
    (s.core 0).lines = [] ∧ Memory.wf s.mem = true ∧ s.block? 0 = some { block with scratch := [(0, [(64, 9#8)])] } ∧
    (∀ f ∈ [id, fun o => { o with unserved := some 3 }],
      let s := copying (.copy 0 0x30000 128 16 0 0) f
      (s.copyAct (f (job 0 (.copy 0 0x30000 128 16 0 0)))).2.map (fun x => (x.cause, x.addr)) = some (16, 0x30000)) := by
  decide +kernel

/-- Two rows of two bytes, 16 apart in their source and 64 in their destination, between each pair of sides. -/
def framed (dir : Nat) : Work := .copy (dir + 4) 0 128 0x0000000200000002 0x0000004000000010 0
def framedAt (hi : Bool) (i : Nat) : Word :=
  (if hi then 128 else 0) + BitVec.ofInt 64 (halfInt 0x0000004000000010 hi * (i / 2 % 2 : Nat)) + BitVec.ofNat 64 (i % 2)

theorem wit_BytesMoved_frames :
    copyShape 1 0x0000000200000002 = (2, 2, 1) ∧
    ∀ dir : Fin 4, MayMove (copying (framed dir) id) (job 0 (framed dir)) (dir == 0 || dir == 2) (dir == 1 || dir == 2) 4
      (framedAt false) (framedAt true) := by
  refine ⟨by decide +kernel, fun dir => ?_⟩
  match dir with
  | 0 => exact ⟨by decide +kernel, by decide +kernel, by decide +kernel, fun _ => ⟨{ block with scratch := [(0, [(64, 9#8)])] }, rfl, by decide⟩⟩
  | 1 => exact ⟨by decide +kernel, by decide +kernel, by decide +kernel, by decide +kernel⟩
  | 2 => exact ⟨by decide +kernel, by decide +kernel, by decide +kernel, by decide +kernel⟩
  | 3 => exact ⟨by decide +kernel, by decide +kernel, by decide +kernel, fun _ => ⟨{ block with scratch := [(0, [(64, 9#8)])] }, rfl, by decide⟩⟩

/-- Two elements of two bytes whose indices, 9 and 0, stand at 64 in the scratchpad, gathered and scattered. -/
theorem wit_BytesMoved_lists : ∀ scatter : Bool,
    let w : Work := .gather scatter 0 128 64 0x0000000200000002 8
    let s := copying w id
    let place := fun (i : Nat) => (0 : Word) + BitVec.ofNat 64
      (ofBytes ((List.range 4).map fun j => s.engineScratch (job 0 w) (64 + 4 * (i / 2) + j))) * 8 + BitVec.ofNat 64 (i % 2)
    let list := fun (i : Nat) => (128 : Word) + BitVec.ofNat 64 i
    MayMove s (job 0 w) (!scatter) scatter 4 (if scatter then list else place) (if scatter then place else list) := by
  intro scatter
  cases scatter
  · exact ⟨by decide +kernel, by decide +kernel, by decide +kernel, fun _ => ⟨{ block with scratch := [(0, [(64, 9#8)])] }, rfl, by decide⟩⟩
  · exact ⟨by decide +kernel, by decide +kernel, by decide +kernel, by decide +kernel⟩

/-- One row of two lines of width 8, whose planes and scales lie apart. -/
theorem wit_BytesMoved_planes :
    let w : Work := .planes 3 0 64 0x0001000020000000
    let s : State := { copying w id with descs := [(0x4000, 0x7F13), (0x4001, 0x7F13)] }
    let o := job 0 w
    planeWidth 3 = 8 ∧ 128 % (512 / 8) = 0 ∧ 0 + 8 * (1 * 128 / 8) ≤ 512 ∧ (s.core o.core).lines = [] ∧ s.flights = [] ∧
    ∀ c, c < 128 / 64 → let a := (0 : Word) + BitVec.ofNat 64 0 * 64 + BitVec.ofNat 64 (64 * c)
      s.engineCause o a false [0, 1] = none ∧ s.badData (s.engineAddr o a false) = false ∧
      s.badDesc (s.engineAddr o a false) = false ∧ (s.desc (s.engineAddr o a false)).toNat % 256 = 0x10 + 3 := by decide +kernel

/-- Rows of a frame, from memory to memory; elements gathered and scattered by their indices (R254, R257). -/
theorem test_frames :
    (result (exec .copyOpComplete { copying (framed 2) id with mem := [(0x100000, 7#8), (0x100011, 8#8)] })).map
      (fun s => (s.byte 0x100080, s.byte 0x1000C1, s.byte 0x1000C0)) = some (7, 8, 0) ∧
    (result (exec .copyOpComplete { copying (.gather false 0 128 64 0x0000000200000002 8) id with mem := [(0x100000, 7#8), (0x100049, 8#8)] })).map
      (fun s => (s.scratchByte busy 129, s.scratchByte busy 130)) = some (8, 7) ∧
    (result (exec .copyOpComplete (copying (.gather true 0 60 64 0x0000000200000004 8) id))).map (fun s => s.byte 0x100000) = some 9 := by
  decide +kernel

/-- Byte 7 of memory comes into the scratchpad; byte 9 of the scratchpad moves within it, and out (R254). -/
theorem test_copies :
    (result (exec .copyOpComplete (copying (.copy 0 0 128 1 0 0) id))).map (fun s => (s.scratchByte busy 128, s.ops.length)) = some (7, 0) ∧
    (result (exec .copyOpComplete (copying (.copy 3 64 130 1 0 0) id))).map (fun s => s.scratchByte busy 130) = some 9 ∧
    (result (exec .copyOpComplete (copying (.copy 1 64 2 1 0 0) id))).map (fun s => s.mem) = some [(0x100000, 7#8), (0x100002, 9#8)] := by
  decide +kernel

/-- A plane load of a line of 64 elements of width 8, all 1, at scale code 0x7F: plane 0 is all ones, its scale follows (R256). -/
theorem test_planes :
    (result (exec .copyOpComplete { copying (.planes 3 0 64 0x0001020000000000) id with
      descs := [(0x4000, 0x7F13), (0x4001, 0x7F13)], mem := (List.range 64).map fun i => (0x100000 + i, 1#8) })).map
      (fun s => (s.ops.length, (s.team? 0).map fun t => t.batchC.failed.length)) = some (0, some 1) ∧
    (result (exec .copyOpComplete { copying (.planes 3 0 64 0x0001000020000000) id with
      descs := [(0x4000, 0x7F13), (0x4001, 0x7F13)], mem := (List.range 64).map fun i => (0x100000 + i, 1#8) })).map
      (fun s => (s.scratchByte busy 0, s.scratchByte busy 7, s.scratchByte busy 8, s.scratchByte busy 512)) = some (0xFF, 0xFF, 0, 0x7F) := by
  decide +kernel

/-- Batches of class C with two closed, both done, of which the second has failed once and the first twice. -/
def failing (n : Word) : Team :=
  { busy with sr := [(5, n)], batchC := { opened := 3, done := 2, failed := [⟨2, 17, 0x40, 8⟩, ⟨1, 18, 0x44, 4⟩, ⟨1, 19, 0x48, 0⟩] } }

/-- A batch that is closed and not done; fifteen of them. -/
def parked : Team := { busy with sr := [(5, 1)], batchC := { opened := 2 } }
def many : Team := { busy with batchM := { opened := 16 } }

theorem wit_Batches :
    (on busy).team? 0 = some busy ∧
    (∀ cls ∈ [(0 : BitVec 6), 1, 2, 3], Ready (on busy) 0 busy (.bstat ⟨false, 4, 0, 1, cls⟩)) ∧
    (∀ t ∈ [failing 0, failing 1, failing 2, failing 3, parked], Ready (on t) 0 t (.bwait ⟨false, 0, 5, 0, 0⟩)) ∧
    (failing 3).batches 0 = { opened := 3, done := 2, failed := [⟨2, 17, 0x40, 8⟩] ++ ⟨1, 18, 0x44, 4⟩ :: [⟨1, 19, 0x48, 0⟩] } ∧
    Ready (on many) 0 many (.bclose ⟨false, 4, 0, 0, 1⟩) ∧ 15 ≤ (many.batches 1).opened - 1 - (many.batches 1).done ∧
    (∀ s ∈ [on busy, copying (.copy 0 0 128 1 0 0) id], Ready s 0 busy (.bclose ⟨false, 4, 0, 0, 0⟩) ∧ Table.wf s.teams = true) ∧
    (on busy).ops = [] ∧ busy.batchC = {} := by
  unfold Ready; decide +kernel

/-- Words that leave their team ready in the next ACLK and words that do not (R95). -/
theorem wit_Completing : (on busy).team? 0 = some busy ∧ delays (.sadd ⟨true, 3, 4, 5, 0⟩) busy (some busy) = false ∧
    delays (.sadd ⟨false, 3, 4, 5, 0⟩) busy (some busy) = false ∧
    delays (.loop ⟨false, 0, 4, 0, 9⟩) busy (some busy) = true ∧ chainBit (.sadd ⟨true, 3, 4, 5, 0⟩) = true ∧
    freeNop busy (.sadd ⟨true, 3, 4, 5, 0⟩) = false ∧ ((on busy).core 0).runOf false ≠ some 0 := by decide +kernel

/-- The operations of two closed batches, of which the first ends: the done number goes on to it and no further (R247). -/
def draining : State :=
  let t := { busy with batchC := { opened := 3, done := 0 } }
  { on t with detail := .place 3 0, ops := [(3, job 0 (.copy 0 0 128 1 0 0)), (4, { job 0 (.copy 0 0 128 1 0 0) with batch := 2 })] }

theorem wit_Batches_end : ∀ id ∈ [3, 4],
    (Table.find? draining.ops id).map (fun o => (o.cls, o.uid)) = some (0, 9) ∧ Table.wf draining.teams = true ∧
    Table.wf draining.ops = true ∧ (draining.team? 0).map (fun t => (t.uid, t.batches 0)) = some (9, { opened := 3, done := 0 }) := by
  decide +kernel

theorem test_batch_order :
    ((draining.endOp 3 none).team? 0).map (fun t => t.batchC.done) = some 1 ∧
    ((draining.endOp 4 none).team? 0).map (fun t => t.batchC.done) = some 0 ∧
    (((draining.endOp 4 none).endOp 3 (some (17, 8))).team? 0).map (fun t => (t.batchC.done, t.batchC.failed.length)) = some (2, 1) := by
  decide +kernel

theorem wit_Batches_alone : ∀ j u, (on busy).team? j = some u → u.uid = busy.uid → j = 0 := uid_unique (by decide)

/-- BCLOSE completes an empty batch; BWAIT reports the first failure of the lowest batch (R247, R251). -/
theorem test_batches :
    (after (.bclose ⟨false, 4, 0, 0, 2⟩) (on busy) 0).map (fun t => (t.s 4, t.batchF.opened, t.batchF.done)) = some (1, 2, 1) ∧
    (after (.bclose ⟨false, 4, 0, 0, 0⟩) (copying (.copy 0 0 128 1 0 0) id) 0).map (fun t => (t.s 4, t.batchC.opened, t.batchC.done)) =
      some (1, 2, 0) ∧
    (after (.bclose ⟨false, 4, 0, 0, 1⟩) (on many) 0).map (fun t => (t.wait, t.wait.parks)) = some (.close 1 1, false) ∧
    (after (.bwait ⟨false, 0, 5, 0, 0⟩) (on (failing 2)) 0).map (fun t => (t.trap.cause, t.trap.issue, t.trap.eng, t.batchC.failed.length)) =
      some (18, 0x44, true, 1) ∧
    (after (.bwait ⟨false, 0, 5, 0, 0⟩) (on (failing 3)) 0).map (fun t => t.trap.cause) = some 13 := by decide +kernel

/-- Pipe 1 of the team's block. -/
def piped (p : Pipe) : State := { on busy with blocks := [(0, { block with pipes := [(1, p)] })] }

def ring (n : Nat) : Pipe :=
  { producer := 0, consumer := 0, pushed := n, slots := (List.range n).map fun i => (i, some (List.replicate 256 (BitVec.ofNat 8 i))) }

/-- An ended pipe, one whose slot is not filled, and one of other teams. -/
def ended : Pipe := { ring 0 with eos := true }
def claimed : Pipe := { ring 1 with slots := [(0, none)] }
def theirs : Pipe := { ring 0 with producer := 5, consumer := 5 }

theorem wit_Pipes :
    (∀ s ∈ [piped (ring 0), piped (ring 1), piped (ring 16), piped ended, piped claimed, piped theirs],
      ∀ i ∈ ([.push ⟨false, 4, 0, 1, 0⟩, .push ⟨false, 4, 0, 1, 1⟩, .push ⟨false, 4, 0, 1, 2⟩, .push ⟨false, 5, 0, 1, 1⟩, .pop ⟨false, 4, 6, 1, 0⟩,
          .pop ⟨false, 4, 6, 1, 1⟩, .pop ⟨false, 4, 6, 1, 2⟩, .pop ⟨false, 5, 6, 1, 1⟩, .peos ⟨false, 0, 0, 1, 0⟩, .pstat ⟨false, 7, 0, 1, 0⟩] : List Instr),
        Ready s 0 busy i) ∧
    (∀ x ∈ ([Instr.push, .pop, .peos] : List (FmtE → Instr)), Ready (on busy) 0 busy (x ⟨false, 0, 0, 1, 0⟩)) ∧
    Ready (on busy) 0 busy (.pstat ⟨false, 7, 0, 1, 0⟩) ∧
    (on busy).pipe? busy 1 = none ∧ busy.passesLeft = [0] ∧ (∀ r, r < 32 → busy.poisonOf r 0 = none) ∧
    (busy.s 4).toNat + 256 ≤ (on busy).scratchSize busy ∧ (on busy).scratchSize busy < (busy.s 5).toNat + 256 ∧
    (ring 1).poppable = 1 ∧ (ring 0).poppable = 0 ∧ claimed.poppable = 0 ∧
    Table.wf (ring 16).slots = true ∧ (ring 16).slots.length = 16 ∧ pipeOf ⟨false, 0, 0, 1, 2⟩ = 1 := by
  unfold Ready; decide +kernel

/-- A push of v1 fills a slot with its 256 bytes; a pop reads lane 0 of the oldest; at the end of the stream the pop reports 0;
an ended pipe refuses a push (R260 to R262). -/
theorem test_pipes :
    (result (exec (.push ⟨false, 1, 0, 1, 2⟩) (piped (ring 0)))).map (fun s => (s.pipe? busy 1).map fun p => (p.pushed, p.slots.map fun e => e.2.map fun b => (b.length, b.getD 0 0))) =
      some (some (1, [some (256, 5)])) ∧
    (after (.pop ⟨false, 3, 6, 1, 2⟩) (piped { ring 3 with popped := 2, slots := [(2, some (List.replicate 256 2))] }) 0).map (fun t => (t.lane 3 0, t.s 6)) =
      some (0x0202020202020202, 1) ∧
    (after (.pop ⟨false, 4, 5, 1, 1⟩) (piped { ring 0 with eos := true }) 0).map (fun t => (t.s 5, t.pc)) = some (0, 4) ∧
    (after (.push ⟨false, 1, 0, 1, 2⟩) (piped { ring 0 with eos := true }) 0).map (fun t => t.trap.cause) = some 99 := by decide +kernel

/-! ### The matrix array -/

/-- Maps of one row of A and 128 rows of B, of 128 elements of width 1. -/
def mapA : OperandMap := { role := 0, pbase := 0, sbase := 16, rows := 1, ksize := 512, width := 1, binary := true }
def mapB : OperandMap := { mapA with role := 1, rows := 128 }

/-- A team with both maps and a window of 64 rows. -/
def arrayed (xs : List Word) : Team := { crew xs with window := (0, 64), maps := [(0, mapA), (1, mapB)] }

theorem wit_MatrixSetup :
    (∀ t ∈ [crew [0x0001000020000000], crew [0], crew [0x00010000200003E8], crew [0x0001800020000000]],
      ∀ i ∈ [Instr.mapset ⟨false, 8, 0, 5, 3⟩, .mapset ⟨false, 8, 0, 5, 8⟩, .mapset ⟨false, 8, 0, 5, 19⟩], Ready (on t) 0 t i) ∧
    (bitsOf 0x0001000020000000 0 20 + 8 * 1 * 128 / 8 ≤ 1024 ∧ bitsOf 0x0001000020000000 20 20 + 1 * 128 / (512 / 8) ≤ 1024) ∧
    ¬(bitsOf 0x00010000200003E8 0 20 + 8 * 1 * 128 / 8 ≤ 1024) ∧ 128 % (512 / 1) ≠ 0 := by unfold Ready; decide +kernel

/-- A team that is not its block's leader; a leader with matrix work. -/
def led : Team := { crew [0x0000000800000000] with leader := 7 }
def engaged : State := { on (crew [0x0000000800000000]) with ops := [(3, job 1 (.settled none))] }

/-- WINSET by the leader on itself, by another, past the rows, and while the target has matrix work. -/
theorem wit_MatrixSetup_windows :
    (∀ t ∈ [crew [0x0000000800000000], crew [0x0000004100000000], led], Ready (on t) 0 t (.winset ⟨false, 8, 0, 0, 0⟩)) ∧
    Ready engaged 0 (crew [0x0000000800000000]) (.winset ⟨false, 8, 0, 0, 0⟩) ∧ led.leader ≠ indexOf 0 ∧
    64 * coreOf 0 + bitsOf 0x0000000800000000 0 6 = 0 ∧ (on busy).block? 0 = some block ∧ (crew []).leader = indexOf 0 ∧
    engaged.matrixOps 9 ≠ [] ∧ (on busy).matrixOps 9 = [] ∧ (crew []).mates busy = true ∧
    Team.mates { crew [] with role := .computer } { busy with role := .storer } = false := by
  unfold Ready; decide +kernel

/-- A second team of the block. -/
def second : Team := { busy with uid := 8 }
def both (t : Team) : State := { on t with teams := Table.put (on t).teams 1 second }

theorem wit_MatrixSetup_gangs :
    (∀ t ∈ [crew [0], crew [7], crew [1], crew [0x0101], crew [2], crew [0x0302], crew [0x010002]], Ready (both t) 0 t (.gang ⟨false, 8, 0, 0, 0⟩)) ∧
    ((List.range 2).map fun i => bitsOf 0x010002 (8 * i + 8) 6) = [0, 1] ∧ (both (crew [0x010002])).team? 0 = [crew [0x010002], second][0]? ∧
    (both (crew [0x010002])).team? 1 = [crew [0x010002], second][1]? ∧ second.block = 0 := by unfold Ready; decide +kernel

theorem wit_Accumulators :
    let full : State := { on (arrayed []) with cores := [(0, { matrixQueue := List.range 8 })] }
    let bare : State := { on (arrayed []) with blocks := [(0, { block with accRows := 0 })] }
    let waiting : State := { on (arrayed []) with ops := [(3, job 1 (.clearRows 0 64 5))] }
    let storer := { arrayed [] with role := .storer }
    Ready (on storer) 0 storer (.accz ⟨false, 0, 0, 0, 0⟩) ∧
    (∀ s ∈ [on (arrayed []), full, bare], Ready s 0 (arrayed []) (.accz ⟨false, 0, 0, 0, 0⟩)) ∧
    (∀ x ∈ ([Instr.accrd, .accwr] : List (FmtE → Instr)), (∀ s ∈ [on (arrayed []), bare, waiting], Ready s 0 (arrayed []) (x ⟨false, 1, 8, 0, 0⟩)) ∧
      Ready (on (arrayed [64])) 0 (arrayed [64]) (x ⟨false, 1, 8, 0, 0⟩)) ∧
    full.matrixFull (coreOf 0) = true ∧ waiting.accWaits (arrayed []) 0 = true ∧ (on (arrayed [])).accWaits (arrayed []) 63 = false ∧
    accInside (arrayed []) 63 = true ∧ accInside (arrayed []) 64 = false ∧ (arrayed []).poisonStop [1] = none ∧ Table.wf block.acc = true ∧
    (on (arrayed [])).SliceRoom 0 := by
  unfold Ready State.SliceRoom; decide +kernel

/-- The array with operation 5 queued, and running. -/
def queued : State := { on busy with detail := .place 0 0, cores := [(0, { matrixQueue := [5] })] }
def running : State :=
  { on busy with detail := .place 0 0, cores := [(0, { matrixRun := some 5 })], ops := [(3, job 1 (.clearRows 0 2 5))] }

/-- MMA alone, in each way it stops, and as the first of a gang of two. -/
theorem wit_MatrixOperations :
    (∀ x ∈ ([Instr.mma, .mmaz] : List (FmtE → Instr)),
      Ready (on (arrayed [])) 0 (arrayed []) (x ⟨false, 0, 1, 8, 0⟩) ∧ Ready (on busy) 0 busy (x ⟨false, 0, 1, 8, 0⟩) ∧
      Ready (on (arrayed [64])) 0 (arrayed [64]) (x ⟨false, 0, 1, 8, 0⟩) ∧ Ready (on (arrayed [])) 0 (arrayed []) (x ⟨false, 1, 0, 8, 0⟩) ∧
      Ready (on { arrayed [] with phase := 1 }) 0 { arrayed [] with phase := 1 } (x ⟨false, 0, 1, 8, 0⟩) ∧
      (let paired := { arrayed [] with gang := some { members := [(0, 9), (1, 8)] } }
       Ready (both paired) 0 paired (x ⟨false, 0, 1, 8, 0⟩) ∧ ∀ g ∈ paired.gangList 0, ((both paired).team? (64 * coreOf 0 + g.1)).map (fun u => u.uid) = some g.2)) ∧
    ((arrayed []).gangList 0).length = 1 ∧ (on (arrayed [])).matrixFull (coreOf 0) = false ∧ ((on (arrayed [])).core 0).latches = [] ∧
    queued.away (queued.part (queued.partOf 0)).live = false ∧ (queued.core 0).matrixRun = none ∧ (queued.core 0).matrixQueue = [5] ∧
    (running.core 0).matrixRun = some 5 ∧
    (running.ops.filter fun e => e.2.core == 0 && e.2.cls == 1 && e.2.work.number == some 5) = [(3, job 1 (.clearRows 0 2 5))] ∧
    running.block? 0 = some block := by unfold Ready; decide +kernel

/-- The last member of a gang of two, whose first waits at the latch; and the last while the queue is full (R285, R286). -/
def latched (q : List Nat) : State :=
  let paired := { arrayed [] with gang := some { members := [(0, 9), (1, 8)] } }
  { both paired with
    teams := Table.put (both paired).teams 1 { second with wait := .latch 0 }
    cores := [(0, { matrixQueue := q, latches := [(0, { members := [0, 1], b := mapB, arrived := [⟨1, false, mapA, 8⟩] })] })] }

theorem wit_MatrixIssue_last :
    let paired := { arrayed [] with gang := some { members := [(0, 9), (1, 8)] } }
    (∀ q ∈ [[], List.range 8], Ready (latched q) 0 paired (.mma ⟨false, 0, 1, 0, 0⟩) ∧
      ∀ g ∈ paired.gangList 0, ((latched q).team? g.1).map (fun u => u.uid) = some g.2) ∧
    (latched []).matrixFull 0 = false ∧ (latched (List.range 8)).matrixFull 0 = true ∧ paired.phase ≠ 1 ∧
    (paired.s 0).toNat + mapA.rows ≤ paired.window.2 := by unfold Ready; decide +kernel

/-- A latch whose map of B differs, one whose other member has gone, and a gang whose other member has gone (R285, R286). -/
theorem wit_MatrixIssue_stops :
    let paired := { arrayed [] with gang := some { members := [(0, 9), (1, 8)] } }
    let other : State := { latched [] with cores := [(0, { latches := [(0, { members := [0, 1], b := mapA, arrived := [⟨1, false, mapA, 8⟩] })] })] }
    let alone : State := { latched [] with teams := Table.del (latched []).teams 1 }
    (∀ s ∈ [other, alone, { alone with cores := [] }], Ready s 0 paired (.mma ⟨false, 0, 1, 0, 0⟩)) ∧
    ((latched []).core 0).latches = [(0, { members := [0, 1], b := mapB, arrived := [⟨1, false, mapA, 8⟩] })] ∧
    mapA ≠ mapB ∧ (alone.team? 1).map (fun u => u.uid) ≠ some 8 := by unfold Ready; decide +kernel

/-- A member that leaves loses the gang, unless it has arrived itself (R285). -/
theorem test_gang_lost :
    (((latched []).gangLost 0 0).team? 1).map (fun t => (t.wait, t.raised)) = some (.ready, some (51, 0)) ∧
    (((latched []).gangLost 0 1).team? 1).map (fun t => (t.wait, t.raised)) = some (.latch 0, none) := by decide +kernel

/-- The last arrival hands one operation of two parts to the array, and the first member goes on (R286, R287). -/
theorem test_gang :
    let s := (result (exec (.mma ⟨false, 0, 1, 0, 0⟩) (latched []))).getD State.reset
    ((s.core 0).matrixQueue, (s.core 0).latches.length) = ([10], 0) ∧
    (s.ops.map fun e => (e.2.key, e.2.uid, e.2.work.rows)) = [(0, 9, (0, 1)), (1, 8, (8, 1))] ∧
    (s.team? 1).map (fun t => (t.wait, t.phase)) = some (.ready, 1) ∧ (s.team? 0).map (fun t => t.pc) = some 4 := by decide +kernel

/-- The array with an operation of two parts to one block. -/
def ganged : State :=
  { on busy with
    detail := .place 0 0, cores := [(0, { matrixRun := some 5 })]
    ops := [(3, job 1 (.matrix true mapA mapB 0 5)), (4, { job 1 (.matrix true mapA mapB 8 5) with key := 1, uid := 8 })] }

theorem wit_MatrixArray_gang :
    let parts := ganged.ops.filter fun e => e.2.core == 0 && e.2.cls == 1 && e.2.work.number == some 5
    parts.map Prod.fst = [3, 4] ∧ (ganged.core 0).matrixRun = some 5 ∧ ganged.block? 0 = some block ∧ Table.wf block.acc = true ∧
    Table.wf ganged.ops = true ∧ (∀ e ∈ parts, e.2.block = 0 ∧ e.2.part = 0) ∧
    mapA.ksize / Nat.min (perLine mapA.width) (perLine mapB.width) ≤ 1048576 ∧
    parts.Pairwise (fun d e => d.2.work.rows.1 + d.2.work.rows.2 ≤ e.2.work.rows.1 ∨
      e.2.work.rows.1 + e.2.work.rows.2 ≤ d.2.work.rows.1) := by decide +kernel

/-- A width-1 product of rows all +1 at scale codes 127: 512 (R270, R275). -/
theorem test_product : (outputAfter (fun i => if i < 16 then 0 else 127) true mapA { mapB with pbase := 0, sbase := 16 } 0 0 1 0).1 = 0x44000000 := by
  decide +kernel

/-- ACCWR stores lane 0 of v1 as two columns of row 0, and ACCRD reads them; MAPSET and WINSET (R273, R278, R280). -/
theorem test_matrix :
    (result (exec (.accwr ⟨false, 1, 8, 0, 0⟩) (on (arrayed [])))).map (fun s => (s.block? 0).map fun b => (b.accAt 0 0, b.accAt 0 1, b.accAt 0 63)) =
      some (some (5, 0xFFFFFFFF, 0xFFFFFFFF)) ∧
    (after (.accrd ⟨false, 3, 8, 0, 0⟩) { on (arrayed []) with blocks := [(0, { block with acc := [(2, 6), (3, 7)] })] } 0).map (fun t => t.lane 3 1) =
      some 0x0000000700000006 ∧
    (after (.mapset ⟨false, 8, 0, 5, 3⟩) (on (crew [0x0001000020000000])) 0).map (fun t => (Table.find? t.maps 5).map fun m => (m.rows, m.ksize, m.sbase)) =
      some (some (1, 128, 512)) ∧
    (after (.winset ⟨false, 8, 0, 0, 0⟩) (on (crew [0x0000000800100000])) 0).map (fun t => t.window) = some (16, 8) ∧
    (after (.gang ⟨false, 8, 0, 0, 0⟩) (both (crew [0x010002])) 0).map (fun t => t.gang) = some (some { members := [(0, 9), (1, 8)] }) := by
  decide +kernel

/-! ### The content-addressed store -/

/-- The published first bytes of SHAKE256 of the empty string. -/
theorem test_shake : shake256 [] 8 = [0x46, 0xB9, 0xDD, 0x2B, 0x0B, 0xA8, 0x8D, 0x13] := by decide +kernel

/-- A leaf and a node of eight zero names, once each, in an arena at virtual address 0x10000; a VERS page 5 at 0x20000. -/
def leafN : Word := 0x0000000000000500
def nodeN : Word := 0x4000000000000600
def leafE : DirEntry := { name := leafN, loc := 0x10000, count := 1 }
def nodeE : DirEntry := { name := nodeN, loc := 0x10040, count := 1, node := true }

/-- The package with the store of the team's context. -/
def vault (dir : List DirEntry) (xs : List Word) : State :=
  { on (crew xs) with
    ctxs := [(1, { probeContext with csArena := 0x10000, csSize := 1, dir := dir })], owners := [(16, 1), (17, 1)]
    mem := (0x110000, 7#8) :: (List.range 8).map fun i => (0x110047 + 8 * i, 0x80#8)
    tlb := (List.range 4).map fun d => (d, [{ ctx := 1, base := 0, size := 65536, leaf := 0x10002F },
      { ctx := 1, base := 0x10000, size := 65536, leaf := 0x11006F }, { ctx := 1, base := 0x20000, size := 65536, leaf := 0x500AF }]) }

/-- The store with a CNEW that waits; without its key. -/
def held (xs : List Word) : State := { vault [leafE] xs with ops := [(3, job 3 (.newRoot 0 0 0))] }
def keyless (xs : List Word) : State := { vault [leafE] xs with ctxs := [(1, { probeContext with key := none })] }

/-- What a lookup found. -/
def Looked.name : Looked → Option (Word × Bool)
  | .found n r _ => some (n, r)
  | _ => none

/-- The name of the line whose first doubleword is 7. -/
def sevenN : Word := 0x04823612C61D8800

/-- It is the name that the fingerprint gives (R292). -/
theorem test_fingerprint : makeName false (fingerprint [0, 0, 0, 0] 0 7) 0 = sevenN := by decide +kernel

def sevenE : DirEntry := { name := sevenN, loc := 0x10000, count := 1 }

theorem wit_NamesAndContents :
    (∀ i ∈ ([.clook ⟨false, 4, 8, 5, 0⟩, .cnode ⟨false, 4, 8, 0, 0⟩, .cread ⟨false, 4, 8, 5, 0⟩, .cwalk ⟨false, 4, 8, 5, 1⟩] : List Instr),
      ∀ s ∈ [held [], keyless []], Ready s 0 (crew []) i) ∧ (crew []).poisonOf 8 0 = none ∧
    (held []).storeHeld (crew []) = true ∧ ((keyless []).ctx 1).key = none ∧ (vault [leafE] []).storeHeld (crew []) = false ∧
    (∀ t ∈ [crew [], crew [0x13], crew [0x15]], Ready (on t) 0 t (.clook ⟨false, 4, 20, 8, 0⟩)) ∧
    tensorOf 0x13 ≠ none ∧ tensorOf 0x15 = none ∧ nodeLine ((List.range 8).map fun i => (crew []).lane 20 i) = 0 ∧
    Looked.name ((vault [sevenE] []).lookup 1 7 0 false) = some (sevenN, false) ∧
    Looked.name ((vault [{ sevenE with count := 0, quiet := true }] []).lookup 1 7 0 false) = some (sevenN, true) := by
  unfold Ready; decide +kernel

/-- A lookup that allocates: whichever line of the arena is taken, it can be reached. -/
theorem wit_NamesAndContents_allocated : ∃ n s1, (vault [] []).lookup 1 7 0 false = .allocated n s1 ∧ ((vault [] []).ctx 1).entry n = none := by
  have far : ∀ r, r < 1024 → ((vault [] []).arenaAddr 1 sevenN (0x10000 + 64 * r)).toOption.isSome = true := by decide +kernel
  have none_ : (vault [] []).sameContent 1 (fingerprint ((vault [] []).ctx 1).skey 0 7) 7 0 ((vault [] []).ctx 1).dir = .ok none := rfl
  have fp : makeName false (fingerprint ((vault [] []).ctx 1).skey 0 7) 0 = sevenN := test_fingerprint
  have room : Nat.ble ((vault [] []).ctx 1).arenaLines ((vault [] []).ctx 1).dir.length = false := by decide +kernel
  have h := far ((Config.freeWord (vault [] []).fresh).toNat % 1024) (Nat.mod_lt _ (by decide))
  have hl : ((vault [] []).ctx 1).csArena.toNat + 64 * freeLine ((vault [] []).ctx 1)
      ((Config.freeWord (vault [] []).fresh).toNat % (((vault [] []).ctx 1).arenaLines - ((vault [] []).ctx 1).dir.length)) =
      0x10000 + 64 * ((Config.freeWord (vault [] []).fresh).toNat % 1024) := by
    have : ((vault [] []).ctx 1).arenaLines - ((vault [] []).ctx 1).dir.length = 1024 := by decide +kernel
    rw [this]
    rfl
  have ord : ((List.range 256).find? fun o => !((((vault [] []).ctx 1).dir.filter fun e =>
      bitsOf e.name 8 54 == fingerprint ((vault [] []).ctx 1).skey 0 7).map fun e => bitsOf e.name 0 8).contains o) = some 0 := rfl
  refine ⟨sevenN, ?_⟩
  unfold State.lookup
  simp only [none_, ord, room, Bool.false_eq_true, if_false, hl, fp]
  cases hq : (vault [] []).arenaAddr 1 sevenN (0x10000 + 64 * ((Config.freeWord (vault [] []).fresh).toNat % 1024)) with
  | error e => rw [hq] at h; simp [Except.toOption] at h
  | ok pa => exact ⟨_, rfl, by decide +kernel⟩

/-- How a lookup, a walk or the reading of a node stops. -/
def Looked.why : Looked → Option StoreStop
  | .stop x => some x
  | _ => none

def why {α : Type} : Except StoreStop α → Option StoreStop
  | .error x => some x
  | .ok _ => none

/-- A store of 256 names of one fingerprint, whose line holds something else; one without lines; one whose arena is unmapped. -/
def manyNames : State := vault ((List.range 256).map fun o => { name := sevenN + BitVec.ofNat 64 o, loc := 0x10040, count := 1 }) []
def lineless (dir : List DirEntry) (xs : List Word) : State := { vault dir xs with ctxs := [(1, { probeContext with csArena := 0x10000, dir := dir })] }
def unreachable (dir : List DirEntry) (xs : List Word) : State :=
  { vault dir xs with tlb := [], ctxs := [(1, { probeContext with csArena := 0x10000, csSize := 1, ptroot := 0xFFFFFFFFFFFFF000, dir := dir })] }

/-- The name of a node of eight such leaves. -/
def parentN : Word := 0x736E72CBDE8C1E00

theorem wit_NamesAndContents_stops :
    Looked.why ((lineless [] []).lookup 1 7 0 false) = some (.cause 72 0) ∧ ((lineless [] []).ctx 1).arenaLines ≤ ((lineless [] []).ctx 1).dir.length ∧
    Looked.why ((unreachable [sevenE] []).lookup 1 7 0 false) = some (.lost (23, 0x10000)) ∧
    Looked.why ((unreachable [{ leafE with name := parentN, node := true }] []).lookup 1 (nodeLine (List.replicate 8 leafN)) nodeDesc true) =
      some (.lost (23, 0x10000)) ∧
    Looked.why ((lineless [] []).lookup 1 (nodeLine (List.replicate 8 leafN)) nodeDesc true) = some (.cause 72 0) ∧
    why ((vault [leafE] []).leafName 1 1 nodeN 7) = some (.cause 65 0) ∧ why ((unreachable [nodeE] []).leafName 1 1 nodeN 7) = some (.lost (23, 0x10040)) ∧
    (∀ s ∈ [lineless [leafE] (List.replicate 8 leafN), unreachable [leafE] (List.replicate 8 leafN)],
      ∀ i ∈ ([.clook ⟨false, 4, 20, 4, 0⟩, .cnode ⟨false, 4, 8, 0, 0⟩, .cwalk ⟨false, 4, 8, 9, 1⟩] : List Instr), Ready s 0 (crew (List.replicate 8 leafN)) i) ∧
    (let t := { crew (List.replicate 8 leafN) with policy := 1 }
     let full : State := { vault [leafE] [] with
       teams := Table.put (vault [] []).teams 0 t
       cores := [(0, { spillres := 0, slices := (List.range 4095).map fun n => { id := n, val := [] } })] }
     (∀ i ∈ ([.cread ⟨false, 6, 8, 5, 0⟩, .cread ⟨false, 6, 0, 5, 0⟩] : List Instr), Ready full 0 t i) ∧ full.resultRoom 0 1 = false ∧
       (vault [leafE] []).resultRoom 0 1 = true) := by
  unfold Ready; decide +kernel

/-- All 256 ordinals of one fingerprint are taken (R297). -/
theorem wit_NamesAndContents_ordinals :
    (manyNames.ctx 1).dir.map (fun e => bitsOf e.name 0 8) = List.range 256 ∧
    ((manyNames.ctx 1).dir.all fun e => bitsOf e.name 8 54 == bitsOf sevenN 8 54 && nameDie e.name == nameDie sevenN && e.loc == 0x10040) = true ∧
    (manyNames.arenaAddr 1 sevenN 0x10040).toOption = some 0x110040 ∧ manyNames.lineData 0x110040 ≠ 7 := by decide +kernel

/-- A node of eight names that is found QUIET. -/
theorem wit_NamesAndContents_revived :
    let es := List.replicate 8 leafN
    let s := vault [leafE, { name := parentN, loc := 0x10040, count := 0, quiet := true, node := true }] es
    let s := { s with
      mem := (List.range 8).map fun i => (0x110041 + 8 * i, 5#8)
      descs := [(0x110040 / 64, nodeDesc)] }
    Looked.name (s.lookup 1 (nodeLine es) nodeDesc true) = some (parentN, true) := by decide +kernel

/-- CNODE, CREAD and CWALK, with names that resolve and names that do not. -/
theorem wit_NamesAndContents_trees :
    (∀ s ∈ [vault [leafE] [leafN, zeroName, 7], vault [leafE] [5, 5, 9]], ∀ i ∈ ([.cnode ⟨false, 4, 8, 0, 0⟩, .cread ⟨false, 6, 8, 5, 0⟩,
      .cwalk ⟨false, 4, 8, 10, 1⟩, .cwalk ⟨false, 4, 9, 10, 17⟩] : List Instr), s.actor = 0 ∧ (s.team? 0).map (fun t => formCause t i) = some none) ∧
    ((List.range 8).map fun i => (crew (List.replicate 8 zeroName)).s (8 + BitVec.ofNat 5 i)) = List.replicate 8 zeroName ∧
    ((List.range 8).map fun i => (crew (List.replicate 8 leafN)).s (8 + BitVec.ofNat 5 i)) = List.replicate 8 leafN ∧
    ((vault [leafE] []).ctx 1).resolves leafN = true ∧ leafN ≠ zeroName ∧
    ((vault [leafE] []).ctx 1).resolves 0 = false ∧ ((vault [leafE] []).ctx 1).entry leafN = some leafE ∧
    ((vault [leafE] []).arenaAddr 1 leafN leafE.loc).toOption = some 0x110000 ∧ (vault [leafE] []).badDesc 0x110000 = false ∧
    ({ vault [leafE] [] with bad := [(0x4400, false, true)] } : State).badDesc 0x110000 = true ∧
    ((vault [nodeE] []).leafName 1 1 nodeN 7).toOption = some zeroName ∧ ((vault [leafE] []).leafName 1 0 leafN 0).toOption = some leafN ∧
    (let plain := { crew [leafN, zeroName] with policy := 1 }
     plain.policy ≠ 0 ∧ ∀ i ∈ [Instr.cread ⟨false, 6, 8, 5, 0⟩, .cread ⟨false, 6, 9, 5, 0⟩], formCause plain i = none) ∧
    (vault [leafE] []).storeHeld (crew []) = false ∧ ((vault [leafE] []).ctx 1).key ≠ none := by
  decide +kernel

/-- A quiet name that a lookup finds counts the holds of the nodes that a replica fetched before (R431). -/
theorem test_quiet_name :
    let parent : DirEntry := { nodeE with bare := false }
    let s := vault [{ sevenE with count := 0, quiet := true }, parent] []
    (match s.lookup 1 7 0 false with
      | .found n r s1 => decide ((n, r) = (sevenN, true) ∧ ((s1.ctx 1).entry sevenN).map (fun e => (e.count, e.quiet)) = some (1, false))
      | _ => false) = true := by decide +kernel

/-- A team that looks for that line. -/
def seeking : State :=
  { vault [sevenE] [0] with teams := Table.put (vault [] []).teams 0 { crew [0] with v := [(20, 7 :: List.replicate 31 0)] } }

/-- A second CLOOK of the line finds its name and counts it; a walk to a zero leaf; CREAD of the leaf (R297, R306, R307). -/
theorem test_names :
    (result (exec (.clook ⟨false, 4, 20, 8, 0⟩) seeking)).map
      (fun s => ((s.ctx 1).dir.map fun e => e.count, s.pendings.map fun e => e.2.targets)) = some ([2], [[.scalar 4 sevenN]]) ∧
    (result (exec (.cwalk ⟨false, 4, 8, 9, 1⟩) (vault [nodeE] [nodeN, 7]))).map (fun s => s.pendings.map fun e => e.2.targets) =
      some [[.scalar 4 zeroName]] ∧
    (result (exec (.cread ⟨false, 6, 8, 5, 0⟩) (vault [leafE] [leafN]))).map (fun s => s.pendings.map fun e => e.2.targets) =
      some [[.slice 6 0 0xFF [7, 0, 0, 0, 0, 0, 0, 0] 0 0x10000, .scalar 5 0]] ∧
    (after (.cread ⟨false, 6, 8, 5, 0⟩) (vault [] [leafN]) 0).map (fun t => t.trap.cause) = some 65 := by decide +kernel

/-- A root record of the leaf at virtual address 0x100. -/
def rooted (xs : List Word) : State :=
  { vault [leafE] xs with mem := (0x100101, 5#8) :: (vault [] []).mem }

theorem wit_RootsAndCounts :
    (∀ i ∈ ([.cref ⟨false, 8, 0, 0, 0⟩, .crel ⟨false, 8, 0, 0, 0⟩, .cnew ⟨false, 0, 9, 10, 0⟩, .croot ⟨false, 8, 9, 0, 1⟩, .cswap ⟨false, 8, 9, 10, 0⟩,
      .cout ⟨false, 8, 0, 0, 0⟩] : List Instr), Ready (held [8]) 0 (crew [8]) i) ∧
    (∀ x ∈ ([Instr.cref, .crel] : List (FmtE → Instr)),
      Ready (held [leafN]) 0 (crew [leafN]) (x ⟨false, 8, 0, 0, 0⟩) ∧ Ready (keyless [leafN]) 0 (crew [leafN]) (x ⟨false, 8, 0, 0, 0⟩) ∧
      Ready (vault [leafE] [5]) 0 (crew [5]) (x ⟨false, 8, 0, 0, 0⟩) ∧ Ready (vault [leafE] [zeroName]) 0 (crew [zeroName]) (x ⟨false, 8, 0, 0, 0⟩) ∧
      Ready (vault [{ leafE with count := 0, quiet := true }] [leafN]) 0 (crew [leafN]) (x ⟨false, 8, 0, 0, 0⟩) ∧
      Ready (vault [leafE] [leafN]) 0 (crew [leafN]) (x ⟨false, 8, 0, 0, 0⟩) ∧
      Ready (vault [{ leafE with count := 0xFFFFFFFF }] [leafN]) 0 (crew [leafN]) (x ⟨false, 8, 0, 0, 0⟩)) ∧
    ((vault [leafE] []).ctx 1).entry 5 = none ∧ ((vault [leafE] []).ctx 1).resolves 5 = false := by unfold Ready; decide +kernel

/-- Root records: misaligned, well formed, of a bad depth; a swap that matches and one that does not; COUT. -/
theorem wit_RootsAndCounts_records :
    (∀ s ∈ [rooted [leafN, 0x100, zeroName], rooted [5, 0x100, leafN], rooted [5, 0x104, leafN],
        { rooted [5, 0x100, leafN] with mem := (0x100108, 0x10#8) :: (vault [] []).mem }],
      ∀ i ∈ ([.cnew ⟨false, 0, 9, 10, 0⟩, .croot ⟨false, 8, 9, 0, 0⟩, .croot ⟨false, 8, 9, 0, 1⟩, .cswap ⟨false, 8, 9, 10, 0⟩, .cout ⟨false, 8, 0, 0, 0⟩] :
        List Instr), s.actor = 0 ∧ (s.team? 0).map (fun t => formCause t i) = some none) ∧
    (rooted []).translate 0 1 0x100 { wr := true } = .page (dataPage 0x100) ∧ (rooted []).translate 0 1 0x100 { rd := true } = .page (dataPage 0x100) ∧
    (rooted []).dword (dataPage 0x100).pa = leafN ∧ bitsOf ((rooted []).dword ((dataPage 0x100).pa + 8)) 4 60 = 0 ∧
    bitsOf (({ rooted [] with mem := (0x100108, 0x10#8) :: (vault [] []).mem } : State).dword ((dataPage 0x100).pa + 8)) 4 60 ≠ 0 ∧
    ((rooted []).ctx 1).fits leafN 0 = true ∧ ((rooted []).ctx 1).fits zeroName 0 = true ∧ leafE.node = false ∧
    ((rooted []).core 0).lines = [] ∧ (rooted []).flights = [] ∧ Memory.wf (rooted []).mem = true ∧ (rooted []).badData (dataPage 0x100).pa = false := by
  decide +kernel

/-- A leaf with one reference, a node with one and with two. -/
theorem wit_RootsAndCounts_released :
    Releases (vault [leafE] []) 1 ((vault [leafE] []).ctx 1).entry leafN [] ∧
    Releases (vault [nodeE] []) 1 ((vault [nodeE] []).ctx 1).entry nodeN (List.replicate 8 zeroName) ∧
    Releases (vault [{ nodeE with count := 2 }] []) 1 ((vault [{ nodeE with count := 2 }] []).ctx 1).entry nodeN [] := by
  refine ⟨Or.inr ⟨by decide, leafE, by decide, rfl, Or.inl ⟨Or.inl rfl, rfl⟩⟩, Or.inr ⟨by decide, nodeE, by decide, rfl, Or.inr ⟨rfl, by decide, ?_, ?_⟩⟩,
    Or.inr ⟨by decide, { nodeE with count := 2 }, by decide, rfl, Or.inl ⟨Or.inr (by decide), rfl⟩⟩⟩
  · have : ((vault [nodeE] []).nodeOf 1 nodeE).toOption = some (some (List.replicate 8 zeroName)) := by decide +kernel
    cases h : (vault [nodeE] []).nodeOf 1 nodeE with
    | error e => rw [h] at this; simp [Except.toOption] at this
    | ok v => rw [h] at this; simpa [Except.toOption] using this
  · intro m hm; exact Or.inl (by simpa using (List.mem_replicate.1 hm).2)

/-- The swap that matches releases the leaf; values that are still to return; nodes that cannot be read, or reached. -/
theorem wit_RootsAndCounts_waits :
    Releases (((rooted []).tlbFill 0 1 0x100).homeWriteRun 0x100100 (toBytes 8 zeroName.toNat) (some 0)) 1
      (fun n => if n = zeroName then (((rooted []).ctx 1).entry n).map DirEntry.up else ((rooted []).ctx 1).entry n) leafN [] ∧
    (∀ i ∈ ([.cnew ⟨false, 0, 9, 10, 0⟩, .cswap ⟨false, 8, 9, 10, 0⟩] : List Instr),
      Ready (due (rooted [leafN, 0x100, zeroName])) 0 (crew [leafN, 0x100, zeroName]) i) ∧ (due (rooted [])).valueDue 9 = some 3 ∧
    (due (rooted [])).storeHeld (crew []) = false ∧ (rooted []).valueDue 9 = none ∧
    (∀ s ∈ [{ vault [nodeE] [nodeN] with bad := [(0x4401, true, false)] }, unreachable [nodeE] [nodeN]],
      Ready s 0 (crew [nodeN]) (.crel ⟨false, 8, 0, 0, 0⟩)) ∧
    (({ vault [nodeE] [] with bad := [(0x4401, true, false)] } : State).nodeOf 1 nodeE).toOption = some none ∧
    why ((unreachable [nodeE] []).nodeOf 1 nodeE) = some (.lost (23, 0x10040)) := by
  refine ⟨Or.inr ⟨by decide, leafE, by decide +kernel, rfl, Or.inl ⟨Or.inl rfl, rfl⟩⟩, ?_⟩
  unfold Ready; decide +kernel

/-- CREL of a node's last reference takes those of its entries; a node that cannot be read keeps them (R299, R427). -/
theorem test_released_node :
    let x : DirEntry := { name := 0x4000000000000700, loc := 0x10080, count := 1, node := true }
    let s : State := { vault [{ leafE with count := 3 }, x] [x.name] with
      mem := [(0x110081, 5#8), (0x110089, 5#8)] ++ (List.range 6).map fun i => (0x110097 + 8 * i, 0x80#8) }
    (result (exec (.crel ⟨false, 8, 0, 0, 0⟩) s)).map (fun s => (s.ctx 1).dir.map fun e => (e.count, e.quiet)) = some [(1, false), (0, true)] ∧
    (result (exec (.crel ⟨false, 8, 0, 0, 0⟩) { s with bad := [(0x4402, true, false)] })).map
      (fun s => ((s.ctx 1).dir.map fun e => (e.count, e.quiet), (s.health.group 2).getD 1 0)) = some ([(3, false), (0, true)], 1) := by decide +kernel

/-- CREF counts up; CREL of the last count leaves the name quiet; CSWAP writes the zero name and answers the old one (R298, R311). -/
theorem test_roots :
    (result (exec (.cref ⟨false, 8, 0, 0, 0⟩) (vault [leafE] [leafN]))).map (fun s => (s.ctx 1).dir.map fun e => e.count) = some [2] ∧
    (result (exec (.crel ⟨false, 8, 0, 0, 0⟩) (vault [leafE] [leafN]))).map (fun s => (s.ctx 1).dir.map fun e => (e.count, e.quiet)) =
      some [(0, true)] ∧
    (result (exec (.cswap ⟨false, 8, 9, 10, 0⟩) (rooted [leafN, 0x100, zeroName]))).map
      (fun s => (s.bytes 0x100100 8, (s.ctx 1).dir.map fun e => e.quiet)) = some ([0, 0, 0, 0, 0, 0, 0, 0x80], [true]) ∧
    (result (exec (.cnew ⟨false, 0, 9, 10, 0⟩) (rooted [5, 0x110, leafN]))).map
      (fun s => (s.bytes 0x100110 8, (s.ctx 1).dir.map fun e => e.count)) = some ([0, 5, 0, 0, 0, 0, 0, 0], [2]) := by decide +kernel

/-! ### Versions and progress -/

/-- The record of page 5, with steps. -/
def versionKey5 : Nat := versionKey 0 5
def recorded (r : VersionRecord) (t : Team) : State :=
  { vault [leafE, nodeE] [] with
    teams := Table.put (vault [] []).teams 0 t
    ctxs := [(1, { probeContext with csArena := 0x10000, csSize := 1, dir := [leafE, nodeE], versions := [(versionKey5, r)] })] }
def v3 : VersionRecord := { entries := [{ step := 3, root := nodeN }] }
def v3p : VersionRecord := { entries := [{ step := 3, root := nodeN, pins := 8 }] }

theorem wit_VersionedPages :
    (∀ t ∈ [crew [0x20000, 3], crew [0x20000, 2], crew [0x20000, 4], crew [0x20004, 3], crew [0x2FF80, 3]],
      ∀ i ∈ ([.ldv ⟨false, 6, 8, 9, 0⟩, .ldv ⟨false, 6, 8, 9, 1⟩, .vstep ⟨false, 4, 8, 0, 0⟩, .vpin ⟨false, 0, 8, 9, 0⟩, .vunpin ⟨false, 0, 8, 9, 0⟩] :
        List Instr), Ready (recorded v3 t) 0 t i) ∧
    (∀ s ∈ [recorded v3 busy, recorded v3p busy], (s.versPage 0 busy 0x20000).toOption = some (versionKey5, 0, 5) ∧ s.versionBusy 9 versionKey5 = false ∧
      s.version? 1 versionKey5 ≠ none ∧ s.pkgnum = 0) ∧
    v3.newest = 3 ∧ v3.pinned < 8 ∧ 8 ≤ v3p.pinned ∧ v3.fetching = false ∧ v3.entries = [] ++ { step := 3, root := nodeN } :: [] ∧
    ((recorded v3 busy).versionLines 1 nodeN ((List.range 4).map fun j => 0 + j)).toOption = some [(0, false), (0, false), (0, false), (0, false)] ∧
    (let behind := { crew [0x20000, 3] with ldvlim := 0, policy := 1 }
     Ready (recorded v3 behind) 0 behind (.ldv ⟨false, 6, 8, 9, 0⟩) ∧ behind.policy ≠ 0 ∧ behind.resolved = none) ∧
    (let none := { crew [0x20000, 0] with policy := 1 }
     Ready (recorded {} none) 0 none (.ldv ⟨false, 6, 8, 9, 1⟩) ∧ ({} : VersionRecord).newest = 0) := by
  unfold Ready; decide +kernel

theorem wit_VersionedPages_publish :
    (∀ t ∈ [crew [nodeN, 0x20000, 4], crew [nodeN, 0x20000, 3]], Ready (recorded v3 t) 0 t (.publ ⟨false, 8, 9, 10, 0⟩)) ∧
    ((recorded v3 busy).publishHome 1 versionKey5 3 nodeN).fail = some (68, 0) ∧ ((recorded v3 busy).publishHome 1 versionKey5 3 nodeN).lost = none ∧
    ((recorded v3 busy).publishHome 1 versionKey5 3 nodeN).release = none ∧ ((recorded v3 busy).ctx 1).entry nodeN = some nodeE ∧
    nameKind nodeN = 1 ∧ ((recorded v3 busy).nodeOf 1 nodeE).toOption = some (some (List.replicate 8 zeroName)) := by
  unfold Ready; decide +kernel

/-- A PUBL while an earlier pin of the team on the page is still to be performed (R325). -/
theorem wit_VersionedPages_pinning :
    let t := crew [nodeN, 0x20000, 4]
    let s : State := { recorded v3 t with ops := [(3, job 3 (.pin versionKey5 3 false))] }
    Ready s 0 t (.publ ⟨false, 8, 9, 10, 0⟩) ∧ s.pinning 9 versionKey5 = true ∧ (s.ctx 1).key ≠ none ∧
    (s.versPage 0 t 0x20000).toOption = some (versionKey5, s.pkgnum, 5) ∧ (recorded v3 t).pinning 9 versionKey5 = false := by
  unfold Ready; decide +kernel

/-- An older entry; a replica with its lines and without them; a load that has resolved; a page that this package has no
replica of. -/
theorem wit_VersionedPages_entries :
    let two : VersionRecord := { entries := [{ step := 2, root := nodeN }, { step := 3, root := nodeN }] }
    let at2 := { crew [0x20000, 2] with policy := 1 }
    let away : State := { recorded { v3 with home := false } at2 with
      links := [(0, { up := true, width := 4 })]
      ctxs := [(1, { probeContext with gid := 77, csArena := 0x10000, csSize := 1, versions := [(versionKey5, { v3 with home := false })] })] }
    let far : State := { away with tlb := [(0, [{ ctx := 1, base := 0x20000, size := 65536, leaf := 0x00000200000500AF }])] }
    Ready (recorded two at2) 0 at2 (.ldv ⟨false, 6, 8, 9, 1⟩) ∧ two.entries = [] ++ { step := 2, root := nodeN } :: [{ step := 3, root := nodeN }] ∧
    2 ≤ two.newest ∧ (recorded two at2).resultRoom 0 at2.rows = true ∧
    Ready (recorded two { at2 with resolved := some (versionKey5, 2) }) 0 { at2 with resolved := some (versionKey5, 2) } (.ldv ⟨false, 6, 8, 9, 1⟩) ∧
    two.entry? 2 = some { step := 2, root := nodeN } ∧
    ((List.range 4).flatMap fun j => (recorded { v3 with home := false } at2).absent 1 j 4 nodeN) = [] ∧
    Ready away 0 at2 (.ldv ⟨false, 6, 8, 9, 0⟩) ∧ ((List.range 4).flatMap fun j => away.absent 1 j 4 nodeN).eraseDups = [nodeN] ∧
    away.noRoute 0 = false ∧ Ready far 0 at2 (.ldv ⟨false, 6, 8, 9, 0⟩) ∧
    (far.versPage 0 at2 0x20000).toOption = some (versionKey 2 5, 2, 5) ∧ far.version? 1 (versionKey 2 5) = none ∧ far.noRoute 2 = false := by
  unfold Ready; decide +kernel

/-- A record of eight entries, of which the first is pinned or all are. -/
def eight (pins : Nat → Nat) : VersionRecord := { entries := (List.range 8).map fun i => { step := i + 1, root := leafN, pins := pins i } }

theorem wit_VersionedPages_evicts :
    (∀ pins ∈ [fun i => if i = 0 then 1 else 0, fun _ => 1],
      Ready (recorded (eight pins) (crew [nodeN, 0x20000, 9])) 0 (crew [nodeN, 0x20000, 9]) (.publ ⟨false, 8, 9, 10, 0⟩)) ∧
    (∀ x ∈ (eight fun _ => 1).entries, x.pins ≠ 0) ∧
    (let pins := fun (i : Nat) => if i = 0 then 1 else 0
     (eight pins).entries = [{ step := 1, root := leafN, pins := 1 }] ++ { step := 2, root := leafN } :: (eight pins).entries.drop 2 ∧
       ∀ x ∈ [{ step := 1, root := leafN, pins := 1 }] ++ (eight pins).entries.drop 2, x.step ≠ 2) ∧
    Releases (recorded v3 busy) 1 (fun n => if n = nodeN then (((recorded v3 busy).ctx 1).entry n).map DirEntry.up else ((recorded v3 busy).ctx 1).entry n)
      leafN [] :=
  ⟨by unfold Ready; decide +kernel, by decide, by decide, Or.inr ⟨by decide, leafE, by decide, rfl, Or.inl ⟨Or.inl rfl, rfl⟩⟩⟩

/-- The oldest entry that is not pinned goes, and its root with its last reference; .eq loads an older step (R319, R322). -/
theorem test_evicts :
    (result (exec (.publ ⟨false, 8, 9, 10, 0⟩) (recorded (eight fun i => if i = 0 then 1 else 0) (crew [nodeN, 0x20000, 9])))).map
      (fun s => ((s.version? 1 versionKey5).map fun r => r.entries.map fun e => e.step, (s.ctx 1).dir.map fun e => e.quiet)) =
      some (some [1, 3, 4, 5, 6, 7, 8, 9], [true, false]) ∧
    (result (exec (.ldv ⟨false, 6, 8, 9, 1⟩) (recorded { entries := [{ step := 2, root := nodeN }, { step := 3, root := nodeN }] }
      { crew [0x20000, 2] with policy := 1 }))).map (fun s => s.pendings.map fun e => e.2.targets.getLast?) = some [some (.scalar 9 2)] := by
  decide +kernel

/-- LDV of step 3 reads zeros and the step; PUBL of step 4; VPIN counts (R319, R322, R324). -/
theorem test_versions :
    (result (exec (.ldv ⟨false, 6, 8, 9, 0⟩) (recorded v3 { crew [0x20000, 2] with policy := 1 }))).map (fun s => s.pendings.map fun e => e.2.targets) =
      some [[.slice 6 0 0xFFFFFFFF (List.replicate 32 0) 0 0x20000, .scalar 9 3]] ∧
    (result (exec (.publ ⟨false, 8, 9, 10, 0⟩) (recorded v3 (crew [nodeN, 0x20000, 4])))).map
      (fun s => ((s.version? 1 versionKey5).map fun r => r.entries.map fun e => e.step, (s.ctx 1).dir.map fun e => e.count)) =
      some (some [3, 4], [1, 2]) ∧
    (result (exec (.vpin ⟨false, 0, 8, 9, 0⟩) (recorded v3 (crew [0x20000, 3])))).map (fun s => (s.version? 1 versionKey5).map VersionRecord.pinned) =
      some (some 1) ∧
    (result (exec (.vstep ⟨false, 4, 8, 0, 0⟩) (recorded v3 (crew [0x20000])))).map (fun s => s.pendings.map fun e => e.2.targets) =
      some [[.scalar 4 3]] := by decide +kernel

/-- A replica, a team that waits for it, and a team that has resolved to its step. -/
def replica (r : VersionRecord) (t : Team) (d : Detail) : State :=
  { recorded r t with detail := d, ctxs := [(1, { probeContext with gid := 77, versions := [(versionKey5, r)] })] }

theorem wit_VersionArrivals :
    let waits := { busy with wait := .fetch versionKey5 0x20000 }
    let reads := { busy with wait := .fetch versionKey5 0x20000, resolved := some (versionKey5, 3) }
    let limited := { busy with wait := .version versionKey5 4, limit := 1 }
    (replica { v3 with home := false } busy (.publish 77 versionKey5 4 nodeN)).ctxOfGid 77 = some 1 ∧
    (replica v3 busy (.publish 78 versionKey5 4 nodeN)).ctxOfGid 78 = none ∧
    (replica v3 busy .nothing).version? 1 versionKey5 = some v3 ∧
    (replica { home := false, fetching := true } waits (.fetched 1 versionKey5 (.entries [(3, nodeN)]))).ops = [] ∧
    (replica { home := false, fetching := true } waits .nothing).team? 0 = some waits ∧
    Table.wf ((replica { home := false, fetching := true } waits .nothing).ctx 1).versions = true ∧
    (replica { v3 with home := false } reads (.lines 1 versionKey5 3 (.failed 83))).team? 0 = some reads ∧
    ({ v3 with home := false } : VersionRecord).entry? 3 ≠ none ∧ (replica v3 limited (.place 0 0)).team? 0 = some limited := by decide +kernel

/-- A replica with its arena, and a line of it that arrives: the leaf of one doubleword 7. -/
def receiving : State :=
  let t := { busy with wait := .fetch versionKey5 0x20000, resolved := some (versionKey5, 3) }
  { recorded { v3 with home := false } t with detail := .lines 1 versionKey5 3 (.lines [(sevenN, 0, 7)]) }

theorem wit_VersionArrivals_line :
    (receiving.version? 1 versionKey5).map (fun v => (v.home, (v.entry? 3).isSome)) = some (false, true) ∧ sevenN ≠ zeroName ∧
    (receiving.ctx 1).entry sevenN = none ∧ (receiving.ctx 1).dir.length < (receiving.ctx 1).arenaLines ∧
    (∀ i, i < (receiving.ctx 1).arenaLines →
      ((receiving.arenaAddr 1 sevenN ((receiving.ctx 1).csArena.toNat + 64 * i)).toOption.map isCxl) = some false) ∧
    Memory.wf receiving.mem = true ∧ Table.wf receiving.descs = true ∧
    (receiving.team? 0).map (fun u => (u.ctx, u.resolved, u.wait)) = some (1, some (versionKey5, 3), .fetch versionKey5 0x20000) := by
  decide +kernel

theorem test_arrivals :
    (result (exec .publishMessage (replica { v3 with home := false } busy (.publish 77 versionKey5 4 nodeN)))).map
      (fun s => (s.version? 1 versionKey5).map fun r => r.entries.map fun e => e.step) = some (some [3, 4]) ∧
    (result (exec .ldvWaitLimit (replica v3 { busy with wait := .version versionKey5 4, limit := 1 } (.place 0 0)))).map
      (fun s => (s.team? 0).map fun t => t.raised) = some (some (some (67, 0))) := by decide +kernel

/-- Two peers, at steps 1 and 3; the team is peer 0. -/
def peered (p q : Peer) (xs : List Word) : State :=
  { on (crew xs) with ctxs := [(1, { probeContext with gid := 77, pgSize := 2, peers := [p, q], psilent := 10 })] }
def me : Peer := { pkg := 0, here := true, step := 1 }
def you : Peer := { pkg := 2, here := false, step := 3 }

theorem wit_Progress :
    (∀ t ∈ [crew [0], crew [1], crew [5], crew [6], crew [16]],
      ∀ i ∈ ([.stepa ⟨false, 0, 8, 0, 0⟩, .stepr ⟨false, 4, 0, 0, 0⟩, .stepr ⟨false, 4, 0, 0, 1⟩, .stepr ⟨false, 4, 8, 0, 2⟩, .stepr ⟨false, 4, 0, 0, 3⟩,
        .pexc ⟨false, 0, 8, 0, 0⟩, .pexc ⟨false, 0, 8, 0, 1⟩] : List Instr), Ready (on t) 0 t i) ∧
    (∀ x ∈ ([[(8, 16)], [(8, 15)]] : List (Table Word)), Ready (onSystem x) 16384 (sysTeam x) (.plead ⟨false, 0, 8, 0, 0⟩)) ∧
    (onSystem []).ctxFor 16384 (sysTeam []) = 0 ∧ (({ peered me you [] with syssel := [1, 0, 0, 0] } : State).ctxFor 16384 (sysTeam [])) = 1 ∧
    Ready (onSystem []) 16384 (sysTeam []) (.stepr ⟨false, 4, 0, 0, 0⟩) ∧ ((on busy).ctx 1).pgSize = 0 ∧ (peered me you []).ctxFor 0 busy = 1 ∧
    ((peered me you []).ctx 1).pgSize ≠ 0 ∧ ((peered me you []).ctx 1).peers[busy.pself.toNat % 4096]? = some me ∧
    ((peered me you []).ctx 1).peers[1]? = some you ∧ you.step + ((peered me you []).ctx 1).lead < 6 ∧ 5 ≤ you.step + ((peered me you []).ctx 1).lead ∧
    (∀ p ∈ ((peered me you []).ctx 1).peers, p.step < 2 ^ 32 ∧ p.excused = false) ∧ (peered me you []).publishesOut 9 = false := by
  unfold Ready; decide +kernel

theorem wit_ProgressEvents :
    let written : State := { peered me you [] with detail := .value 1 0 2 }
    written.detail = .value 1 0 2 ∧ written.readPeers 1 2 ≠ none ∧
    (peered me you []).ctxOfGid 77 = some 1 ∧ (peered me you []).ctxOfGid 1 = none ∧
    2 * ((peered me you []).clock - (peered me you []).beatAt) < (peered me you []).pbeat.toNat ∧
    ({ peered me you [] with clock := 600000 } : State).pbeat.toNat ≤ 2 * 600000 ∧ (probeContext.alive = true ∧ me.here = true ∧ you.pkg ≠ 0) ∧
    (peered me you []).isSilent 1 1 = false ∧ ({ peered me you [] with clock := 5 } : State).isSilent 1 1 = true := by decide +kernel

/-- STEPA to 5 announces it to package 2; STEPA to 6 waits for peer 1; the smallest step; silence (R328, R330, R331). -/
theorem test_progress :
    (result (exec (.stepa ⟨false, 0, 8, 0, 0⟩) (peered me you [5]))).map
      (fun s => ((s.ctx 1).peers.map fun p => p.step, s.messages.map fun m => (m.dest, m.kind, m.args))) = some ([5, 3], [(2, 1, [0, 5])]) ∧
    (after (.stepa ⟨false, 0, 8, 0, 0⟩) (peered me you [6]) 0).map (fun t => (t.wait, t.pc)) = some (.step, 0) ∧
    (after (.stepr ⟨false, 4, 0, 0, 1⟩) (peered me you []) 0).map (fun t => t.s 4) = some 1 ∧
    (result (exec .peerSilent { peered me you [] with clock := 5, detail := .place 1 1 })).map (fun s => (s.ctx 1).peers.map fun p => p.silent) =
      some [false, true] := by decide +kernel

/-! ### The quorum engine and the fabric -/

/-- Slots 0 to 7 of die 0 are granted; slot 3 as given. -/
def slotted (x : Slot) (xs : List Word) : State :=
  { on (crew xs) with ctxs := [(1, { probeContext with gid := 77, qgrant := [(0, 0xFF)] })], slots := [(3, x)] }

/-- The words of a QOPEN of step 5 on slot 3: 4 contributors, a quorum of 2, a floor of 1, 2 elements, no timer. -/
def openWords (step : Word) : List Word := [0x300000000 + step, 0x0000200100020004, 0]
def open5 : Slot := { state := .opened, ctx := 1, step := 5, quorum := 2, floor := 1, len := 2 }
def closed5 : Slot := { open5 with state := .closed, onTime := { count := 2 }, kind := 1, result := [0, 0] }

theorem wit_QuorumSlots :
    (∀ t ∈ [crew (openWords 5), crew (openWords 6), crew (openWords 0)], ∀ i ∈ ([.qopen ⟨false, 8, 0, 0, 0⟩, .qcont ⟨false, 8, 0, 0, 0⟩,
      .qread ⟨false, 8, 0, 0, 0⟩, .qwait ⟨false, 4, 8, 0, 0⟩, .qstat ⟨false, 4, 8, 0, 0⟩, .qstat ⟨false, 4, 8, 0, 1⟩] : List Instr), Ready (on t) 0 t i) ∧
    openOk 0x300000005 0x0000200100020004 0 = true ∧ openOk 0x300000000 0x0000200100020004 0 = false ∧
    (slotted {} []).granted 1 0 3 = true ∧ (on busy).granted 1 0 3 = false ∧ (on busy).noRoute 2 = true ∧ (on busy).noRoute 0 = false ∧
    (∀ x ∈ [({} : Slot), open5, closed5], (slotted x []).slotExpired x = false) ∧ ((slotted {} []).slotFor 1 3).state = .idle ∧
    (slotted closed5 []).slotFor 1 3 = closed5 ∧ closed5.len = bitsOf 0x0000200100020004 45 18 + 1 ∧ closed5.early.count < bitsOf 0x0000200100020004 16 13 ∧
    bitsOf 0x0100000000000000 56 8 ≠ 0 ∧ bitsOf 0x0000004000000000 38 26 ≠ 0 ∧ bitsOf 0x300000005 38 26 = 0 ∧
    Ready (on { busy with phase := 1 }) 0 { busy with phase := 1 } (.qwait ⟨false, 4, 8, 0, 0⟩) := by unfold Ready; decide +kernel

/-- A contribution for slot 3. -/
def contributed (x : Slot) (tag : Nat) : State :=
  { slotted x [] with detail := .contribution (.fromPackage 2 77 1 0 3 tag [0x3F800000, 0x40000000]) }

def timed : Slot := { open5 with time := 10, openedAt := 0 }
def waiting3 : Team := { busy with wait := .slot 3 4 }
def posted (w : Work) (o : Op → Op) : State := { on busy with detail := .place 3 0, ops := [(3, o (job 3 w))], clock := 100 }

theorem wit_QuorumEvents :
    (contributed open5 5).ctxOfGid 77 = some 1 ∧ (contributed open5 5).ctxOfGid 1 = none ∧ open5.onTime.count + 1 < open5.quorum ∧
    ({ open5 with onTime := { count := 1, sum := [0, 0] } } : Slot).quorum ≤ 1 + 1 ∧ [0x3F800000#32, 0x40000000].length = open5.len ∧
    ({ slotted timed [] with clock := 10, detail := .place 3 0 } : State).slotExpired timed = true ∧
    ({ slotted timed [] with clock := 9, detail := .place 3 0 } : State).slotExpired timed = false ∧
    (on waiting3).team? 0 = some waiting3 ∧
    Table.find? (posted (.contribute 0 0 (some 68) true) id).ops 3 = some (job 3 (.contribute 0 0 (some 68) true)) ∧
    64 ≤ 2 * ((posted (.contribute 0 0 (some 68) true) id).clock - 68) ∧ 2 * ((posted (.contribute 0 0 (some 69) true) id).clock - 69) < 64 ∧
    (posted (.settled (some (65, 0))) id).away 1 = false ∧ Table.find? (posted (.settled none) fun o => { o with miss := some 1 }).ops 3 ≠ none := by
  decide +kernel

/-- A contribution of another package that was taken before, and one that comes in the ACLK in which another was taken. -/
theorem wit_QuorumEvents_taken :
    ({ contributed open5 5 with verdicts := [⟨2, 77, 1, 0⟩] } : State).verdicts.any (fun y => decide (y = ⟨2, 77, 1, 0⟩)) = true ∧
    (contributed open5 5).verdicts.isEmpty = true ∧ (contributed { open5 with takenAt := some 0 } 5).clock = 0 := by decide +kernel

/-- One that a team of this package makes of the two values at address 0, with each kind of tag and on a slot that is not
granted. -/
def contributing (dst : Word) : State :=
  { slotted open5 [] with detail := .contribution (.fromHere 4), ops := [(4, job 3 (.contribute 0 dst none true))], mem := [(0x100003, 0x3F#8)] }

theorem wit_QuorumEvents_here : ∀ x ∈ ([(0x300000005, true), (0x300000004, true), (0x300000003, true), (0x300000006, true), (0x300000007, true),
      (0x900000005, false)] : List (Nat × Bool)), let x := (BitVec.ofNat 64 x.1, x.2)
    ((Table.find? (contributing x.1).ops 4).map fun o => (o.miss, o.ctx)) = some (none, 1) ∧ bitsOf x.1 40 16 = 0 ∧
    (contributing x.1).granted 1 (bitsOf x.1 38 2) (bitsOf x.1 32 6) = x.2 := by decide +kernel

theorem wit_QuorumEvents_values :
    ((contributing 0x300000005).contributed (job 3 (.contribute 0 0x300000005 none true)) 0 2).toOption = some [0x3F000000, 0] ∧
    ((contributing 0x300000005).contributed (job 3 (.contribute 0x20000 0x300000005 none false)) 0x20000 2).toOption = none := by
  decide +kernel

/-- The second contribution of one ACLK waits; the first is on time (R335). -/
theorem test_one_contribution :
    (result (exec .quorumContribution (contributed { open5 with takenAt := some 0 } 5))).map
      (fun s => ((Table.find? s.slots 3).map fun x => x.onTime.count, s.verdicts.length)) = some (some 0, 0) ∧
    (result (exec .quorumContribution (contributed open5 6))).map
      (fun s => ((Table.find? s.slots 3).map fun x => x.early.count, s.verdicts.map fun y => y.verdict)) = some (some 1, [0]) := by
  decide +kernel

/-- QOPEN opens slot 3; the second contribution closes it with the mean, here (1 + 0) / 2; QWAIT reads its word (R334, R337, R340). -/
theorem test_quorum :
    (result (exec (.qopen ⟨false, 8, 0, 0, 0⟩) (slotted {} (openWords 5)))).map
      (fun s => (Table.find? s.slots 3).map fun x => (x.state, x.step, x.quorum, x.len)) = some (some (.opened, 5, 2, 2)) ∧
    (result (exec .quorumContribution (contributed { open5 with onTime := { count := 1, sum := [0, 0x40000000] } } 5))).map
      (fun s => (Table.find? s.slots 3).map fun x => (x.state, x.kind, x.result)) = some (some (.closed, 1, [0x3F000000, 0x40000000])) ∧
    (after (.qwait ⟨false, 4, 8, 0, 0⟩) (slotted closed5 [0x300000005]) 0).map (fun t => t.s 4) = some 0x0000000540000002 ∧
    (after (.qwait ⟨false, 4, 8, 0, 0⟩) (slotted closed5 [0x300000006]) 0).map (fun t => t.trap.cause) = some 71 := by decide +kernel

/-- A package with a link and a REM page of package 2 at 0x30000; a team with 2 lanes. -/
def linked : Team :=
  { busy with active := 3, live := 3, policy := 1, sr := [(4, 0x30000), (5, 0x30001), (6, 0)], v := [(8, [5, 6]), (9, [0, 64]), (10, [9, 9])] }
def net (t : Team) : State :=
  { on t with
    links := [(0, { up := true, width := 4 })], ctxs := [(1, { probeContext with gid := 77 })]
    tlb := [(0, [{ ctx := 1, base := 0, size := 65536, leaf := 0x10002F }, { ctx := 1, base := 0x30000, size := 65536, leaf := 0x0000020000050000 ||| 0xEF }])] }

/-- The two lanes of the team in a REM page, and the second in the page of its own memory. -/
def apart : Team := { linked with v := [(9, [0, 0xFFFFFFFFFFFD0000])] }

theorem wit_LoadsOfRemotePages :
    let g : AccessForm := { classes := roClasses, ro := true }
    let f : FmtM := ⟨false, 0, 11, 4, 9, 0⟩
    let lanes := fun (t : Team) => laneList t (t.takers 0 &&& rowsMask 0 1) (gatherPlace t f) 8 0
    (∀ t ∈ [linked, apart, { linked with phase := 1 }, { apart with phase := 1 }], Ready (net t) 0 t (.ldgRo f) ∧
      Ready (net t) 0 t (.ldlRo ⟨false, 0, 11, 4, 0, 0⟩) ∧ t.poisonStop [9] = none ∧ t.passesLeft = [0] ∧
      (net t).passCause 0 t ((lanes t).map Prod.snd) 8 g = none ∧ (net t).unsent t = false ∧ (net t).resultRoom 0 1 = true ∧
      (net t).flights = [] ∧ (net t).remLanes 0 t (lanes t) ≠ []) ∧
    ((net linked).remLanes 0 linked (lanes linked)).map (fun y => y.lane) = [0, 1] ∧
    ((net apart).remLanes 0 apart (lanes apart)).map (fun y => y.lane) = [0] ∧
    ((net apart).loadLanes 0 apart [(1, 0)] 8 g).missed = true ∧
    (({ net apart with cores := [(0, { lines := [line0] })] } : State).loadLanes 0 apart [(1, 0)] 8 g).missed = false ∧
    Ready (net linked) 0 linked (.lduRo f) ∧ (net linked).passCause 0 linked [uniformAddr linked f] 8 g = none ∧
    classIn ((net linked).translate 0 1 (uniformAddr linked f) { rd := true }) = some 3 := by
  unfold Ready; decide +kernel

/-- A .RO load of a REM page asks for its lines once, and the team waits (R202, R351). -/
theorem test_remote_ro :
    (result (exec (.ldgRo ⟨false, 0, 11, 4, 9, 0⟩) (net linked))).map
      (fun s => (s.ops.map fun o => o.2.work.requests.map fun x => (x.pkg, x.req.addr), (s.team? 0).map fun t => t.pc)) =
      some ([[(2, 0x50000), (2, 0x50040)]], some 0) := by decide +kernel

theorem wit_RemoteLanes :
    (∀ t ∈ [linked, { linked with phase := 1 }, { linked with active := 0 }],
      ∀ i ∈ ([.rld ⟨false, 11, 4, 0, 0⟩, .rld ⟨false, 11, 5, 0, 0⟩, .rst ⟨false, 8, 4, 0, 0⟩, .rst ⟨false, 8, 6, 0, 1⟩, .ratom ⟨false, 8, 4, 0, 0⟩,
        .ratom ⟨false, 8, 4, 0, 32⟩, .ratom ⟨false, 8, 5, 0, 0⟩] : List Instr), Ready (net t) 0 t i) ∧
    (∀ w ∈ [true, false], (net linked).remoteCause 0 linked (laneAddrs linked 3 0x30000 8 none) 8 w = none ∧
      (net linked).remoteCause 0 linked (laneAddrs linked 3 0x30001 8 none) 8 w = some (18, 0x30001, 0) ∧
      (net linked).remoteCause 0 linked (laneAddrs linked 3 0 8 none) 8 w = some (19, 0, 0)) ∧
    (net linked).remoteCause 0 linked (laneAddrs linked 3 0x30000 8 (some 9)) 8 true = none ∧
    ((net linked).remoteLanes 0 linked (laneAddrs linked 3 0x30000 8 none) true).map (fun x => (x.lane, x.page.pkg, x.page.pa)) =
      [(0, 2, 0x50000), (1, 2, 0x50008)] ∧
    ((net linked).remoteLanes 0 linked (laneAddrs linked 3 0x30000 8 (some 9)) true).map (fun x => x.page.pa) = [0x50000, 0x50040] ∧
    (net linked).noRoute 2 = false ∧ linked.poisonRead [8, 9, 10] = none ∧ (net linked).resultRoom 0 1 = true := by
  unfold Ready; decide +kernel

/-- A slice store with no room for a result. -/
def brimful : State :=
  let s := net linked
  { s with cores := [(0, { spillres := 0, slices := (List.range 4095).map fun n => { id := n, val := [] } })] }

theorem wit_RemoteLanes_full : brimful.resultRoom 0 1 = false ∧
    (∀ i ∈ [Instr.rld ⟨false, 11, 4, 0, 0⟩, .ratom ⟨false, 8, 4, 0, 0⟩], Ready brimful 0 linked i) ∧
    (∀ w ∈ [true, false], brimful.remoteCause 0 linked (laneAddrs linked 3 0x30000 8 none) 8 w = none) ∧
    brimful.unsent linked = false ∧ brimful.noRoute 2 = false := by unfold Ready; decide +kernel

/-- A team that waits for no remote operation, one that does, and one whose batch has failed. -/
def fenced : Team := { busy with batchF := { opened := 2, failed := [⟨1, 80, 0x40, 8⟩] } }
def outstanding : State := { on busy with ops := [(3, job 2 (.remote []))] }

theorem wit_RemoteAccess_fences :
    (∀ t ∈ [crew [0, 0x30000, 8, 0x30008, 1], crew [0, 0x30000, 0x100001, 0x30008, 1], crew [0, 0x30000, 8, 0x30004, 1]],
      Ready (net t) 0 t (.putsig ⟨false, 8, 0, 0, 0⟩) ∧ Ready (net t) 0 t (.putsig ⟨false, 8, 0, 0, 1⟩)) ∧
    (∀ i ∈ [Instr.rfence ⟨false, 0, 0, 0, 5⟩, .rfence ⟨false, 0, 0, 0, 6⟩], Ready (cached busy) 0 busy i ∧ Ready outstanding 0 busy i ∧
      Ready (on fenced) 0 fenced i) ∧
    (on busy).valueDue busy.uid = none ∧
    ({ on busy with pendings := [(3, { core := 0, team := 9, kind := 3, targets := [.scalar 4 0] })] } : State).valueDue busy.uid ≠ none ∧
    (on busy).fabricBusy busy = false ∧ outstanding.fabricBusy busy = true ∧ (on fenced).fabricBusy fenced = false ∧
    (∀ l ∈ ((cached busy).core 0).lines, l.ctx = 1 → l.dirty = 0) ∧ (cached busy).flightsOf 0 1 = [] := by unfold Ready; decide +kernel

/-- Checks that fail: a miss, a malformed entry, an address of no REM page; no route; and a line that was sent before and has
not left. -/
theorem wit_RemoteLanes_stops :
    let bad : State := { net linked with tlb := [], ctxs := [(1, { probeContext with gid := 77, ptroot := 0xFFFFFFFFFFFFF000 })] }
    let unlinked : State := { net linked with links := [] }
    (∀ i ∈ [Instr.rld ⟨false, 11, 4, 0, 0⟩, .rst ⟨false, 8, 4, 0, 0⟩, .ratom ⟨false, 8, 4, 0, 0⟩], Ready bad 0 linked i ∧
      Ready unlinked 0 linked i ∧ Ready (on linked) 0 linked i) ∧
    (on linked).remoteCause 0 linked (laneAddrs linked 3 0x30000 8 none) 8 true = some (16, 0x30000, 0) ∧
    bad.remoteCause 0 linked (laneAddrs linked 3 0x30000 8 none) 8 true = some (23, 0x30000, 0) ∧
    unlinked.remoteCause 0 linked (laneAddrs linked 3 0x30000 8 none) 8 true = none ∧ unlinked.noRoute 2 = true ∧
    unlinked.unsent linked = false ∧ Table.wf unlinked.ops = true ∧
    ({ net linked with ops := [(3, { job 2 (.putsig 0 0x30000 8 0x30008 1 false 0 [] none) with miss := some 1 })] } : State).unsent linked = true := by
  unfold Ready; decide +kernel

theorem wit_RemoteLanes_alone : ∀ j u, ({ net linked with links := [] } : State).team? j = some u → u.uid = linked.uid → j = 0 :=
  uid_unique (by decide)

/-- An RST without a route fails its batch (R363). -/
theorem test_no_route :
    (after (.rst ⟨false, 8, 4, 0, 0⟩) { net linked with links := [] } 0).map
      (fun t => (t.pc, t.batchF.failed.map fun x => (x.cause, x.addr))) = some (4, [(83, 0x30000)]) ∧
    (after (.rld ⟨false, 11, 4, 0, 0⟩) { net linked with links := [] } 0).map (fun t => (t.trap.cause, t.trap.addr)) = some (83, 0x30000) := by
  decide +kernel

/-- The requests of an operation. -/
def requestsOf (w : Work) : List (Nat × Nat × RemoteKind) := w.requests.map fun x => (x.pkg, x.req.addr, x.req.kind)

/-- RLD sends a read of one line and parks; RST sends two writes; RFENCE raises what failed (R351, R352, R355). -/
theorem test_remote :
    ((result (exec (.rld ⟨false, 11, 4, 0, 0⟩) (net linked))).map fun s => s.ops.map fun e => requestsOf e.2.work) =
      some [[(2, 0x50000, .read 64)]] ∧
    (after (.rld ⟨false, 11, 4, 0, 0⟩) (net linked) 0).map (fun t => (t.wait, t.pc)) = some (.reply 10, 0) ∧
    ((result (exec (.rst ⟨false, 8, 4, 0, 3⟩) (net linked))).map fun s => s.ops.map fun e => requestsOf e.2.work) =
      some [[(2, 0x50000, .write [5]), (2, 0x50001, .write [6])]] ∧
    (after (.rfence ⟨false, 0, 0, 0, 5⟩) (on fenced) 0).map (fun t => (t.trap.cause, t.trap.eng, t.trap.issue)) = some (80, true, 0x40) := by
  decide +kernel

/-- A PUTSIG of eight bytes at address 0 whose payload and flag go to one package; one whose flag goes to another; one of no
bytes. -/
def signalling (flag : Word) (len : Word) : State :=
  { net linked with
    detail := .place 3 0, ops := [(3, job 2 (.putsig 0 0x30000 len flag 1 false 0 [] none))]
    tlb := [(0, [{ ctx := 1, base := 0, size := 65536, leaf := 0x10002F }, { ctx := 1, base := 0x30000, size := 65536, leaf := 0x00000200000500EF }
      , { ctx := 1, base := 0x40000, size := 65536, leaf := 0x00000300000500EF }])] }

theorem wit_SignalsSent : ∀ x ∈ ([(0x30040, 8), (0x40000, 8), (0x40000, 0)] : List (Nat × Nat)),
    let x := (BitVec.ofNat 64 x.1, BitVec.ofNat 64 x.2)
    let s := signalling x.1 x.2
    let o := job 2 (.putsig 0 0x30000 x.2 x.1 1 false 0 [] none)
    Table.find? s.ops 3 = some o ∧ o.miss = none ∧ s.flights = [] ∧ s.putsigCause o x.1 = none ∧
    (s.putsigPull o ((List.range x.2.toNat).map fun i => (0 + BitVec.ofNat 64 i, 0x30000 + BitVec.ofNat 64 i)) []).2 = none ∧
    (s.remoteHome o 0x30000, s.remoteHome o x.1) = ((2, 0x50000), if x.1 = 0x30040 then (2, 0x50040) else (3, 0x50000)) := by
  decide +kernel

/-- What the operations have sent: where it goes, and what it counts. -/
def sentParts (s : State) : List (Nat × Nat × Option (Nat × Nat)) :=
  s.ops.flatMap fun e => e.2.work.requests.map fun x => (x.pkg, x.req.addr, x.req.signal)

/-- Payload and flag leave together for one package, with the count of writes that the flag follows; a flag of another package
stays behind until the payload is acknowledged (R354). -/
theorem test_putsig :
    sentParts ((signalling 0x30040 8).putsigGo 3) = [(2, 0x50000, some (3, 0)), (2, 0x50040, some (3, 1))] ∧
    sentParts ((signalling 0x40000 8).putsigGo 3) = [(2, 0x50000, none)] ∧
    sentParts ((signalling 0x40000 0).putsigGo 3) = [(3, 0x50000, none)] := by decide +kernel

/-- A read that waits for its reply; a posted write, alone and as an atomic that returns. -/
def request1 : RemoteRequest := { source := 0, gctx := 77, team := 9, seq := 1, addr := 0x50000, kind := .write [1] }
def sent1 : Sent := { pkg := 2, va := 0x30000, req := request1 }
def replied (r : RemoteAnswer) (cls : Nat) : State :=
  { net { linked with wait := if cls = 4 then .reply 3 else .ready } with
    detail := .answer 3 r, ops := [(3, job cls (.remote [{ sent1 with req := { request1 with kind := .read 64 } }]))]
    pendings := [(3, { core := 0, team := 9, kind := 2, targets := [.slice 11 0 3 [] 0 0x30000]
                       reads := [(0, 0, 0x30000), (1, 0, 0x30008)] })] }
def acked (d : Detail) : State := { net linked with detail := d, clock := 6000000, ops := [(3, job 2 (.remote [sent1]))] }

theorem wit_FabricReplies : (∀ x ∈ [(RemoteAnswer.lines [(5, false)], 4), (.lines [(5, true)], 4), (.done [1], 2), (.failed 81, 4), (.failed 81, 2)],
    let s := replied x.1 x.2
    (Table.find? s.pendings 3).isSome = true ∧ (Table.find? s.ops 3).map (fun o => (o.cls, o.uid, o.work.requests.length)) = some (x.2, 9, 1) ∧
    Table.wf s.teams = true ∧ Table.wf s.pendings = true ∧ Table.wf s.ops = true ∧ (s.team? 0).map (fun t => t.uid) = some 9 ∧
    ((s.core 0).slices.length + 1 ≤ sliceRoom) ∧ (∀ e ∈ s.teams, e.2.wait ≠ .retire)) ∧
    (∀ d ∈ [Detail.answer 3 (.failed 81), .answer 3 (.done [])], (acked d).pendings = [] ∧
      (Table.find? (acked d).ops 3).map (fun o => (o.cls, o.work)) = some (2, .remote [sent1])) ∧
    max 1 (acked (.place 3 0)).fabto.toNat ≤ 2 * ((acked (.place 3 0)).clock - 0) ∧
    2 * ((replied (.failed 81) 2).clock - 0) < max 1 (replied (.failed 81) 2).fabto.toNat := by decide +kernel

/-- What the other answers and the timeout meet: a publish, a contribution that was sent, that was not and that waits for a miss,
and the failure of one request of two. -/
theorem wit_FabricReplies_failures :
    let two : Op := job 2 (.remote [sent1, { sent1 with va := 0x30008 }])
    let publ : Op := job 2 (.remote [{ sent1 with req := { request1 with kind := .publish 0 0 } }])
    (∀ c ∈ [2, 4], Table.find? (replied (.failedAt 0 81) c).ops 3 ≠ none ∧ (Table.find? (replied (.failedAt 0 81) c).pendings 3).isSome = true) ∧
    (two.work.requests[1]?).map (fun y => y.va) = some 0x30008 ∧
    (publ.work.requests.map fun y => y.req.kind) = [.publish 0 0] ∧
    (∀ x ∈ ([(true, none), (false, none), (true, some 1)] : List (Bool × Option Nat)),
      let s := posted (.contribute 0 0 none x.1) fun o => { o with miss := x.2 }
      (Table.find? s.ops 3).map (fun o => o.miss) = some x.2 ∧ 2 * ((posted (.contribute 0 0 none x.1) id).clock - 0) < s.fabto.toNat ∧
        max 1 s.fabto.toNat ≤ 2 * ({ s with clock := 6000000 } : State).clock) := by decide +kernel

theorem wit_FabricReplies_alone : ∀ r cls j u, (replied r cls).team? j = some u → u.uid = 9 → j = 0 := by
  intro r cls
  refine uid_unique fun e he => ?_
  simp only [replied, net, on, Table.put, State.reset] at he
  revert he
  by_cases h : cls = 4 <;> simp only [h, if_true, if_false] <;> revert e <;> decide

/-- A PUTSIG whose flag was sent with its payload, and the place of a page in a CXL pool. -/
def pair : Work := .remote [{ sent1 with req := { request1 with signal := some (3, 0) } }, { sent1 with req := { request1 with seq := 2, signal := some (3, 1) } }]
def cxlAt : Word := 0x8000000060000

/-- Where the requests of a PUTSIG go whose flag is held, the flag's last, with their numbers and bases. -/
def heldParts (w : Work) : List (Nat × Nat × Nat × Nat) :=
  match w with
  | .putsig _ _ _ _ _ _ _ rs (some l) => (rs ++ [l]).map fun x => (x.pkg, x.req.addr, x.req.seq, x.req.base)
  | _ => []

/-- A payload write that moves to another package takes its number with it, and its flag is held (R354, R361). -/
theorem test_forwarded :
    (result (exec .forwardingPointer { net linked with detail := .forwarded 3 0 false 7 0x60000 4, ops := [(3, job 2 pair)] })).map
      (fun s => s.ops.map fun e => heldParts e.2.work) = some [[(7, 0x60000, 1, 4), (2, 0x50000, 2, 0)]] := by decide +kernel

/-- The links and the forwarding pointers of the statement on events. -/
theorem wit_FabricEvents :
    (∀ x ∈ [(sent1, false, (7 : Nat), (0x60000 : Word)), ({ sent1 with forwards := 4 }, false, 7, 0x60000), (sent1, true, 0, 0x60000)],
      let s : State := { net linked with detail := .forwarded 3 0 x.2.1 x.2.2.1 x.2.2.2 4, ops := [(3, job 2 (.remote [x.1]))] }
      (Table.find? s.ops 3).map (fun o => o.work.requests[0]?) = some (some x.1) ∧ (Work.remote [x.1]).flagHeld 0 = false) ∧
    (∀ n ∈ [0, 1], pair.flagHeld n = decide (n = 1) ∧ (pair.requests[n]?).isSome = true) ∧
    isCxl 0x60000 = false ∧ isCxl (2 ^ 51) = true ∧ isCxl (cxlAt.toNat / 65536 * 65536 + 0x50000 % 65536) = true ∧
    (∀ l ∈ [({ retraining := true } : Link), { retraining := true, mismatches := 2 }, {}],
      ({ net linked with links := [(0, l)] } : State).links = [(0, l)]) := by decide +kernel

/-- A request from package 2 on the page that the context of group 77 owns. -/
def asked (r : RemoteRequest) : State := { net linked with detail := .request r }
def request2 : RemoteRequest := { source := 2, gctx := 77, team := 4, seq := 1, addr := 0x100008, kind := .write [1, 2] }

theorem wit_RemoteRequests :
    (asked request2).heardSeq request2 + 1 = request2.seq ∧ (asked { request2 with seq := 3 }).heardSeq { request2 with seq := 3 } + 1 < 3 ∧
    (asked { request2 with seq := 0 }).heardSeq { request2 with seq := 0 } = 0 ∧ (asked request2).held = [] ∧ request2.signal = none ∧
    (asked request2).ctxOfGid 77 = some 1 ∧ (asked request2).ctxOfGid 78 = none ∧ isDevice 0x100008 = true ∧ (asked request2).owner 0x100008 = 1 ∧
    (asked request2).owner 0x200000 ≠ 1 ∧ isDevice (2 ^ 52) = false ∧ Memory.wf (asked request2).mem = true ∧ (asked request2).badRun 0x100008 2 = false ∧
    (asked request2).badData 0x100008 = false ∧ (asked request2).flights = [] ∧ Table.find? (asked request2).moved 16 = none ∧
    Table.find? ({ asked request2 with moved := [(16, (false, 3, 0x70000))] } : State).moved (0x100008 / 65536) = some (false, 3, 0x70000) ∧
    (match ((asked { request2 with signal := some (1, 0) }).performRequest { request2 with signal := some (1, 0) }).2 with
      | .moved _ _ _ _ => true
      | _ => false) = false ∧
    (asked { request2 with seq := 5, base := 4 }).heardSeq { request2 with seq := 5, base := 4 } + 1 = 5 ∧
    ((asked { request2 with signal := some (1, 2) }).signalOf request2 1).count < 2 ∧
    (({ asked { request2 with signal := some (1, 1) } with signals := [⟨2, 77, 4, 1, 1, some 81⟩] } : State).signalOf request2 1).failed = some 81 ∧
    (let f : Flight := { core := 0, ctx := 1, pa := 0x4000, mask := 0, data := 0, desc := none, add := some (0x100008, 0x3F800000) }
     Table.wf ({ asked request2 with flights := [(5, f)] } : State).flights = true ∧ f.ctx = 1 ∧ f.into = none) := by decide +kernel

/-- A request that numbers 1 to 4 came before elsewhere is in its turn here (R361); a payload write of a page that has gone does
not count for its flag (R354). -/
theorem test_turn :
    (result (exec .remoteRequest (asked { request2 with seq := 5, base := 4 }))).map (fun s => (s.held.length, s.mem.length)) = some (0, 2) ∧
    (let r := { request2 with signal := some (1, 0) }
     (({ asked r with moved := [(16, (false, 3, 0x70000))] } : State).hear r).signalOf r 1).count = 0 ∧
    (let r := { request2 with signal := some (1, 0) }
     ((asked r).hear r).signalOf r 1).count = 1 := by decide +kernel

/-- The reply fills the lanes in order, zero-extended, and the team goes on; a request writes its bytes; an error fails the batch; a
link comes up (R351, R353, R356, R363). -/
theorem test_fabric :
    (after .remoteReply (replied (.lines [(0x00000002000000000000000000000001, false)]) 4) 0).map (fun t => (t.lane 11 0, t.lane 11 1, t.phase)) =
      some (1, 0x0000000200000000, 1) ∧
    (result (exec .remoteRequest (asked request2))).map (fun s => s.mem) = some [(0x100008, 1#8), (0x100009, 2#8)] ∧
    (result (exec .fabricAck (acked (.answer 3 (.failed 81))))).map (fun s => (s.team? 0).map fun t => t.batchF.failed.map fun x => (x.cause, x.addr)) =
      some (some [(81, 0x30000)]) ∧
    (result (exec .linkRetrain { net linked with links := [(0, { retraining := true })], detail := .summary 0 ⟨4, 1, 1⟩ ⟨4, 1, 1⟩ })).map
      (fun s => s.links.map fun e => (e.2.up, e.2.width)) = some [(true, 4)] := by decide +kernel

/-! ### Traps, special registers, contexts, partitions -/

/-- A team with no handler, one in its handler, and a loader. -/
def bare : Team := { busy with trap := {} }
def inside : Team := { busy with trap := { entry := 0x400, inh := true, tpc := 0x20, pass := 0 } }
def loading : Team := { busy with role := .loader }

/-- The package with a line of code in the quad's cache: a word, a word with a literal, and its literal. -/
def coded (t : Team) : State :=
  { on t with quads := [(0, { part := 1, icache := [(1, 0, (List.range 48).map fun i => if i == 8 then some 0x02007FA3 else some 0)] })] }

/-- A team whose handler would return to an address that is no target, and one with a poisoned row of v1. -/
def back (a : Nat) : Team := { inside with trap := { inside.trap with tpc := BitVec.ofNat 64 a } }
def tainted (r : Bool) : Poison := { reg := 1, row := 0, cause := 21, addr := 0x100000, read := r }

theorem wit_SoftwareTraps :
    (∀ t ∈ [busy, bare, inside], ∀ i ∈ [Instr.trap ⟨false, 0, 0, 1, 2⟩, .bkpt ⟨false, 0, 0, 31, 63⟩], Ready (on t) 0 t i) ∧
    busy.trap.entry ≠ 0 ∧ busy.trap.inh = false ∧ busy.role = .alone ∧ isCoreKey 0 = true := by unfold Ready; decide +kernel

/-- A thread that runs a prologue of launch 3. -/
def prologueOf (t : Team) : State := { on busy with actor := proKey 0, teams := Table.put (on busy).teams (proKey 0) t }
def thread3 : Team := { Team.thread 2 .prologue 0 .ready with ctx := 1, launch := 3 }

theorem wit_Traps :
    (∀ t ∈ [busy, bare, inside, loading], (on t).team? 0 = some t) ∧ (onSystem []).team? (sysKey 0) = some (sysTeam []) ∧
    (onSystem []).evq.full = false ∧ isCoreKey (sysKey 0) = false ∧ (prologueOf thread3).team? (proKey 0) = some thread3 ∧
    (coded busy).actor = 0 ∧ (coded busy).team? 0 = some busy ∧ busy.trap.inh = false ∧ busy.role = .alone ∧
    (∀ t ∈ [inside, { inside with stack := [⟨false, 0, 1⟩] }], ∀ i ∈ [Instr.rett ⟨false, 0, 0, 0, 0⟩, .rett ⟨false, 0, 0, 0, 1⟩],
      Ready (coded t) 0 t i) ∧ inside.stack.length = inside.trap.depth ∧ ((coded inside).peek 0 inside 0x20).isSome = true ∧
    targetAddrOk inside.trap.tpc = true ∧ (∀ a ∈ [0x22, 0x0100000000000000], Ready (coded (back a)) 0 (back a) (.rett ⟨false, 0, 0, 0, 0⟩) ∧
      (back a).trap.inh = true ∧ (back a).stack.length = (back a).trap.depth ∧ targetAddrOk (back a).trap.tpc = false) ∧
    busy.trap.inh = false ∧ busy.role ∈ [Role.alone, .computer, .storer] := by
  unfold Ready; decide +kernel

/-- TRAP 66 enters the handler with its code; RETT returns to the word, or past it; a fault in the handler kills the context. -/
theorem test_traps :
    (after (.trap ⟨false, 0, 0, 1, 2⟩) (on busy) 0).map (fun t => (t.pc, t.trap.cause, t.trap.code, t.trap.inh)) = some (0x400, 5, 66, true) ∧
    (after (.rett ⟨false, 0, 0, 0, 0⟩) (coded inside) 0).map (fun t => (t.pc, t.trap.inh)) = some (0x20, false) ∧
    (after (.rett ⟨false, 0, 0, 0, 1⟩) (coded inside) 0).map (fun t => t.pc) = some (if isLiteralWord 0x02007FA3 then 0x28 else 0x24) ∧
    (result (exec (.bkpt ⟨false, 0, 0, 0, 0⟩) (on inside))).map (fun s => ((s.ctx 1).killed, s.evq.tail, s.bytes 0 2)) =
      some (true, 1, [3, 120]) := by decide +kernel

/-- RETT to an address that is no target raises cause 11 at RETT, and outside a handler cause 2; a poisoned slice that is read is
marked as read. -/
theorem test_wrong_return :
    (result (exec (.rett ⟨false, 0, 0, 0, 0⟩) (coded (back 0x22)))).map (fun s => ((s.ctx 1).killed, s.bytes 0 2, s.bytes 16 1)) =
      some (true, [3, 120], [11]) ∧
    (after (.rett ⟨false, 0, 0, 0, 0⟩) (coded busy) 0).map (fun t => (t.pc, t.trap.cause, t.trap.addr)) = some (0x400, 2, 0) ∧
    (after (.iadd ⟨false, 0, 3, 1, 2, 0⟩) (on { busy with poison := [tainted false] }) 0).map
      (fun t => (t.trap.cause, t.poison)) = some (21, [tainted true]) := by decide +kernel

/-- SRD and SWR of a register, through s4 and s5. -/
def srdOf (n : Nat) : Instr := .srd ⟨false, 4, 0, BitVec.ofNat 5 (n / 64), BitVec.ofNat 6 (n % 64)⟩
def swrOf (n : Nat) : Instr := .swr ⟨false, 0, 5, BitVec.ofNat 5 (n / 64), BitVec.ofNat 6 (n % 64)⟩

/-- Every register that a statement reads or writes is open to a system thread; those of user level to a team. -/
theorem wit_SpecialRegisters :
    (∀ n ∈ [0x0A1, 0x013, 0x014, 0x015, 0x022, 0x023, 0x030, 0x050, 0x052, 0x070, 0x071, 0x090, 0x091, 0x092, 0x093, 0x094, 0x095, 0x096, 0x097,
        0x010, 0x011, 0x012, 0x001, 0x002, 0x003, 0x016, 0x020, 0x021, 0x024, 0x025, 0x026, 0x027, 0x054, 0x0BC, 0x017, 0x040, 0x060, 0x061, 0x072, 0x073,
        0x074, 0x076, 0x077, 0x078, 0x085, 0x086, 0x0A2, 0x0A3, 0x0A4, 0x0A5, 0x0A6, 0x0A7, 0x0B1, 0x0B2, 0x0B3, 0x0B4, 0x0B5, 0x0B6, 0x064, 0x075,
        0x080, 0x081, 0x083, 0x084, 0x0A8, 0x0A9, 0x0AA, 0x0AB, 0x0AC, 0x0AD, 0x0B9, 0x0C0, 0x0C1, 0x0C2, 0x0C3, 0x0C8, 0x098, 0x0C7],
      regLevel n ≠ none ∧ formCause (sysTeam []) (srdOf n) = none) ∧
    (∀ n ∈ [0x030, 0x070, 0x071, 0x090, 0x097, 0x040, 0x060, 0x061, 0x072, 0x074, 0x076, 0x078, 0x0A2, 0x0A4, 0x0A5, 0x0A6, 0x0A7, 0x075, 0x081,
        0x0A8, 0x0A9, 0x0A0, 0x0B0, 0x0B9, 0x0C2, 0x0C3, 0x0C5], regWritable n = true ∧ formCause (sysTeam []) (swrOf n) = none) ∧
    (∀ n ∈ [0x010, 0x013, 0x022, 0x030, 0x052, 0x070, 0x090, 0x001, 0x020, 0x085, 0x0A1], formCause busy (srdOf n) = none) ∧
    (∀ n ∈ [0x030, 0x070, 0x090, 0x097, 0x013, 0x3FF], formCause busy (swrOf n) = none) ∧ regLevel 0x3FF = none ∧ regWritable 0x013 = false := by
  decide +kernel

/-- Registers of a higher level than a team's. -/
theorem wit_SpecialRegisters_above : regLevel 0x0A2 = some 1 ∧ regLevel 0x0C8 = some 2 ∧ busy.level < 1 ∧ busy.level < 2 := by
  decide +kernel

/-- A system thread's view of the units it selects, and a digest of no bytes that has run. -/
def digesting (d : Digest) (det : Detail) : State := { onSystem [] with digests := [d, {}, {}, {}], detail := det }

theorem wit_SpecialRegisters_places :
    (onSystem []).syssel[dieOf 16384]? = some 0 ∧ (onSystem []).lqsel[dieOf 16384]? = some 0 ∧
    ((onSystem []).placeOf 16384 (sysTeam [])).key = 0 ∧ ((onSystem []).core 0).power = .running ∧
    (∀ n ∈ [0x030, 0x040, 0x075, 0x0A2], (onSystem []).writeWaits 16384 ((onSystem []).placeOf 16384 (sysTeam [])) n = false) ∧
    (onSystem []).team? 0 = some team ∧ (on busy).flagsBusy 0 busy 0x030 = false ∧ engaged.flagsBusy 0 busy 0x030 = true ∧ busy.loops = [] ∧
    (digesting {} (.value 0 0 3)).digests.length = 4 ∧ ((digesting { running := true } (.place 0 0)).digest 0).running = true ∧
    (digesting { addr := 0x100000, len := 3 } .nothing).readable 0x100000 3 = true ∧ immOfE ⟨false, 4, 0, 3, 7⟩ = 0x0C7 := by decide +kernel

/-- NFLAGS is read and written by its team; a control core writes another team's; DGOUT gives the digest of no bytes. -/
theorem test_registers :
    (after (srdOf 0x030) (on { busy with nflags := 5 }) 0).map (fun t => t.s 4) = some 5 ∧
    (after (swrOf 0x030) (on busy) 0).map (fun t => t.nflags) = some 63 ∧
    (after (swrOf 0x070) { onSystem [] with teams := Table.put (onSystem []).teams (sysKey 0) (sysTeam [(5, 77)]) } 0).map (fun t => t.ldvlim) = some 77 ∧
    (after (srdOf 0x0A2) (on busy) 0).map (fun t => t.trap.cause) = some 2 := by decide +kernel

theorem test_digest :
    (result (exec .digestComplete (digesting { running := true } (.place 0 0)))).map (fun s => (s.digest 0).out.head?) =
      some (some 0x138DA80B2BDDB946) := by decide +kernel

/-- A run of 256, a line that a quad fills, and a write of two bytes on its way. -/
def spent : State := { on busy with detail := .place 0 0, cores := [(0, { runTeam := some 0, runCount := 256 })] }
def loadSpent : State := { on busy with detail := .place 0 0, cores := [(0, { affineTeam := some 0, affineCount := 256 })] }
def filling : State :=
  { on { busy with wait := .line 0 } with
    detail := .numbers [0, 1, 0], quads := [(0, { part := 1, filling := [(1, 0)] })], mem := [(0x100004, 0x5A#8)]
    tlb := [(0, [{ ctx := 1, base := 0, size := 65536, leaf := 0x100037 }])] }
def flying (m : BitVec 64) : State :=
  { on busy with detail := .place 3 0, flights := [(3, { core := 0, ctx := 1, pa := 0x4000, mask := m, data := 0x020100, desc := none })] }

theorem wit_LinesAndRuns :
    256 ≤ (spent.core 0).issuesOf false ∧ (spent.core 0).runOf false = some 0 ∧ spent.team? 0 = some busy ∧
    256 ≤ (loadSpent.core 0).issuesOf true ∧ (loadSpent.core 0).runCount < 256 ∧ (loadSpent.core 0).runOf true = some 0 ∧
    (filling.fetchPage 0 1 65536).toOption = none ∧ 192 * 341 + 4 * 16 = 65536 ∧ ({ filling with detail := .numbers [0, 1, 1] } : State).quad 0 = filling.quad 0 ∧
    (1, 1) ∉ (filling.quad 0).filling ∧ (∀ e ∈ (flying 6).flights, e.2.into = none ∧ e.2.add = none) ∧
    (1, 0) ∈ (filling.quad 0).filling ∧ (filling.fetchPage 0 1 4).toOption.isSome = true ∧
    filling.team? 0 = some { busy with wait := .line 0 } ∧ Table.find? (flying 6).flights 3 ≠ none ∧ Memory.wf (flying 6).mem = true ∧
    Table.wf (flying 6).descs = true ∧ (∀ e ∈ (flying 6).flights, ¬e.1 < 3) := by decide +kernel

/-- A write of all 64 bytes, over a line whose descriptor and data are uncorrectable. -/
def flyingAll : State := { flying (BitVec.allOnes 64) with descs := [(0x4000, 2)], bad := [(0x4000, true, true)] }

theorem wit_LinesAndRuns_whole : Table.find? flyingAll.flights 3 ≠ none ∧ (∀ e ∈ flyingAll.flights, e.2.into = none ∧ e.2.add = none ∧
    e.2.mask = BitVec.allOnes 64) ∧ Table.wf flyingAll.descs = true ∧ flyingAll.badData 0x100000 = true ∧ flyingAll.badDesc 0x100000 = true ∧
    isCxl (64 * 0x4000) = false := by decide +kernel

/-- It ends the errors of its line and writes a raw descriptor, KIND 0 (R442, R443). -/
theorem test_whole_line : (result (exec .writeBackAck flyingAll)).map (fun s => (s.badData 0x100000, s.badDesc 0x100000, s.desc 0x100000, s.byte 0x100001)) =
    some (false, false, 0, 1) := by decide +kernel

theorem test_lines :
    (result (exec .issueRunEnd { spent with clock := 40 })).map (fun s => ((s.core 0).runTeam, (s.team? 0).map fun t => t.stamp)) = some (none, some 40) ∧
    (result (exec .issueRunEnd { loadSpent with clock := 40 })).map (fun s => ((s.core 0).affineTeam, (s.team? 0).map fun t => t.stamp)) =
      some (none, some 40) ∧
    (result (exec .icacheLineFill { filling with
      detail := .numbers [0, 1, 341], quads := [(0, { part := 1, filling := [(1, 341)] })] })).map
      (fun s => ((s.quad 0).icache.map fun l => (l.2.2.getD 15 none, l.2.2.getD 16 none))) = some [(some 0, none)] ∧
    (result (exec .icacheLineFill filling)).map (fun s => ((s.quad 0).icache.map fun l => l.2.2.getD 1 none, (s.team? 0).map fun t => t.wait)) =
      some ([some 0x5A], some .ready) ∧
    (result (exec .writeBackAck (flying 6))).map (fun s => s.mem) = some [(0x100001, 1#8), (0x100002, 2#8)] := by decide +kernel

/-- A system thread with scalars over the cached line with a dirty byte, and without teams of the context. -/
def purged (sr : Table Word) : State := { onSystem sr with cores := [(0, { lines := [{ line0 with dirty := 2 }] })] }
def emptied (sr : Table Word) : State := { purged sr with teams := [(sysKey 0, sysTeam sr)] }

theorem wit_Invalidation :
    (∀ sr ∈ ([[(8, 1)], [(8, 5)], [(8, 1), (9, 0x40)]] : List (Table Word)), Ready (purged sr) 16384 (sysTeam sr) (.tlbinv ⟨false, 8, 9, 0, 0⟩) ∧
      Ready (purged sr) 16384 (sysTeam sr) (.tlbinv ⟨false, 8, 0, 0, 1⟩) ∧ Ready (purged sr) 16384 (sysTeam sr) (.keykill ⟨false, 8, 0, 0, 0⟩) ∧
      Ready (emptied sr) 16384 (sysTeam sr) (.keykill ⟨false, 8, 0, 0, 0⟩)) ∧
    ((purged []).ctx 1).alive = true ∧ ((purged []).ctx 5).alive = false ∧ (purged []).hasTeams 1 = true ∧ (emptied []).hasTeams 1 = false ∧
    (purged []).cores = [(0, { lines := [{ line0 with dirty := 2 }] })] ∧ (purged []).flights = [] ∧ Memory.wf (purged []).mem = true := by
  unfold Ready; decide +kernel

/-- The dirty line lies in the reserved part of the L1. -/
def kept (sr : Table Word) : State := { purged sr with cores := [(0, { reserved := [{ line0 with dirty := 2 }] })] }

theorem wit_Invalidation_reserved : Ready (kept [(8, 1)]) 16384 (sysTeam [(8, 1)]) (.tlbinv ⟨false, 8, 0, 0, 1⟩) ∧
    ((kept [(8, 1)]).core 0).lines = [] ∧ ((kept [(8, 1)]).core 0).reserved = [{ line0 with dirty := 2 }] ∧ (kept [(8, 1)]).flights = [] := by
  unfold Ready; decide +kernel

/-- TLBINV writes it back; KEYKILL of a context without teams discards it (R378, R392). -/
theorem test_reserved :
    (result (exec (.tlbinv ⟨false, 8, 0, 0, 1⟩) (kept [(8, 1)]))).map (fun s => (s.mem, (s.core 0).reserved.length)) = some ([(0x100001, 1#8)], 0) ∧
    (result (exec (.keykill ⟨false, 8, 0, 0, 0⟩) { kept [(8, 1)] with teams := [(sysKey 0, sysTeam [(8, 1)])] })).map
      (fun s => (s.mem, (s.core 0).reserved.length)) = some ([], 0) := by decide +kernel

/-- TLBINV of the context writes back byte 1 and drops line and translation; KEYKILL kills a context with teams (R378, R379). -/
theorem test_invalidation :
    (result (exec (.tlbinv ⟨false, 8, 0, 0, 1⟩) (purged [(8, 1)]))).map (fun s => (s.mem, (s.core 0).lines.length, (Table.getD s.tlb 0 []).length)) =
      some ([(0x100001, 1#8)], 0, 0) ∧
    (result (exec (.keykill ⟨false, 8, 0, 0, 0⟩) (purged [(8, 1)]))).map (fun s => ((s.ctx 1).killed, (s.team? 0).isSome, s.bytes 0 2)) =
      some (true, false, [3, 121]) ∧
    (result (exec (.keykill ⟨false, 8, 0, 0, 0⟩) (emptied [(8, 1)]))).map (fun s => ((s.ctx 1).alive, (s.ctx 1).key)) = some (true, none) := by
  decide +kernel

/-- Events about contexts and pages, from a package where partition 2 is stopped and empty. -/
def told (d : Detail) : State := { on busy with detail := d, parts := [(1, { live := 1 }), (2, { stopped := true })] }

theorem wit_Contexts :
    ((told .nothing).ctx 1).alive = true ∧ ((told .nothing).ctx 5).alive = false ∧ (told .nothing).evq.full = false ∧
    Memory.wf (told .nothing).mem = true ∧ Table.wf (told .nothing).teams = true ∧ ((told .nothing).part 1).live = 1 ∧
    ((told (.place 2 2)).part 2).stopped = true ∧ ((told (.place 2 2)).part 2).live = 0 ∧ ((told (.place 2 2)).ctx 2).alive = false ∧
    (∀ e ∈ (told .nothing).owners, e.2 ≠ 2) ∧ (told .nothing).hasTeams 1 = true ∧ (told .nothing).hasTeams 2 = false ∧
    bitsOf 0x0001000000000020 36 12 = 0 ∧ isDevice (65536 * 0x20) = true ∧ isDevice (65536 * 0xB8000) = false ∧ isReserved (65536 * 0xB8000) = true ∧
    isReserved (65536 * 0xF00000000) = false ∧ isDevice (65536 * 0xF00000000) = false ∧ Table.wf (told .nothing).owners = true := by
  decide +kernel

/-- Two contexts of which the first has group 9; with a key it keeps the number to itself, and after KEYKILL it does not (R346). -/
def grouped (key : Option Nat) : State :=
  { told (.value 2 0 9) with ctxs := [(1, { probeContext with key := key, gid := 9 }), (2, { alive := true, key := some 4 })] }

theorem wit_Contexts_groups : ((grouped none).ctx 2).alive = true ∧ ((grouped none).ctx 2).key ≠ none ∧
    (∃ e ∈ (grouped (some 3)).ctxs, e.1 ≠ 2 ∧ (e.2.alive = true ∧ e.2.key ≠ none) ∧ e.2.gid = 9) ∧
    (∀ e ∈ (grouped none).ctxs, e.1 ≠ 2 → e.2.key = none) ∧ ∀ e ∈ (grouped none).teams, isCoreKey e.1 = true → e.2.ctx ≠ 2 := by
  decide +kernel

theorem test_groups :
    (result (exec .ctxgidWrite (grouped none))).map (fun s => (s.ctx 2).gid) = some 9 ∧
    (result (exec .ctxgidWrite (grouped (some 3)))).map (fun s => (s.ctx 2).gid) = some 0 := by decide +kernel

/-- A control thread that waits for a miss of context 1, and a team of it with unread poison, on its core or in the cellar. -/
def mourning (cellar : Bool) : State :=
  let s := { told .nothing with misses := [(4, { ctx := 1, page := 0, addr := 0x38, kinds := 1, source := 0, seq := some 6, waiters := [] })] }
  let own := [(0, { busy with unread := 2 })]
  if cellar then { s with teams := [], parts := [(1, { live := 5, cellar := 1 })], cellars := [(1, { teams := own })] }
  else { s with teams := own }

theorem wit_Kills : (mourning false).teams = [(0, { busy with unread := 2 })] ∧ ((mourning false).part 1).live = 1 ∧ (mourning true).teams = [] ∧
    ((mourning true).part 1).live ≠ 1 ∧ (Table.getD (mourning true).cellars 1 {}).teams = [(0, { busy with unread := 2 })] ∧
    (let s := { mourning false with teams := [(0, busy), (sysKey 0, { sysTeam [] with wait := .miss 4 })] }
     (s.team? (sysKey 0)).map (fun t => (t.wait, t.ctx)) = some (.miss 4, 0) ∧ (Table.find? s.misses 4).map (fun m => m.ctx) = some 1 ∧
       Table.wf s.teams = true) := by decide +kernel

/-- A kill counts the unread poison of its teams, the stored ones too, and lets the control thread go on (R427, R394). -/
theorem test_kills : (∀ b ∈ [true, false], ((mourning b).kill 1 120 120 0 0).health.unread = 2) ∧
    (({ mourning false with teams := [(0, busy), (sysKey 0, { sysTeam [] with wait := .miss 4 })] } : State).kill 1 120 120 0 0).teams.map
      (fun e => (e.1, e.2.wait)) = [(sysKey 0, .ready)] := by decide +kernel

theorem test_contexts :
    (result (exec .ctxctlCreate (told (.place 2 2)))).map (fun s => ((s.ctx 2).alive, (s.ctx 2).part, (s.part 2).live)) = some (true, 2, 2) ∧
    (result (exec .ctxctlKill (told (.place 1 0)))).map (fun s => ((s.ctx 1).killed, s.teams.length, (s.part 1).stopped, s.owners)) =
      some (true, 8, true, []) ∧
    (result (exec .pgownWrite (told (.value 0 0 0x0002000000000020)))).map (fun s => (s.pgown, s.owner 0x20FFFF)) = some (0x20, 2) := by decide +kernel

/-- A pending miss of the team, and a full queue with an event that waits. -/
def missing (t : Team) (v : Word) : State :=
  { on t with
    detail := .value 0 0 v, tlb := []
    misses := [(4, { ctx := 1, page := 0, addr := 0x38, kinds := 1, source := 0, seq := some 6, waiters := [.team 0 9 false 0x38] })] }
def missed : Team := { busy with wait := .miss 4 }
def crammed : State := { on busy with detail := .value 0 0 5, evq := { head := 0, tail := 63, waiting := [{ kind := 3, cause := 120, ctx := 1, addr := 0, data := 0, source := 0 }] } }

theorem wit_SupervisorEvents :
    crammed.evq.full = true ∧ (on busy).evq.full = false ∧ (crammed.evq.tail + 1) % crammed.evq.size ≠ 5 ∧ Memory.wf (on busy).mem = true ∧
    (missing missed 6).team? 0 = some missed ∧ missed.wait = .miss 4 ∧ Table.wf (missing missed 6).teams = true ∧
    ((missing missed 6).ctx 1).key.isSome = true ∧ (missing missed 6).walk 1 (sig57 0x38) = .miss ∧ (0x100000006 : Word).getLsbD 32 = true ∧
    ({ missing missed 6 with ctxs := [(1, { probeContext with key := none })] } : State).ctx 1 = { probeContext with key := none } ∧
    (∀ e ∈ (missing missed 6).misses, e.2.seq = some 6) := by decide +kernel

/-- An engine operation that waits for the miss, which the supervisor serves or fails. -/
def unservedOp (v : Word) : State :=
  { on busy with
    detail := .value 0 0 v, ops := [(7, { job 0 (.settled none) with miss := some 4 })]
    misses := [(4, { ctx := 1, page := 0, addr := 0x38, kinds := 1, source := 0, seq := some 6, waiters := [.op 7 0x10038] })] }

theorem wit_SupervisorEvents_op : ∀ n ∈ [6, 0x100000006], let v := BitVec.ofNat 64 n
    Table.find? (unservedOp v).ops 7 = some { job 0 (.settled none) with miss := some 4 } ∧
    (v.getLsbD 32 = true ∨ ({ unservedOp v with ctxs := [(1, { probeContext with key := none })] } : State).walk 1 (sig57 0x38) = .miss ∧
      (({ unservedOp v with ctxs := [(1, { probeContext with key := none })] } : State).ctx 1).key = none) ∧
    ∀ e ∈ (unservedOp v).misses, e.2.seq = some (v.toNat % 2 ^ 32) := by decide +kernel

/-- A fetch that the supervisor cannot serve, which is then lost. -/
theorem wit_SupervisorEvents_fetch : (0x100000006 : Word).toNat % 2 ^ 32 = 6 ∧ (0x100000006 : Word).getLsbD 32 = true ∧
    ∀ e ∈ (missing missed 0x100000006).misses, e.2.seq = some 6 := by decide +kernel

theorem wit_SupervisorEvents_alone : ∀ j u, (missing missed 6).team? j = some u → u.uid = 9 → j = 0 := uid_unique (by decide)

theorem test_events :
    (result (exec .evqheadWrite crammed)).map (fun s => (s.evq.head, s.evq.tail, s.evq.waiting.length)) = some (5, 0, 0) ∧
    (result (exec .fqdoneWrite (missing missed 0x100000006))).map (fun s => (s.misses.length, (s.team? 0).map fun t => (t.wait, t.raised))) =
      some (0, some (.ready, some (16, 0x38))) := by decide +kernel

/-- A fetch that the supervisor cannot serve is lost, and its word raises cause 11; an operation fails at its page. -/
def fetchMiss : State :=
  { missing missed 0x100000006 with
    misses := [(4, { ctx := 1, page := 0, addr := 0x38, kinds := 4, source := 0, seq := some 6, waiters := [.team 0 9 true 0x38] })] }

theorem test_unserved :
    (result (exec .fqdoneWrite fetchMiss)).map (fun s => (s.team? 0).map fun t => (t.raised, t.lost, t.wait)) =
      some (some (none, some 0x38, .ready)) ∧
    (result (exec .fqdoneWrite (unservedOp 0x100000006))).map (fun s => (s.misses.length, s.ops.map fun e => (e.2.miss, e.2.unserved))) =
      some (0, [(none, some 1)]) := by decide +kernel

/-- Partition 1 as given, and a system thread that names it. -/
def halting (p : Partition) (ph : Nat) : State :=
  { onSystem [] with
    parts := [(1, p)], detail := .place 1 0
    teams := Table.put (onSystem []).teams (sysKey 0) { sysTeam [(8, 1)] with phase := ph } }

/-- A partition that has drained, with a write on its way and a dirty line of a spill area; one whose cellar holds a team. -/
def halfway (ph : Nat) : State :=
  { halting { live := 1, phase := ph } 0 with
    flights := [(3, { core := 0, ctx := 1, pa := 0x4004, mask := 2, data := 0x0700, desc := none })]
    cores := [(2, { reserved := [{ line0 with pa := 0x4005, dirty := 2 }] })] }
def stored (ph : Nat) : State :=
  { halting { live := 1, phase := ph, cellar := 2 } 0 with cellars := [(1, { teams := [(65, { busy with ctx := 2, uid := 30 })] })] }

theorem wit_Partitions :
    (∀ p ∈ [({ live := 1 } : Partition), { live := 1, stopped := true }, { live := 1, phase := 2 }], ∀ ph ∈ [0, 1],
      ∀ i ∈ [Instr.haltIdle, .haltStop ⟨false, 0, 8, 0, 1⟩, .haltSwap ⟨false, 0, 8, 0, 2⟩, .haltGo ⟨false, 0, 8, 0, 3⟩, .haltStop ⟨false, 0, 9, 0, 1⟩],
        (halting p ph).actor = sysKey 0 ∧ ((halting p ph).team? (sysKey 0)).map (fun t => formCause t i) = some none) ∧
    (halting { live := 1 } 0).coresOf 1 = [0, 1, 2, 3] ∧ (∀ c ∈ (halting { live := 1 } 0).coresOf 1, ((halting { live := 1 } 0).core c).power = .running) ∧
    (halting { live := 1, phase := 1 } 0).drained 1 = true ∧
    ({ halting { live := 1, phase := 1 } 0 with ops := [(3, job 4 (.remote []))] } : State).drained 1 = false ∧
    Table.wf (halting { live := 1, phase := 3 } 0).teams = true ∧ Table.getD (halting { live := 1, phase := 3 } 0).cellars 1 {} = {} ∧
    Table.wf (halting { live := 1 } 0).flights = true ∧ Table.wf (halfway 1).flights = true ∧ (halfway 1).drained 1 = true ∧
    (∀ e ∈ (halfway 1).flights, e.2.into = none) ∧ (halfway 1).flights ≠ [] ∧ ((halfway 1).core 2).reserved ≠ [] ∧
    Table.wf (stored 3).teams = true ∧ (∀ e ∈ (Table.getD (stored 3).cellars 1 {}).teams, isCoreKey e.1 = true ∧ e.1 / 64 ∈ (stored 3).coresOf 1) ∧
    Table.wf (Table.getD (stored 3).cellars 1 {}).teams = true ∧
    (halting { live := 1 } 0).coresOf 0 = [] ∧ (∀ i ∈ [Instr.haltStop ⟨false, 0, 9, 0, 1⟩, .haltSwap ⟨false, 0, 9, 0, 2⟩,
      .haltGo ⟨false, 0, 9, 0, 3⟩], ((halting { live := 1 } 0).team? (sysKey 0)).map (fun t => (formCause t i, t.s 9)) = some (none, 0)) ∧
    ((halting { live := 1 } 0).drained 1 = true ∧ ({ halting { live := 1, phase := 1 } 0 with
      teams := Table.put (on busy).teams 0 { busy with inPacket := true } } : State).drained 1 = false) := by decide +kernel

/-- A prologue thread beside a system thread that idles; a team that stalls in BCLOSE inside its packet; a team with a run. -/
def idling : State :=
  { halting { live := 1 } 0 with
    teams := Table.put (Table.put (onSystem []).teams (sysKey 0) { sysTeam [] with wait := .doorbell }) (proKey 0) thread3 }
def closingTeam : Team := { busy with inPacket := true, wait := .close 0 1 }
def leaving : State :=
  { halting { live := 1, phase := 3 } 0 with clock := 40, cores := [(0, { runTeam := some 0, runCount := 3 })] }

theorem wit_Partitions_runs : isCoreKey (proKey 0) = false ∧ thread3.role = .prologue ∧
    (idling.team? (sysKey (dieOf (proKey 0)))).map (fun u => u.wait) = some .doorbell ∧
    (on closingTeam).team? 0 = some closingTeam ∧ closingTeam.inPacket = true ∧ closingTeam.wait = .close 0 1 ∧
    (leaving.core 0).runOf false = some 0 ∧ (leaving.team? 0).isSome = true := by decide +kernel

/-- The prologue thread stops with the system thread's HALT.idle; a team whose run the exchange ends takes the stamp of its end. -/
theorem test_runs : idling.mayRun (proKey 0) thread3 = false ∧ (on closingTeam).drained 1 = false ∧
    (result (exec .swapExchangeComplete leaving)).map (fun s => (Table.getD s.cellars 1 {}).teams.map fun e => e.2.stamp) = some [40] := by
  decide +kernel

/-- HALT.stop begins a halt; the drained partition stops and wakes the thread; an exchange takes the team to the cellar (R380, R391). -/
theorem test_partitions :
    (result (exec (.haltStop ⟨false, 0, 8, 0, 1⟩) (halting { live := 1 } 0))).map (fun s => ((s.part 1).phase, (s.team? (sysKey 0)).map fun t => t.wait)) =
      some (1, some (.halt 1)) ∧
    (result (exec .partitionDrainComplete (halting { live := 1, phase := 1 } 0))).map (fun s => ((s.part 1).phase, (s.part 1).stopped)) = some (0, true) ∧
    (result (exec .swapExchangeComplete (halting { live := 1, phase := 3 } 0))).map
      (fun s => ((s.part 1).cellar, (s.team? 0).isSome, (Table.getD s.cellars 1 {}).teams.map fun e => e.1)) = some (1, false, [0]) ∧
    (result (exec .partitionDrainComplete (halfway 1))).map (fun s => (s.bytes 0x100101 1, s.bytes 0x100141 1, s.flights.length)) =
      some ([7], [1], 0) ∧
    (result (exec .swapExchangeComplete (stored 3))).map (fun s => ((s.part 1).live, (s.team? 65).map fun t => t.uid)) = some (2, some 30) := by
  decide +kernel

/-! ### Launches, tasks -/

/-- Memory that holds doublewords from an address on. -/
def cells (a : Nat) (ws : List Word) : Memory :=
  ((List.range (8 * ws.length)).map fun i => (a + i, (toBytes 8 (ws.getD (i / 8) 0).toNat).getD (i % 8) 0)).filter fun c => c.2 != 0

/-- A card: 2 records of 32 bytes at 0x1000, 32 lanes, 32 registers, 8 predicates, one team, 1,024 bytes of scratchpad, a handler at
0x400; prologue and completion record as given. -/
def card (pro done : Word) : List Word := [1, 0, 0x1000, 0x20020, 0x810020, 1024, 0x400, pro, 0, 0, 0, 0, 0, 0, 0, done]
def launched (st : LaunchState) (ws : List Word) : Launch :=
  { ctx := 1, queue := 0, seq := 1, term := 1, card := 0, state := st, order := 0, dws := ws, argbase := 0x1000, reccount := 2 }

/-- The package with a card at virtual address 0, a record at 0x1000 and an entry at 0x2000; die 0 holds the lease. -/
def leased (sr : Table Word) (ls : Table Launch) : State :=
  { onSystem sr with
    lease := { holder := 0, held := true, expiry := 1000, term := 1 }, launches := ls
    ctxs := [(1, { probeContext with queues := [(0, { base := 0x2000, enable := true, tail := 1 })] })]
    mem := cells 0x100000 (card 0 0) ++ cells 0x101000 [11, 12, 13, 14] ++ cells 0x102000 [0x100000001, 0] }

theorem wit_Queues_lease :
    (let s := leased [] []
     s.lease.held = true ∧ 2 * s.clock < s.lease.expiry ∧ s.lease.holder = 0 ∧ s.update.state ≠ 5 ∧ s.update.state ≠ 2) ∧
    (let s : State := { leased [] [(3, launched .taken [])] with lease := { holder := 0, held := true, expiry := 10, term := 1 }, clock := 5 }
     ¬(2 * s.clock < s.lease.expiry) ∧ (launched .taken []).state = .taken ∧ (launched .taken []).term ≠ (s.lease.term + 1) % 2 ^ 32 ∧
       s.launches = [(3, launched .taken [])]) := by decide +kernel

/-- Queues that are shut, full, and open for posts. -/
def posting (q : Queue) (t : Team) (k : Nat) : State :=
  { on t with
    actor := k, teams := Table.put (Table.put (on t).teams 0 busy) k t, syssel := [1, 0, 0, 0]
    ctxs := [(1, { probeContext with queues := [(0, q)] })] }
def open_ : Queue := { base := 0x2000, enable := true }

theorem wit_Queues_posts :
    (∀ q ∈ [open_, { open_ with enable := false }, { open_ with devpost := true }, { open_ with tail := 15, halted := true }],
      Ready (posting q (sysTeam [(8, 0x40)]) 16384) 16384 (sysTeam [(8, 0x40)]) (.qpost ⟨false, 4, 8, 0, 0⟩) ∧
      Ready (posting q (crew [0x40]) 0) 0 (crew [0x40]) (.qpost ⟨false, 4, 8, 0, 0⟩) ∧
      Ready (posting q (crew [0x44]) 0) 0 (crew [0x44]) (.qpost ⟨false, 4, 8, 0, 0⟩)) ∧
    (posting open_ (sysTeam [(8, 0x40)]) 16384).ctxFor 16384 (sysTeam [(8, 0x40)]) = 1 ∧
    (posting open_ (sysTeam [(8, 0x40)]) 16384).queue 1 0 = open_ ∧
    ((posting open_ (sysTeam [(8, 0x40)]) 16384).deviceAddr 1 (open_.base + BitVec.ofNat 64 (32 * open_.tail)) true [0]).toOption = some 0x102000 ∧
    (posting { open_ with devpost := true } (crew [0x44]) 0).ctxFor 0 (crew [0x44]) = 1 := by unfold Ready; decide +kernel

/-- A queue whose entry lies on a page of another owner. -/
def unpostable : State := { posting open_ (sysTeam [(8, 0x40)]) 16384 with owners := [] }

theorem wit_Queues_unpostable : (unpostable.queue 1 0) = open_ ∧
    Ready unpostable 16384 (sysTeam [(8, 0x40)]) (.qpost ⟨false, 4, 8, 0, 0⟩) ∧
    (match unpostable.deviceAddr 1 (open_.base + BitVec.ofNat 64 (32 * open_.tail)) true [0] with | .error c => c | .ok _ => 0) = 17 := by
  unfold Ready; decide +kernel

/-- QPOST of a system thread raises what the translation of the entry finds, in a SUPFAULT event (R369, R371). -/
theorem test_unpostable : (result (exec (.qpost ⟨false, 4, 8, 0, 0⟩) unpostable)).map
    (fun s => (s.evq.tail, s.bytes 0 2, (s.queue 1 0).tail)) = some (1, [8, 17], 0) := by decide +kernel

/-- Entries of each kind, good and bad. -/
def entered (ws : List Word) : State := { leased [] [] with mem := cells 0x102000 ws }

theorem wit_Queues_entries :
    (∀ x ∈ [entered [0x100000001, 0x40, 0, 0], entered [0x100000003, 0, 0, 0], entered [0x100000002, 0x40, 3, 0], entered [0x200000001, 0, 0, 0]],
      (x.deviceRead 1 [0] 4 0x2000).toOption.isSome = true) ∧
    ((leased [] []).queue 1 0).next = some (0x2000, { (leased [] []).queue 1 0 with head := 1 }) := by decide +kernel

/-- A queue whose buffers are four deep, and an entry that cannot be read. -/
def nested : Queue := { (leased [] []).queue 1 0 with nest := [(0x40, 1), (0x80, 2), (0xC0, 1), (0x100, 3)] }
def unowned : State := { entered [0x100000001, 0x40, 0, 0] with owners := [], tlb := [] }

theorem wit_Queues_deep : 4 ≤ (nested.nest.dropWhile fun f => f.2 == 0).length ∧ nested.next.isSome = true ∧
    (unowned.queue 1 0).next.isSome = true ∧ (unowned.deviceRead 1 [0] 4 0x2000).toOption = none := by decide +kernel

theorem test_deep_queue :
    (match (entered [0x100000002, 0x40, 3, 0]).scan 1 3 { nested with nest := [(0x2000, 1), (0x80, 2), (0xC0, 1), (0x100, 3)] } with
      | .failed _ c n a => (c, n, a) | _ => (0, 0, 0)) = (96, 1, 0x2000) ∧
    (match (entered [0x100000003, 0, 1, 0]).scan 1 3 ((entered []).queue 1 0) with | .failed _ c n a => (c, n, a) | _ => (0, 0, 0)) =
      (97, 1, 0x2000) ∧
    (match unowned.scan 1 3 (unowned.queue 1 0) with | .failed _ c n a => (c, n, a) | _ => (0, 0, 0)) = (16, 1, 0x2000) := by
  decide +kernel

theorem test_queues :
    (result (exec .leaseAcquire { leased [] [] with clock := 500, detail := .place 2 0 })).map (fun s => (s.lease.holder, s.lease.term, s.lease.expiry)) =
      some (2, 2, 2401000) ∧
    (result (exec (.qpost ⟨false, 4, 8, 0, 0⟩) (posting open_ (sysTeam [(8, 0x40)]) 16384))).map
      (fun s => (s.mem, (s.queue 1 0).tail, (s.team? 16384).map fun t => t.s 4)) =
      some ([(0x102000, 1#8), (0x102004, 1#8), (0x102008, 0x40#8)], 1, some 1) ∧
    (after (.qpost ⟨false, 4, 8, 0, 0⟩) (posting open_ (crew [0x40]) 0) 0).map (fun t => t.trap.cause) = some 2 := by decide +kernel

theorem wit_Launches_taking :
    Ready (leased [] []) 16384 (sysTeam []) (.qtake ⟨false, 4, 0, 0, 0⟩) ∧ (leased [] []).holds 0 = true ∧ (leased [] []).considered = [(1, 0)] ∧
    (leased [] []).cardDeps 1 0 = [] ∧ ({ leased [] [] with lease := {} } : State).holds 0 = false ∧
    Ready (leased [(8, 0x100010040)] [(3, launched .taken [])]) 16384 (sysTeam [(8, 0x100010040)]) (.launch ⟨false, 4, 8, 0, 0⟩) ∧
    (launched .taken []).ticket = 0x100010040 ∧ Ready (leased [(8, 5)] []) 16384 (sysTeam [(8, 5)]) (.launch ⟨false, 4, 8, 0, 0⟩) ∧
    ((leased [] []).deviceRead 1 [0] 16 0).toOption = some (card 0 0) ∧ Card.ok (card 0 0) 0x1000 = true ∧ Card.ok (card 0 0) 0x1004 = false ∧
    depsOf (card 0 0) = [] ∧ (leased [] []).coresOf ((leased [] []).ctx 1).part = [0, 1, 2, 3] ∧
    Needs.fit {} (Card.needs (card 0 0)) 256 = true ∧ Needs.fit {} { (Card.needs (card 0 0)) with teams := 65 } 256 = false := by
  unfold Ready; decide +kernel

/-- The scan of that queue finds its LAUNCH entry. -/
theorem wit_Launches_scan : (leased [] []).scan 1 scanBound ((leased [] []).queue 1 0) =
    .launch ((leased [] []).queue 1 0) { (leased [] []).queue 1 0 with head := 1, seq := 2 } 0 1 := by decide +kernel

/-- A card on a page that the context does not own, and an entry of no kind. -/
def cardless : State := { leased [(8, 0x100010040)] [(3, launched .taken [])] with owners := [] }
def badEntry : State :=
  { leased [] [] with mem := cells 0x102000 [0x100000004, 0, 0, 0] }

theorem wit_Launches_failing :
    (match cardless.deviceRead 1 [0] 16 0 with | .error (c, _) => c | .ok _ => 0) = 17 ∧
    (launched .taken []).cause = 0 ∧ (launched .taken []).miss = none ∧ (launched .taken []).pro = none ∧
    (match badEntry.scan 1 scanBound (badEntry.queue 1 0) with | .failed _ c n a => (c, n, a) | _ => (0, 0, 0)) = (97, 1, 0x2000) ∧
    badEntry.considered = [(1, 0)] ∧ Ready badEntry 16384 (sysTeam []) (.qtake ⟨false, 4, 0, 0, 0⟩) ∧
    Ready cardless 16384 (sysTeam [(8, 0x100010040)]) (.launch ⟨false, 4, 8, 0, 0⟩) := by unfold Ready; decide +kernel

/-- A launch whose card cannot be read drains with the cause; an entry of no kind halts its queue with an event (R400, R401). -/
theorem test_failing_launches :
    (result (exec (.launch ⟨false, 4, 8, 0, 0⟩) cardless)).map (fun s => s.launches.map fun e => (e.2.state, e.2.cause)) =
      some [(.draining, 17)] ∧
    (result (exec (.qtake ⟨false, 4, 0, 0, 0⟩) badEntry)).map (fun s => ((s.queue 1 0).halted, s.bytes 0 2, (s.team? 16384).map fun t => t.s 4)) =
      some (true, [7, 97], some 0) := by decide +kernel

/-- A prologue of launch 3 that runs, and a package whose prologue thread is idle. -/
def prologued (sr : Table Word) (l : Launch) : State :=
  { leased [] [(3, l)] with
    actor := proKey 0, detail := .place 0 0
    teams := Table.put (leased [] []).teams (proKey 0) { thread3 with sr := sr } }

theorem wit_Launches_prologues :
    (∀ sr ∈ ([[], [(8, 0x1000), (9, 1)], [(8, 0x1004)]] : List (Table Word)),
      ∀ i ∈ [Instr.lcancel ⟨false, 0, 0, 0, 0⟩, .lcancelAgain ⟨false, 0, 9, 0, 1⟩, .launchPro ⟨false, 8, 9, 0, 1⟩],
        Ready (prologued sr (launched .prologue (card 0x600 0))) (proKey 0) { thread3 with sr := sr } i) ∧
    Table.find? (prologued [] (launched .prologue [])).launches 3 = some (launched .prologue []) ∧ (launched .prologue []).ended = false ∧
    (leased [] [(3, launched .prologue (card 0x600 0))]).firstWaiting = some (3, launched .prologue (card 0x600 0)) ∧
    ((leased [] []).team? (proKey 0)).map (fun t => (t.role, t.wait)) = some (.prologue, .idle) ∧ thread3.wait = .ready ∧
    ({ launched .prologue [] with again := some 7 } : Launch).again = some 7 := by unfold Ready; decide +kernel

/-- QTAKE gives ticket and card 0; LAUNCH reads it and deals; a prologue starts with the card, the ticket and its runs (R400, R401, R405). -/
theorem test_launches :
    (after (.qtake ⟨false, 4, 0, 0, 0⟩) (leased [] []) 16384).map (fun t => (t.s 4, t.s 5)) = some (0x100010040, 0) ∧
    (result (exec (.launch ⟨false, 4, 8, 0, 0⟩) (leased [(8, 0x100010040)] [(3, launched .taken [])]))).map
      (fun s => (s.launches.map fun e => (e.2.state, e.2.reccount, e.2.cause), (s.team? 16384).map fun t => t.s 4)) =
      some ([(.dealing, 2, 0)], some 1) ∧
    (result (exec .prologueStart { leased [] [(3, launched .prologue (card 0x600 0))] with detail := .place 0 0 })).map
      (fun s => (s.team? (proKey 0)).map fun t => (t.pc, t.s 2, t.launch)) = some (some (0x600, 0x100010040, 3)) ∧
    (result (exec (.lcancel ⟨false, 0, 0, 0, 0⟩) (prologued [] (launched .prologue [])))).map
      (fun s => (s.launches.map fun e => (e.2.state, e.2.cancel), (s.team? (proKey 0)).map fun t => t.wait)) = some ([(.draining, true)], some .idle) := by
  decide +kernel

/-- Core 1 takes a chunk of a launch that deals; core 1 places a record; a launch that is over. -/
def dealing (x : Core) (l : Launch) : State := { leased [] [(3, l)] with detail := .place 1 0, cores := [(1, x)] }
def chunked : State := dealing { chunk := some (3, 0, 2) } (launched .draining (card 0 0))
def closing (l : Launch) : State := { leased [] [(3, l)] with detail := .place 3 0, teams := [] }

theorem wit_DealingAndEnds :
    (dealing {} (launched .dealing (card 0 0))).partOf 1 = 1 ∧ (dealing {} (launched .dealing (card 0 0))).partRuns 1 = true ∧
    (dealing {} (launched .dealing (card 0 0))).dealer 1 = some (3, launched .dealing (card 0 0)) ∧
    (dealing {} (launched .dealing (card 0 0))).room 1 (card 0 0) = true ∧ (dealing { power := .gated } (launched .dealing (card 0 0))).room 1 (card 0 0) = true ∧
    (dealing {} (launched .dealing (card 0 0))).room 1 ((card 0 0).set 4 0xFFF00810020) = false ∧ (dealing {} (launched .draining [])).dealer 1 = none ∧
    chunked.room 1 (card 0 0) = true ∧ chunked.sweep.places 1 (Card.needs (card 0 0)).teams true = some [0] ∧ Card.group (card 0 0) = false ∧
    (chunked.sweep.deviceRead 1 [0, 1, 4] 4 0x1000).toOption = some [11, 12, 13, 14] ∧ Card.recsize (card 0 0) / 8 = 4 ∧
    (closing (launched .draining (card 0 0))).launchOver 3 (launched .draining (card 0 0)) = true ∧
    (leased [] [(3, launched .dealing [])]).launchOver 3 (launched .dealing []) = false ∧ (card 0 0x3000).getD 15 0 ≠ 0 ∧
    (closing { launched .draining (card 0 0) with cause := 98 }).launchOver 3 { launched .draining (card 0 0) with cause := 98 } = true ∧
    ((closing (launched .draining (card 0 0x3000))).deviceAddr 1 0x3000 true [0, 4]).toOption = some 0x103000 ∧
    Memory.wf (closing (launched .draining (card 0 0))).mem = true := by decide +kernel

/-- Two records of two go in one chunk; the block's team holds its record in s4 to s7; the record of a launch that ended (R401, R403, R404). -/
theorem wit_Dealing_reads : 3 ∉ ([] : List Nat) ∧ (launched .draining (card 0 0)).waiting = [] ∧
    (match (closing (launched .draining (card 0 0x30000))).deviceAddr 1 0x30000 true [0, 4] with | .error c => c | .ok _ => 0) = 16 ∧
    (match ({ closing (launched .draining (card 0 0x3000)) with owners := [] } : State).deviceAddr 1 0x3000 true [0, 4] with
      | .error c => c | .ok _ => 0) = 17 := by decide +kernel

/-- The chunk of a launch that has failed is dropped: none of its records is placed (R404). -/
theorem test_dropped_chunk : (result (exec .blockPlacement
      (dealing { chunk := some (3, 0, 2) } { launched .draining (card 0 0) with cause := 17 }))).map
    (fun s => ((s.core 1).chunk, (s.team? 64).isSome)) = some (none, false) := by decide +kernel

/-- A completion record on a page of another owner leaves the record out and halts the queue; the launch still ends done (R401). -/
theorem test_lost_record :
    (result (exec .launchEnd { closing { launched .draining (card 0 0x3000) with next := 2 } with owners := [] })).map
      (fun s => (s.launches.map fun e => e.2.state, (s.queue 1 0).halted)) = some ([.done], true) := by decide +kernel

theorem test_dealing :
    (result (exec .chunkRequest (dealing {} (launched .dealing (card 0 0))))).map
      (fun s => ((s.core 1).chunk, s.launches.map fun e => (e.2.next, e.2.state))) = some (some (3, 0, 1), [(1, .dealing)]) ∧
    (result (exec .blockPlacement chunked)).map
      (fun s => ((s.core 1).chunk, (s.team? 64).map fun t => [t.pc, t.s 1, t.s 2, t.s 4, t.trap.entry])) =
      some (some (3, 1, 1), some [0, 0x1000, 0, 11, 0x400]) ∧
    (result (exec .launchEnd (closing { launched .draining (card 0 0x3000) with next := 2 }))).map
      (fun s => (s.launches.map fun e => e.2.state, s.dword 0x103000, s.dword 0x103008)) = some ([.done], 0x100000001, 2) := by decide +kernel

/-- Task queues: empty, with two records here, with a record on core 2, and full. -/
def tasked (a b : List (List Word)) : State := { on (crew [1, 2, 3, 4]) with cores := [(0, { tasks := a }), (2, { tasks := b })] }

/-- A full queue beside a ring of 4 records at 0x108000 that holds one; records on cores of another quad. -/
def ringed (n : Nat) : State :=
  { tasked (List.replicate 256 [0, 0, 0, 0]) [] with
    ctxs := [(1, { probeContext with spill := [(0, { base := 0x108000, size := 4, count := n })] })], mem := cells 0x108000 [21, 22, 23, 24] }
def spread : State :=
  { on (crew [1, 2, 3, 4]) with
    cores := [(4, { tasks := [[8, 8, 8, 8]] }), (5, { tasks := [[31, 0, 0, 0], [32, 0, 0, 0]] })]
    quads := [(0, { part := 1 }), (1, { part := 1 })] }

theorem wit_Queues_tasks :
    (∀ s ∈ [tasked [] [], tasked [[1, 2, 3, 4], [5, 6, 7, 8]] [], tasked [] [[9, 9, 9, 9]], tasked (List.replicate 256 [0, 0, 0, 0]) []],
      ∀ i ∈ [Instr.tspawn ⟨false, 8, 0, 0, 0⟩, .tspawn ⟨false, 8, 0, 0, 1⟩, .tsteal ⟨false, 12, 16, 0, 0⟩], Ready s 0 (crew [1, 2, 3, 4]) i) ∧
    ((tasked [] []).release 0 (crew [1, 2, 3, 4]) 3).2 = none ∧ ((tasked [] []).ringOf 1 0).size = 0 ∧ (tasked [] []).coresOf 1 = [0, 1, 2, 3] ∧
    ({ tasked [] [] with ctxs := [(1, { probeContext with spill := [(0, { size := 4 })] })] } : State).ringOf 1 0 = { size := 4 } ∧
    (ringed 1).core 0 = { tasks := List.replicate 256 [0, 0, 0, 0] } ∧ ((ringed 1).ringOf 1 0).count < ((ringed 1).ringOf 1 0).size ∧
    (∀ i ∈ [Instr.tspawn ⟨false, 8, 0, 0, 1⟩, .tsteal ⟨false, 12, 16, 0, 0⟩], Ready (ringed 1) 0 (crew [1, 2, 3, 4]) i) ∧
    Memory.wf (ringed 1).mem = true ∧ ((ringed 1).release 0 (crew [1, 2, 3, 4]) 3).2 = none ∧
    (∀ d ∈ (tasked [] [[9, 9, 9, 9]]).coresOf 1, d / 4 = 0 ∧ (d ≠ 2 → ((tasked [] [[9, 9, 9, 9]]).core d).tasks.length < 1)) ∧
    (∀ d ∈ spread.coresOf 1, d / 4 = 0 → (spread.core d).tasks = []) ∧ 5 ∈ spread.coresOf 1 ∧
    (∀ d ∈ spread.coresOf 1, d / 64 = 0 → d ≠ 5 → (spread.core d).tasks.length < (spread.core 5).tasks.length) ∧
    Ready spread 0 (crew [1, 2, 3, 4]) (.tsteal ⟨false, 12, 16, 0, 0⟩) := by
  unfold Ready; decide +kernel

/-- The full queue spills to the ring of the die, at its tail; an idle core takes the ring's oldest record, or that of a core of
another quad (R406, R410). -/
theorem test_ring :
    (result (exec (.tspawn ⟨false, 8, 0, 0, 1⟩) (ringed 1))).map (fun s => ((s.ringOf 1 0).count, s.dword 0x108020, s.dword 0x108038)) =
      some (2, 1, 4) ∧
    (after (.tsteal ⟨false, 12, 16, 0, 0⟩) { ringed 1 with cores := [] } 0).map (fun t => (t.s 12, t.s 15, t.s 16)) = some (21, 24, 1) ∧
    (after (.tsteal ⟨false, 12, 16, 0, 0⟩) spread 0).map (fun t => (t.s 12, t.s 16)) = some (31, 1) := by decide +kernel

theorem test_tasks :
    (result (exec (.tspawn ⟨false, 8, 0, 0, 0⟩) (tasked [] []))).map (fun s => (s.core 0).tasks) = some [[1, 2, 3, 4]] ∧
    (after (.tsteal ⟨false, 12, 16, 0, 0⟩) (tasked [[1, 2, 3, 4], [5, 6, 7, 8]] []) 0).map (fun t => (t.s 12, t.s 15, t.s 16)) = some (5, 8, 1) ∧
    (after (.tsteal ⟨false, 12, 16, 0, 0⟩) (tasked [] [[9, 8, 7, 6]]) 0).map (fun t => (t.s 12, t.s 16)) = some (9, 1) ∧
    (after (.tspawn ⟨false, 8, 0, 0, 0⟩) (tasked (List.replicate 256 [0, 0, 0, 0]) []) 0).map (fun t => t.trap.cause) = some 100 := by decide +kernel

/-! ### The device -/

/-- A package in a state of the live update, with a verified image in slot B whose entry is 0x40, and die 0 holding the lease. -/
def updating (st : Nat) (d : Detail) : State :=
  { leased [] [] with
    detail := d, update := { state := st, halted := [true, true, true, true] }
    imageB := { bytes := [(0, 7#8)], size := 8, verified := true, secver := 3, entry := 0x40, sup := 0x80 } }

/-- HBTO has passed since the new image's first fetch. -/
def late : State :=
  { updating 3 .nothing with clock := 60000000, update := { state := 3, since := some 0, halted := [true, true, true, true] } }

def goMailbox (s : State) : State := { s with mailbox := { cmd := 0x103 } }

theorem wit_LiveUpdate :
    (goMailbox (updating 0 (.bytes 0 0 [1]))).mailbox.cmd.getLsbD 8 = true ∧ (updating 0 (.bytes 0 0 [1])).mailbox.cmd.getLsbD 8 = false ∧
    (updating 0 .nothing).update.active < 2 ∧ Table.wf ((updating 1 .nothing).slot 1).bytes = true ∧ (updating 1 (.image ⟨true, 3, 0x40, 0x80⟩)).rollback ≤ 3 ∧
    (updating 1 .nothing).leased = true ∧ ((updating 1 .nothing).slot (1 - (updating 1 .nothing).update.active)).verified = true ∧
    (leased [] []).update.state ≠ 1 ∧ (updating 2 .nothing).threadsQuiet = true ∧ (∀ h ∈ (updating 2 .nothing).update.halted, h = true) ∧
    false ∈ (leased [] []).update.halted ∧ (((updating 2 .nothing).team? 16384).map fun t => t.role) = some .system ∧
    (late.update.state = 3 ∧ late.update.since = some 0 ∧ late.update.hbto.toNat ≤ 2 * late.clock - 0 ∧ late.threadsQuiet = true) ∧
    (updating 3 .nothing).update.since = none ∧ (sysTeam []).role = .system ∧ (updating 1 .nothing).update.fault = false ∧
    ({ updating 1 .nothing with update := { fault := true } } : State).update.fault = true := by decide +kernel

/-- UPDATE halts the other threads; HANDOVER starts the new image with reason 1; the heartbeat commits it (R417, R439). -/
theorem test_update :
    (result (exec .update (updating 1 .nothing))).map (fun s => (s.update.state, s.update.halted)) = some (2, [false, true, true, true]) ∧
    (result (exec .handover (updating 2 .nothing))).map (fun s => (s.update.state, (s.team? 16384).map fun t => (t.pc, t.s 2, t.level))) =
      some (3, some (0x40, 1, 2)) ∧
    (result (exec .hbeatWrite (updating 3 .nothing))).map (fun s => (s.update.state, s.update.active, s.rollback)) = some (0, 1, 3) ∧
    (result (exec .imageVerify (updating 1 (.image ⟨false, 3, 0, 0⟩)))).map (fun s => (s.mailbox.stat, s.update.state)) = some (3, 0) := by
  decide +kernel

/-- A heartbeat after HBTO commits nothing; the expiry goes back to the old image and frees the lease; IMGWRITE is refused while an
update runs (R413, R417). -/
theorem test_late_heartbeat :
    (result (exec .hbeatWrite late)).map (fun s => (s.update.state, s.rollback)) = some (3, 0) ∧
    (result (exec .hbtoExpiry late)).map (fun s => (s.update.state, s.update.active, s.lease.held, (s.team? 16384).map fun t => t.s 2)) =
      some (5, 0, false, some 2) ∧
    (result (exec .imgwrite (updating 2 (.bytes 0 0 [1])))).map (fun s => s.mailbox.stat) = some 1 := by decide +kernel

/-- A stopped partition; an image of its context, which owns no page, at the base of CXL memory. -/
def stopped (d : Detail) (x : Option Transfer) : State :=
  { onSystem [] with
    detail := d, transfer := x, parts := [(1, { live := 1, stopped := true })], ctxs := [(1, { probeContext with gid := 77 })]
    mem := cells 0x8000000000000 [0x4D00000001, 0, 0, 64, 0], owners := [] }
def backing : Transfer := { restore := true, ctx := 1, addr := 0x8000000000000, flags := 0, names := 0 }

theorem wit_HostAndCheckpoints :
    (let s : State := { on busy with detail := .host (.write 0x100000 [1, 2]) }
     hdmAddr 0x100000 = 0x100000 ∧ isDevice 0x100000 = true ∧ s.owner 0x100000 = 1 ∧ (s.ctx 1).alive = true ∧ (s.ctx 1).key.isSome = true ∧
       s.owner 0x200000 = 0 ∧ Memory.wf s.mem = true ∧ 0x100000 % 64 + [1#8, 2].length ≤ 64) ∧
    isCxl 0x8000000000000 = true ∧ isCxl (0x8000000000000 + [1#8].length - 1) = true ∧
    (stopped (.values 1 0x8000000000000 0 0) none).allStopped 1 = true ∧ (on busy).allStopped 1 = false ∧
    (∀ o ∈ (stopped .nothing none).owners, o.2 = 1 → (stopped .nothing none).badRun (65536 * o.1) 65536 = false) ∧
    Memory.wf (stopped .nothing none).mem = true ∧ ((stopped .nothing (some backing)).dword 0x8000000000000).toNat = 1 + 2 ^ 32 * 77 ∧
    ((stopped .nothing (some backing)).dword 0x8000000000010) = 0 ∧ ((stopped .nothing (some backing)).dword 0x8000000000008) = 0 ∧
    ((stopped .nothing (some { backing with ctx := 2 })).allStopped 2 = false) ∧ (goMailbox (stopped .nothing none)).mailbox.cmd.getLsbD 8 = true ∧
    backing.addr % 64 = 0 := by decide +kernel

/-- A checkpoint of a context without pages writes a header alone; its restore ends well; the host writes two bytes (R421, R423, R425). -/
theorem test_checkpoints :
    (result (exec .ckptComplete (stopped .nothing (some { backing with restore := false })))).map
      (fun s => (s.mailbox.stat, (List.range 4).map fun i => s.dword (0x8000000000000 + 8 * i))) = some (0, [0x4D00000001, 0, 0, 64]) ∧
    (result (exec .restoreComplete (stopped .nothing (some backing)))).map (fun s => (s.mailbox.stat, s.transfer.isSome)) = some (0, false) ∧
    (result (exec .hostMemAccess { on busy with detail := .host (.write 0x100000 [1, 2]) })).map (fun s => s.mem) =
      some [(0x100000, 1#8), (0x100001, 2#8)] := by decide +kernel

/-- An image of one page: the page 0x11 of memory, or the same as a page of the store whose arena stands at virtual 0x10000, its
table at 0x20000; every line of the store is empty. -/
def imaged (cas : Bool) : State :=
  { stopped .nothing (some backing) with
    ctxs := [(1, { probeContext with gid := 77, ptroot := 0x20000, csArena := 0x10000, csSize := 1 })], owners := [(0x11, 1)]
    mem := cells 0x20000 [0x20001, 0x11006F] ++ cells 0x8000000000000 [0x4D00000001, 1, 0, 64, 0, 0, 0, 0, 0x11, if cas then 1 else 0] }

theorem wit_Checkpoints_page :
    (imaged false).allStopped 1 = true ∧ ((imaged false).dword 0x8000000000000).toNat = 1 + 2 ^ 32 * ((imaged false).ctx 1).gid ∧
    (imaged false).dword 0x8000000000008 = 1 ∧ (imaged false).dword 0x8000000000010 = 0 ∧
    bitsOf ((imaged false).dword 0x8000000000040) 0 36 = 0x11 ∧ (imaged false).owner 0x110000 = 1 ∧
    bitsOf ((imaged false).dword 0x8000000000048) 0 3 = 0 ∧ bitsOf ((imaged true).dword 0x8000000000048) 0 3 = 1 ∧
    isCxl 0x110000 = false ∧ Memory.wf (imaged false).mem = true ∧ (imaged true).arenaPage 1 0x11 = some 0x10000 ∧
    (stopped .nothing (some backing)).arenaPage 1 0x11 = none ∧ (imaged false).nameList 0 = [] := by decide +kernel

/-- A recorded line whose name is not in the image's list stops the restore; the empty page gives nothing back. -/
theorem wit_Checkpoints_lines :
    (((imaged true).casLines 1 ((imaged true).ctx 1).pair 0x8000000000080 0x10000 [] [0, 1023] 0)).map List.length = some 0 ∧
    (({ imaged true with mem := (imaged true).mem ++ cells 0x8000000000080 [7] } : State).casLines 1 ((imaged true).ctx 1).pair
      0x8000000000080 0x10000 [] (0 :: (List.range 1024).tail) 0).isNone = true := by decide +kernel

/-- The host's reads and writes of the register block (R421): a state, a start that is not known, one while a command runs. -/
def hosted (i : HostAccess) : State := { leased [] [] with detail := .host i, mailbox := { args := [3, 4, 5, 6] } }

theorem wit_HostAccesses :
    (∀ i ∈ [HostAccess.read 0x100000 8, .write 0x100000 [1, 2], .readRegister 0x18, .writeRegister 0 0x107, .writeHostMemory 0x8000000000000 [1, 2]],
      (hosted i).detail = .host i) ∧ hdmAddr 0x3000000001 = 0x10000000001 ∧ (0x107 : Word).getLsbD 8 = true ∧
    (hosted (.read 0 1)).mailbox.cmd.getLsbD 8 = false ∧ (goMailbox (hosted (.read 0 1))).mailbox.cmd.getLsbD 8 = true ∧
    (hosted (.read 0 1)).update.fault = false ∧ isCxl 0x8000000000001 = true ∧
    (hosted (.read 0 1)).badRun 0x100000 8 = false ∧ ({ hosted (.read 0 1) with bad := [(0x4000, (true, false))] } : State).badRun 0x100000 8 = true := by
  decide +kernel

theorem test_host :
    (result (exec .hostMemAccess (hosted (.read 0x100000 8)))).map (fun s => s.hostReply) = some (.data [1, 0, 0, 0, 0, 0, 0, 0]) ∧
    (result (exec .hostMemAccess (hosted (.read 0x3000000000 8)))).map (fun s => s.hostReply) = some .failed ∧
    (result (exec .hostMemAccess (hosted (.readRegister 0x18)))).map (fun s => s.hostReply) = some (.data [4, 0, 0, 0, 0, 0, 0, 0]) ∧
    (result (exec .hostMemAccess (hosted (.writeRegister 0 0x107)))).map (fun s => (s.hostReply, s.mailbox.stat, s.mailbox.cmd)) =
      some (.done, 2, 7) ∧
    (result (exec .hostMemAccess (hosted (.writeRegister 0x20 9)))).map (fun s => s.mailbox.args) = some [3, 4, 9, 6] := by decide +kernel

/-- Core 9, in each state of its power. -/
def powered (x : Core) : State := { leased [] [] with detail := .place 9 0, cores := [(9, x)] }

theorem wit_PowerHealthResets :
    (∀ e ∈ (powered {}).teams, isCoreKey e.1 = true → e.1 / 64 ≠ 9) ∧ ((powered {}).part ((powered {}).partOf 9)).cellar = 0 ∧
    ((powered {}).core 9).tasks = [] ∧ ((powered {}).core 9).chunk = none ∧ ((powered { tasks := [[0]] }).core 9).tasks ≠ [] ∧
    ((powered { power := .gated, wakeHeld := true }).core 9).power = .gated ∧ (powered {}).mailbox.cmd.getLsbD 8 = false ∧
    (1200000000 ≤ 2 * (({ powered {} with clock := 600000000 } : State).clock - (powered {}).health.updatedAt)) ∧ isPopulated 0x100000 = true ∧
    isPopulated 0x4000000000000 = false ∧ (leased [] []).update.active = 0 ∧ (leased [] []).rollback ≤ (leased [] []).imageA.secver ∧
    ({ leased [] [] with imageA := {} } : State).imageB.verified = false ∧ (leased [] []).serial ≠ 0 := by decide +kernel

/-- Gating takes two steps; a cold reset with a bad slot A starts slot B; a warm reset kills the context and keeps its memory (R412, R422, R426). -/
theorem test_power :
    (result (exec .powerGateEntry (powered {}))).map (fun s => (s.core 9).power) = some .request ∧
    (result (exec .powerGateEntry (powered { power := .request }))).map (fun s => (s.core 9).power) = some .gated ∧
    (result (exec .coldReset (updating 0 (.boot ⟨false, 3, 0, 0⟩ ⟨true, 3, 0x40, 0x80⟩ true)))).map (fun s => (s.update.active, (s.team? 16384).map fun t => t.pc)) =
      some (1, some 0x40) ∧
    (result (exec .resetWarm (updating 0 .nothing))).map (fun s => ((s.ctx 1).alive, (s.ctx 1).killed, s.byte 0x100000)) = some (false, true, 1) ∧
    (result (exec .resetWarm { updating 0 (.numbers [0, 0, 0, 0, 1, 2, 3]) with health := { State.reset.health with tally := [7, 0, 0, 0] } })).map
      (fun s => ((s.health.group 1).take 3, (s.health.group 5).take 1)) = some ([1, 2, 3], [7]) ∧
    (result (exec .uncorrectableError { powered {} with detail := .place 0x100000 3 })).map (fun s => (s.badData 0x100020, s.badDesc 0x100040)) =
      some (true, false) := by decide +kernel

/-- A session, in its handshake or made, with a response that waits. -/
def inSession (made : Bool) (u : Unsigned) : State :=
  { leased [] [] with spdm := {
      version := true, caps := true, algs := true, session := 5, secret := [1], th1 := [2], finished := made, unsigned := [u] } }

theorem wit_Spdm :
    (∀ u ∈ [({ code := 0x03 } : Unsigned), { code := 0x60, op := 255, session := 5 }, { code := 0x64, session := 5 }, { code := 0x60, session := 6 }],
      (inSession true u).spdm.unsigned = [u] ∧ (inSession true u).leased = true) ∧
    (let x := (inSession true { code := 0x03 }).spdm
     x.version = true ∧ x.caps = true ∧ x.algs = true ∧ x.finished = true ∧ x.session = 5 ∧ x.th1 ≠ []) ∧
    (inSession false { code := 0x03 }).spdm.finished = false ∧ (inSession false { code := 0x03 }).openSealed 0xE5 6 [] = none ∧
    State.reset.spdm.version = false ∧ State.reset.spdm.algs = false ∧ State.reset.spdm.finished = false ∧ State.reset.leased = false ∧
    (∀ a ∈ [0x0101, 0x0201, 0x0301], (3, a) ∈ [(3, 0x0101), (3, 0x0201), (3, 0x0301), (1, 7)]) ∧
    ∃ a ∈ [0x0101, 0x0201, 0x0301], (3, a) ∉ [(3, 0x0101), (2, 0x0201)] := by
  refine ⟨by decide +kernel, by decide +kernel, rfl, rfl, rfl, rfl, rfl, by decide +kernel, by decide, ⟨0x0201, by decide, by decide⟩⟩

/-- A request of every code that a session can hold is opened. -/
theorem wit_Spdm_sealed (made : Bool) (code : Nat) : ∃ data s1 bs, (inSession made { code := 0x03 }).openSealed code 5 data = some (s1, bs) :=
  ⟨_, _, [0, 0], openSealed_seal (inSession made { code := 0x03 }) code [0, 0] (by simp [inSession]) (by simp [inSession]) (by decide)⟩

/-- A FINISH whose verify data is right, and one that has none. -/
theorem wit_Spdm_finish : ∀ good : Bool, ∃ data s1 bs, (inSession false { code := 0x03 }).openSealed 0xE5 5 data = some (s1, bs) ∧
    (bs.drop 2 = s1.spdm.verify true (shake256 (s1.spdm.transcript ++ ([0x13, 0xE5] ++ bs.take 2)) 32) ↔ good = true) := by
  intro good
  obtain ⟨proof, hp⟩ : ∃ p, p = (inSession false { code := 0x03 }).spdm.verify true
    (shake256 ((inSession false { code := 0x03 }).spdm.transcript ++ ([0x13, 0xE5] ++ [0, 0])) 32) := ⟨_, rfl⟩
  refine ⟨_, _, [0, 0] ++ (if good then proof else []), openSealed_seal _ 0xE5 _ (by simp [inSession]) (by simp [inSession]) (by simp), ?_⟩
  cases good
  · simp only [Bool.false_eq_true, if_false, iff_false]
    intro h
    have := congrArg List.length h
    simp [Spdm.verify, hmac_length] at this
  · simpa [Spdm.verify, Spdm.direction] using hp

/-- Out of order a request ends in an error; GET_VERSION begins; a block is signed with the rollback counter (R414, R416). -/
theorem test_spdm :
    (result (exec .getDigests State.reset)).map (fun s => s.spdm.sent) = some [(0x7F, [])] ∧
    (result (exec .getVersion State.reset)).map (fun s => (s.spdm.version, s.spdm.sent)) = some (true, [(0x04, [0x13])]) ∧
    (result (exec .spdmResponseSign { leased [] [] with rollback := 3, spdm := { algs := true, unsigned := [{ code := 0x60, op := 4 }] } })).map
      (fun s => (s.spdm.unsigned.length, s.spdm.sent.map fun e => (e.1, e.2.take 14, e.2.length))) =
        some (0, [(0x60, [0, 1, 39, 0, 0, 4, 1, 35, 0, 0x87, 32, 0, 3, 0], 3353)]) := by
  decide +kernel

/-- The vector of AES-256-GCM for a block of zeros under a key and a vector of zeros. -/
theorem test_gcm : (⟨List.replicate 32 0, List.replicate 12 0, []⟩ : Gcm).seal (List.replicate 16 0) =
    [0xCE, 0xA7, 0x40, 0x3D, 0x4D, 0x60, 0x6B, 0x6E, 0x07, 0x4E, 0xC5, 0xD3, 0xBA, 0xF3, 0x9D, 0x18,
     0xD0, 0xD1, 0xC8, 0xA7, 0x99, 0x99, 0x6B, 0xF0, 0x26, 0x5B, 0x98, 0xB5, 0xD4, 0x8A, 0xB9, 0x19] := by decide +kernel

/-! ### Steps -/

theorem wit_DecodeEncode : ∀ i ∈ [Instr.iadd ⟨true, 15, 31, 31, 31, 3⟩, .trap ⟨false, 0, 0, 31, 63⟩, .haltIdle], i.encoded = true ∧ i.wf = true := by
  decide +kernel

theorem wit_DecodedWords : (rawDecode 0x08003088 0).toOption = some (.iadd ⟨false, 0, 3, 1, 2, 0⟩) ∧ ((0x02000000 : Code).extractLsb' 25 6).toNat ≠ 0 ∧
    ((0x7E000000 : Code).extractLsb' 25 6).toNat = 0x3F := by decide +kernel

/-- The package with a word in the quad's cache, and a step of the team on the agenda. -/
def issuing (t : Team) (w : Code) : State :=
  { on t with
    agenda := [.issue 0], quads := [(0, { part := 1, icache := [(1, 0, (List.range 48).map fun i => if i == 0 then some w else some 0x04000000)] })] }

/-- What a fetch answered. -/
def Fetched.code : Fetched → Option Code
  | .word w => some w
  | _ => none

theorem wit_StepRunsDecoded :
    (issuing busy 0x08003088).agenda = .issue 0 :: [] ∧ busy.wait = .ready ∧ (issuing busy 0).mayRun 0 busy = true ∧ busy.raised = none ∧
    (Fetched.code ((issuing busy 0x08003088).fetch 0 busy 0)) = some 0x08003088 ∧ (issuing busy 0x08003088).chainOk 0 busy = true ∧
    (issuing busy 0x08003088).peek 0 busy 4 = some 0x04000000 ∧ busy.target = false ∧ (rawDecode 0x08003088 0x04000000).toOption = some (.iadd ⟨false, 0, 3, 1, 2, 0⟩) ∧
    (issuing busy 0x08003088).scoreboard busy (.iadd ⟨false, 0, 3, 1, 2, 0⟩) = false ∧
    ({ issuing busy 0x08003088 with pendings := [(3, { core := 0, team := 9, kind := 0, targets := [.slice 1 0 1 [] 0 0] })] } : State).scoreboard busy
      (.iadd ⟨false, 0, 3, 1, 2, 0⟩) = true ∧
    ((issuing busy 0).quad 0).held 1 0 = some 0 ∧ isPopulated (sig57 0) = true ∧ canonical 0 = true ∧ (issuing busy 0).due = none ∧
    (issuing busy 0x88003088).chainOk 0 busy = true ∧ State.reset.agenda = [] ∧ (on busy).agenda = [] ∧
    ((on busy).quads = [(0, { part := 1 })]) := by decide +kernel

theorem wit_StepRunsDecoded_turn :
    ({ State.reset.tick 1 with turn := 1 } : State).issuers.length = 4 ∧
    ({ ({ State.reset with teams := [(sysKey 0, sysTeam [])] } : State).tick 1 with turn := 1 } : State).issuers = [sysKey 0] ∧
    (awaiting 0).due = some (.memoryReply, .place 3 0) := by decide +kernel

/-- Why a word does not decode. -/
def refusedAs (x : Except DecodeError Instr) : Option DecodeError :=
  match x with
  | .error e => some e
  | .ok _ => none

theorem wit_StepRunsDecoded_refused :
    refusedAs (rawDecode 0x7E000000 0x04000000) = some .undef ∧ refusedAs (rawDecode 0x04600001 0x04000000) = some .badField ∧
    (issuing busy 0x04600001).chainOk 0 busy = true := by decide +kernel

/-- Two words of a packet, at 0 and 4, and a team at the second. -/
def packet (t : Team) (w x : Code) : State :=
  { on t with
    agenda := [.issue 0], quads := [(0, { part := 1, icache := [(1, 0, (List.range 48).map fun i => if i == 0 then some w else some x)] })] }

/-- The cause that a fetch raises. -/
def Fetched.faults : Fetched → Option Nat
  | .fault c _ => some c
  | _ => none

/-- A team whose line the quad does not hold, on a page that it may execute. -/
def unfetched : State := { on busy with tlb := [(0, [{ ctx := 1, base := 0, size := 65536, leaf := 0x100037 }])] }

theorem wit_StepRunsDecoded_stops :
    (let t : Team := { busy with raised := some (16, 0x38) }
     (on t).mayRun 0 t = true ∧ t.wait = .ready) ∧
    (let t : Team := { busy with pc := 4, target := true }
     Fetched.code ((packet t 0x88003088 0x08003088).fetch 0 t 4) = some 0x08003088 ∧ (packet t 0x88003088 0x08003088).targetOk 0 t = false ∧
       (packet t 0x08003088 0x08003088).targetOk 0 t = true) ∧
    (packet busy 0x90042080 0x10042080).chainOk 0 busy = false ∧
    ((packet busy 0x90042080 0x10042080).fetchChain 0 busy 2 0 0x90042080).isNone = true ∧
    isLiteralWord 0x11E30000 = false ∧ isLiteralWord 0x10E30000 = true ∧
    Fetched.code ((packet busy 0x10E30000 5).fetch 0 busy 4) = some 5 ∧ (unfetched.quad 0).held 1 0 = none ∧
    (unfetched.fetchPage 0 1 0).toOption.isSome = true ∧
    mayFetch (sysTeam []) 0x4000000000000 = false ∧ mayFetch (sysTeam []) 0 = true ∧
    (∀ x ∈ ((on busy).core 0).slices, x.place = none) := by decide +kernel

theorem test_stops :
    (result (step (issuing { busy with raised := some (16, 0x38) } 0x08003088))).bind (fun s => (s.team? 0).map fun t => (t.trap.cause, t.trap.addr)) =
      some (16, 0x38) ∧
    (result (step (packet { busy with pc := 4, target := true } 0x88003088 0x08003088))).bind (fun s => (s.team? 0).map fun t => t.trap.cause) =
      some 3 ∧
    (result (step (packet busy 0x90042080 0x10042080))).bind (fun s => (s.team? 0).map fun t => (t.trap.cause, t.trap.tpc)) = some (3, 0) ∧
    (result (step (packet busy 0x10E30000 5))).bind (fun s => (s.team? 0).map fun t => (t.s 3, t.pc)) = some (5, 8) ∧
    (result (step { unfetched with agenda := [.issue 0] })).bind (fun s => (s.team? 0).map fun t => (t.wait, (s.core 0).slips)) =
      some (.line 0, 1) := by decide +kernel

/-- The two threads of die 0's control core, both ready, of which the system thread issued last; and a team whose fetch was lost. -/
def paired : State :=
  let s := onSystem []
  { s with teams := Table.put s.teams (proKey 0) thread3, lastThread := s.lastThread.set 0 (sysKey 0), agenda := [.issue (sysKey 0)] }
def lostTeam : Team := { busy with pc := 4, lost := some 4 }

theorem wit_StepRunsDecoded_turns :
    otherThread (sysKey 0) = proKey 0 ∧ dieOf (sysKey 0) = 0 ∧ paired.team? (proKey 0) = some thread3 ∧ thread3.chained = false ∧
    paired.canIssue (proKey 0) thread3 = true ∧ paired.hasTurn (sysKey 0) (sysTeam []) = false ∧ paired.hasTurn (proKey 0) thread3 = true ∧
    (onSystem []).hasTurn (sysKey 0) (sysTeam []) = true ∧ (on lostTeam).mayRun 0 lostTeam = true ∧
    Fetched.faults ((on lostTeam).fetch 0 lostTeam 4) = some 11 ∧
    Fetched.faults ((on busy).fetch (sysKey 0) (sysTeam []) 0x4000000000000) = some 17 := by decide +kernel

/-- A thread that is not on turn lets a step pass; a lost fetch raises cause 11 at its own word (R33, R395). -/
theorem test_turns :
    (result (step paired)).map (fun s => (s.team? (sysKey 0)).map fun t => t.pc) = some (some 0) ∧
    (result (step { on lostTeam with agenda := [.issue 0] })).map (fun s => (s.team? 0).map fun t => (t.trap.cause, t.trap.tpc, t.pc)) =
      some (some (11, 4, 0x400)) := by decide +kernel

/-- JOIN with a field that is not zero raises cause 4 at a team, and cause 1 at a control core's thread, which
has no JOIN and reports it in a SUPFAULT event (R54, R386, R395). -/
theorem test_join_field :
    (result (step (issuing busy 0x04600001))).bind (fun s => (s.team? 0).map fun t => t.trap.cause) = some 4 ∧
    (result (State.issueWord State.reset (sysKey 0) (sysTeam []) 0x04600001)).map (fun s => s.byte 1) = some 1 := by decide +kernel

/-- A step runs the word of the cache: v3 is the sum of v1 and v2; an undefined word raises cause 1, a branch into a chain cause 3. -/
theorem test_step :
    (result (step (issuing busy 0x08003088))).bind (fun s => (s.team? 0).map fun t => (t.lane 3 0, t.pc)) = some (0x0000000000000008, 4) ∧
    (result (step (issuing busy 0x7E000000))).bind (fun s => (s.team? 0).map fun t => t.trap.cause) = some 1 ∧
    (result (step State.reset)).map (fun s => s.actor) = some (sysKey 0) := by decide +kernel

/-- The acting thread or team may not use the form, its fields are bad, it is a loader, or its predicate does not exist. -/
theorem wit_FormChecks :
    controlMay true (.iadd ⟨false, 0, 3, 1, 2, 0⟩) = false ∧ controlMay false .haltIdle = false ∧ thread3.role = .prologue ∧ busy.role = .alone ∧
    privileged busy (.iadd ⟨false, 0, 3, 1, 2, 0⟩) = false ∧ Instr.wf (.rfence ⟨false, 0, 0, 0, 0⟩) = false ∧ privileged busy (.rfence ⟨false, 0, 0, 0, 0⟩) = false ∧
    Instr.wf (.iadd ⟨false, 0, 3, 1, 2, 0⟩) = true ∧ loaderMay (.iadd ⟨false, 0, 3, 1, 2, 0⟩) = false ∧ (∃ n ∈ predsOf (.pandn ⟨false, 9, 6, 7⟩), busy.pdecl ≤ n) ∧
    (∀ n ∈ predsOf (.iadd ⟨false, 0, 3, 1, 2, 0⟩), n < busy.pdecl) ∧ formCause busy (.tlbinv ⟨false, 8, 9, 0, 0⟩) = some 2 := by
  decide +kernel

theorem wit_StepKeepsMemory : Memory.wf (issuing busy 0x08003088).mem = true ∧ (result (step (issuing busy 0x08003088))).isSome = true := by
  decide +kernel

theorem wit_CoresStayAtUser : (issuing busy 0x08003088).CoresAtUser ∧ (result (step (issuing busy 0x08003088))).isSome = true := by
  refine ⟨⟨?_, ?_⟩, by decide +kernel⟩
  · unfold userEntry; decide +kernel
  · intro x h
    have e : (issuing busy 0x08003088).cellars = [] := rfl
    rw [e] at h
    cases h

end Sys2Proof.Tests
end

section
/-! SUPPORT. HALT, drains and exchanges with the cellar (R26, R27, R380, R391): what each does to the teams, the cores, the
partitions and the writes on their way, and the proof of O45 from it. -/

namespace Sys2Proof.Machine

/-! ### Tables: filtering, mapping and joining -/

theorem Table.mem_of_find? {α : Type} {t : Table α} {n : Nat} {a : α} (h : Table.find? t n = some a) : (n, a) ∈ t := by
  induction t with
  | nil => simp at h
  | cons e t ih =>
    obtain ⟨k, b⟩ := e
    unfold Table.find? at h
    split at h
    · rename_i hk
      simp only [beq_iff_eq] at hk
      simp_all
    · split at h
      · cases h
      · exact List.mem_cons_of_mem _ (ih h)

theorem Table.find?_of_mem {α : Type} {t : Table α} (hw : Table.wf t = true) {n : Nat} {a : α} (h : (n, a) ∈ t) :
    Table.find? t n = some a := by
  induction t with
  | nil => cases h
  | cons e t ih =>
    obtain ⟨k, b⟩ := e
    obtain ⟨hk, ht⟩ := Table.wf_cons.1 hw
    rcases List.mem_cons.1 h with h | h
    · simp_all [Table.find?]
    · have hn : k < n := hk _ h
      simp [Table.find?, show ¬ k = n by omega, show ¬ n < k by omega, ih ht h]

theorem Table.wf_filter {α : Type} {t : Table α} (hw : Table.wf t = true) (f : Nat × α → Bool) :
    Table.wf (t.filter f) = true := by
  induction t with
  | nil => rfl
  | cons e t ih =>
    obtain ⟨hk, ht⟩ := Table.wf_cons.1 hw
    rw [List.filter_cons]
    split
    · exact Table.wf_cons.2 ⟨fun x hx => hk x (List.mem_filter.1 hx).1, ih ht⟩
    · exact ih ht

theorem Table.find?_filter {α : Type} {t : Table α} (hw : Table.wf t = true) (f : Nat × α → Bool) (n : Nat) :
    Table.find? (t.filter f) n = (Table.find? t n).filter fun a => f (n, a) := by
  apply Option.ext
  intro a
  rw [Option.filter_eq_some_iff]
  constructor
  · intro h
    obtain ⟨hm, hf⟩ := List.mem_filter.1 (Table.mem_of_find? h)
    exact ⟨Table.find?_of_mem hw hm, hf⟩
  · rintro ⟨h, hf⟩
    exact Table.find?_of_mem (Table.wf_filter hw f) (List.mem_filter.2 ⟨Table.mem_of_find? h, hf⟩)

/-- A filter that looks at the keys only. -/
theorem Table.find?_filterKeys {α : Type} {t : Table α} (hw : Table.wf t = true) (f : Nat → Bool) (n : Nat) :
    Table.find? (t.filter fun e => f e.1) n = if f n then Table.find? t n else none := by
  rw [Table.find?_filter hw]
  cases Table.find? t n <;> simp [Option.filter]

theorem Table.wf_mapVals {α : Type} {t : Table α} (hw : Table.wf t = true) (f : Nat → α → α) :
    Table.wf (Table.mapVals t f) = true := by
  induction t with
  | nil => rfl
  | cons e t ih =>
    obtain ⟨hk, ht⟩ := Table.wf_cons.1 hw
    refine Table.wf_cons.2 ⟨fun x hx => ?_, ih ht⟩
    obtain ⟨y, hy, rfl⟩ := List.mem_map.1 hx
    exact hk y hy

theorem Table.wf_adjust {α : Type} {t : Table α} (hw : Table.wf t = true) (n : Nat) (f : α → α) :
    Table.wf (Table.adjust t n f) = true := by
  unfold Table.adjust
  split
  · exact Table.wf_put hw _ _
  · exact hw

theorem Table.find?_join {α : Type} (a : Table α) {b : Table α} (hw : Table.wf b = true) (n : Nat) :
    Table.find? (Table.join a b) n = (Table.find? b n).or (Table.find? a n) := by
  induction b generalizing a with
  | nil => rfl
  | cons e b ih =>
    obtain ⟨k, x⟩ := e
    obtain ⟨hk, hb⟩ := Table.wf_cons.1 hw
    have hj : Table.join a ((k, x) :: b) = Table.join (Table.put a k x) b := rfl
    rw [hj, ih _ hb, Table.find?_put_eq]
    by_cases hn : n = k
    · subst hn
      simp [Table.find?_none_of_from hk (Nat.le_refl _), Table.find?]
    · by_cases hl : n < k
      · simp [Table.find?_none_of_from hk (Nat.le_of_lt hl), Table.find?, hn, Ne.symm hn, hl]
      · simp [Table.find?, hn, Ne.symm hn, hl]

/-! ### Teams that are made ready -/

theorem State.team?_wake (s : State) (f : Nat → Team → Bool) (k : Nat) :
    (s.wake f).team? k = (s.team? k).map fun t => if f k t then { t with wait := .ready } else t := by
  simp only [State.team?, State.wake, Table.find?_mapVals]

@[simp] theorem State.core_putPart (s : State) (p n : Nat) (x : Partition) : (s.putPart p x).core n = s.core n := rfl
@[simp] theorem State.team?_putPart (s : State) (p k : Nat) (x : Partition) : (s.putPart p x).team? k = s.team? k := rfl
@[simp] theorem State.core_haltOver (s : State) (p n : Nat) : (s.haltOver p).core n = s.core n := rfl
@[simp] theorem State.part_haltOver (s : State) (p q : Nat) : (s.haltOver p).part q = s.part q := rfl

@[simp] theorem State.part_putPart (s : State) (p : Nat) (x : Partition) : (s.putPart p x).part p = x :=
  Table.getD_put _ _ _ _

theorem State.team?_haltOver (s : State) (p k : Nat) :
    (s.haltOver p).team? k = (s.team? k).map fun t => if t.wait == .halt p then { t with wait := .ready } else t :=
  s.team?_wake _ k

/-- Making threads ready changes no registers. -/
theorem State.registers_haltOver (s : State) (p k : Nat) :
    ((s.haltOver p).team? k).map Team.registers = (s.team? k).map Team.registers := by
  rw [State.team?_haltOver, Option.map_map]
  congr 1
  funext t
  dsimp only [Function.comp_apply]
  split <;> rfl

/-- A team that awaits no acknowledgement does not learn of one. -/
theorem State.team?_wakeAcks {s : State} {k : Nat} {t : Team} (h : s.team? k = some t) (hw : ∀ ids, t.wait ≠ .acks ids) :
    s.wakeAcks.team? k = some t := by
  simp only [State.team?, State.wakeAcks, Table.find?_mapVals] at h ⊢
  rw [h, Option.map_some]
  split
  · rename_i ids hids
    exact absurd hids (hw ids)
  · rfl

/-! ### Writes that are sent -/

/-- The writes on their way stand in order, and one that has merged into another travels with a request that is on its way and
has itself merged into none (R233). -/
def State.Carried (s : State) : Prop :=
  Table.wf s.flights = true ∧
    ∀ e ∈ s.flights, ∀ n, e.2.into = some n → ∃ g, Table.find? s.flights n = some g ∧ g.into = none

/-- From s to s' writes have been sent and cores have changed, and nothing else has. -/
structure Sends (s s' : State) : Prop where
  rest : s' = { s with flights := s'.flights, serial := s'.serial, cores := s'.cores }
  carried : s.Carried → s'.Carried

theorem Sends.refl (s : State) : Sends s s := ⟨rfl, id⟩

theorem Sends.trans {a b c : State} (h : Sends a b) (g : Sends b c) : Sends a c := by
  refine ⟨?_, fun x => g.carried (h.carried x)⟩
  have hb := h.rest
  have hc := g.rest
  generalize b.flights = x at hb
  generalize b.serial = y at hb
  generalize b.cores = z at hb
  subst hb
  exact hc

theorem Sends.team? {s s' : State} (h : Sends s s') (k : Nat) : s'.team? k = s.team? k := by rw [h.rest]; rfl

theorem Sends.part {s s' : State} (h : Sends s s') (p : Nat) : s'.part p = s.part p := by rw [h.rest]; rfl

theorem sends_putCore (s : State) (n : Nat) (x : Core) : Sends s (s.putCore n x) := ⟨rfl, id⟩

theorem sends_send (s : State) (n c line : Nat) (m : BitVec 64) (d : BitVec 512) (x : Option (BitVec 16)) :
    Sends s (s.send n c line m d x) := by
  unfold State.send
  split
  · exact Sends.refl s
  · refine ⟨rfl, fun ⟨hw, hi⟩ => ⟨Table.wf_put hw _ _, fun e he k hk => ?_⟩⟩
    rcases Table.mem_put he with rfl | he
    · cases hk
    · obtain ⟨g, hg, hn⟩ := hi e he k hk
      dsimp only
      rw [Table.find?_put_eq]
      split
      · exact ⟨_, rfl, rfl⟩
      · exact ⟨g, hg, hn⟩

theorem sends_writeBacks (s : State) (n : Nat) (ls : List Line) :
    Sends s (ls.foldl (fun (a : State) l => a.writeBack n l) s) :=
  List.foldlRecOn (motive := Sends s) ls _ (Sends.refl s) fun _ h _ _ => h.trans (sends_send _ _ _ _ _ _ _)

theorem sends_clean (s : State) (n c : Nat) (sel : Line → Bool) : Sends s (s.clean n c sel) :=
  (sends_writeBacks s n _).trans (sends_putCore _ _ _)

theorem sends_cleanReserved (s : State) (n : Nat) (sel : Line → Bool) : Sends s (s.cleanReserved n sel) :=
  (sends_writeBacks s n _).trans (sends_putCore _ _ _)

theorem State.core_writeBack (s : State) (n d : Nat) (l : Line) : (s.writeBack n l).core d = s.core d := by
  unfold State.writeBack State.send
  split <;> rfl

theorem State.core_writeBacks (s : State) (n d : Nat) (ls : List Line) :
    (ls.foldl (fun (a : State) l => a.writeBack n l) s).core d = s.core d :=
  List.foldlRecOn (motive := fun (a : State) => a.core d = s.core d) ls _ rfl
    fun a h l _ => (a.core_writeBack n d l).trans h

theorem State.core_clean (s : State) (n c d : Nat) (sel : Line → Bool) :
    (s.clean n c sel).core d =
      if d = n then { s.core n with
        lines := (s.core n).lines.map fun l => if l.ctx == c && sel l then { l with dirty := 0, raw := false } else l }
      else s.core d := by
  simp only [State.clean, State.core_putCore, State.core_writeBacks]

theorem State.core_cleanReserved (s : State) (n d : Nat) (sel : Line → Bool) :
    (s.cleanReserved n sel).core d =
      if d = n then { s.core n with reserved := (s.core n).reserved.filter fun l => !sel l } else s.core d := by
  simp only [State.cleanReserved, State.core_putCore, State.core_writeBacks]

/-! ### Writes that are performed -/

/-- From s to s' writes have been performed at their homes, and nothing but the writes on their way, memory with its descriptors,
marks and keys, and the health counters has changed. -/
def AtHomes (s s' : State) : Prop :=
  s' = { s with
    flights := s'.flights, mem := s'.mem, descs := s'.descs, bad := s'.bad, keyTags := s'.keyTags, health := s'.health }

theorem AtHomes.refl (s : State) : AtHomes s s := rfl

theorem AtHomes.trans {a b c : State} (h : AtHomes a b) (g : AtHomes b c) : AtHomes a c := by
  unfold AtHomes at h g ⊢
  generalize b.flights = x1 at h
  generalize b.mem = x2 at h
  generalize b.descs = x3 at h
  generalize b.bad = x4 at h
  generalize b.keyTags = x5 at h
  generalize b.health = x6 at h
  subst h
  exact g

theorem AtHomes.team? {s s' : State} (h : AtHomes s s') (k : Nat) : s'.team? k = s.team? k := by rw [h]; rfl

theorem AtHomes.part {s s' : State} (h : AtHomes s s') (p : Nat) : s'.part p = s.part p := by rw [h]; rfl

theorem AtHomes.core {s s' : State} (h : AtHomes s s') (n : Nat) : s'.core n = s.core n := by rw [h]; rfl

/-- A write at its home leaves the writes on their way alone. -/
def HomeOnly (s s' : State) : Prop := AtHomes s s' ∧ s'.flights = s.flights

theorem HomeOnly.refl (s : State) : HomeOnly s s := ⟨rfl, rfl⟩

theorem HomeOnly.trans {a b c : State} (h : HomeOnly a b) (g : HomeOnly b c) : HomeOnly a c :=
  ⟨h.1.trans g.1, g.2.trans h.2⟩

theorem homeOnly_setByte (s : State) (pa : Nat) (b : Byte) : HomeOnly s (s.setByte pa b) := by
  have hr : HomeOnly s (s.rekey (pa / 16)) := by
    unfold State.rekey
    repeat' split
    all_goals exact ⟨rfl, rfl⟩
  exact hr.trans ⟨rfl, rfl⟩

theorem homeOnly_setDesc (s : State) (pa : Nat) (d : BitVec 16) : HomeOnly s (s.setDesc pa d) := by
  unfold State.setDesc
  split <;> exact ⟨rfl, rfl⟩

theorem homeOnly_homeWrite (s : State) (line : Nat) (m : BitVec 64) (data : BitVec 512) (d : Option (BitVec 16)) :
    HomeOnly s (s.homeWrite line m data d) := by
  have hb : HomeOnly s ((List.range 64).foldl
      (fun (a : State) i => if m.getLsbD i then a.setByte (64 * line + i) (lineByte data i) else a) s) := by
    refine List.foldlRecOn (motive := HomeOnly s) _ _ (HomeOnly.refl s) fun a h i _ => ?_
    split
    · exact h.trans (homeOnly_setByte _ _ _)
    · exact h
  unfold State.homeWrite
  dsimp only
  split
  · exact (hb.trans (homeOnly_setDesc _ _ _)).trans ⟨rfl, rfl⟩
  · exact hb

theorem homeOnly_homeWriteRun (s : State) (pa : Nat) (bs : List Byte) (d : Option (BitVec 16)) :
    HomeOnly s (s.homeWriteRun pa bs d) := by
  unfold State.homeWriteRun
  split
  · exact HomeOnly.refl s
  · exact List.foldlRecOn (motive := HomeOnly s) _ _ (HomeOnly.refl s) fun _ h _ _ =>
      h.trans (homeOnly_homeWrite _ _ _ _ _)

theorem homeOnly_atomicAt {s s' : State} {pa op z old : Nat} {u : Bool} {d new : Nat}
    (h : s.atomicAt pa op z u d new = some (s', old)) : HomeOnly s s' := by
  unfold State.atomicAt at h
  split at h
  · cases h
  · cases h
    exact homeOnly_homeWriteRun _ _ _ _

/-- The writes on their way that stay when the request n is performed: neither n nor any that n carries (R233). -/
def staysFrom (n : Nat) (e : Nat × Flight) : Bool := e.1 != n && e.2.into != some n

/-- What performing a write does: where it is on its way with the request that carries it, that request and all that it carries
are performed; elsewhere nothing happens. -/
theorem State.perform_cases (s : State) (id : Nat) :
    (∃ f g, Table.find? s.flights id = some f ∧ Table.find? s.flights (f.into.getD id) = some g ∧ AtHomes s (s.perform id) ∧
      (s.perform id).flights = s.flights.filter (staysFrom (f.into.getD id))) ∨
    ((∀ f, Table.find? s.flights id = some f → Table.find? s.flights (f.into.getD id) = none) ∧ s.perform id = s) := by
  unfold State.perform
  split
  · rename_i hf
    exact .inr ⟨by simp [hf], rfl⟩
  · rename_i f hf
    dsimp only
    split
    · rename_i hg
      exact .inr ⟨fun f' h' => by rw [hf] at h'; cases h'; exact hg, rfl⟩
    · rename_i g hg
      have sent : AtHomes s { s with
          flights := Table.keep s.flights fun i h => i != f.into.getD id && h.into != some (f.into.getD id) } := rfl
      have done : ∀ {a : State}, HomeOnly { s with
          flights := Table.keep s.flights fun i h => i != f.into.getD id && h.into != some (f.into.getD id) } a →
          AtHomes s a ∧ a.flights = s.flights.filter (staysFrom (f.into.getD id)) :=
        fun h => ⟨sent.trans h.1, h.2⟩
      refine .inl ⟨f, g, hf, hg, ?_⟩
      split
      · exact done (homeOnly_homeWrite _ _ _ _ _)
      · split
        · rename_i ha
          exact done (homeOnly_atomicAt ha)
        · exact done ⟨rfl, rfl⟩

theorem atHomes_perform (s : State) (id : Nat) : AtHomes s (s.perform id) := by
  rcases s.perform_cases id with ⟨_, _, _, _, h, _⟩ | ⟨_, h⟩
  · exact h
  · rw [h]; exact AtHomes.refl s

theorem State.mem_perform {s : State} {id : Nat} {e : Nat × Flight} (h : e ∈ (s.perform id).flights) : e ∈ s.flights := by
  rcases s.perform_cases id with ⟨_, _, _, _, _, he⟩ | ⟨_, he⟩
  · rw [he] at h; exact (List.mem_filter.1 h).1
  · rwa [he] at h

/-- A request that carries others is carried by none, so what stays on its way keeps its carrier. -/
theorem State.Carried.perform {s : State} (h : s.Carried) (id : Nat) : (s.perform id).Carried := by
  rcases s.perform_cases id with ⟨f, _, _, _, _, he⟩ | ⟨_, he⟩
  · obtain ⟨hw, hi⟩ := h
    unfold State.Carried
    rw [he]
    refine ⟨Table.wf_filter hw _, fun e hm n hn => ?_⟩
    obtain ⟨hm, hs⟩ := List.mem_filter.1 hm
    obtain ⟨g, hg, hgn⟩ := hi e hm n hn
    refine ⟨g, ?_, hgn⟩
    have hne : n ≠ f.into.getD id := by
      rintro rfl
      simp [staysFrom, hn] at hs
    simp [Table.find?_filter hw, hg, staysFrom, hgn, hne]
  · rwa [he]

/-- A write that is performed is on its way no more. -/
theorem State.Carried.perform_gone {s : State} (h : s.Carried) (id : Nat) : Table.find? (s.perform id).flights id = none := by
  obtain ⟨hw, hi⟩ := h
  rcases s.perform_cases id with ⟨f, _, hf, _, _, he⟩ | ⟨hn, he⟩
  · rw [he, Table.find?_filter hw, hf]
    cases hin : f.into <;> simp [staysFrom, hin, Option.filter]
  · rw [he]
    cases hf : Table.find? s.flights id with
    | none => rfl
    | some f =>
      have hnone := hn f hf
      cases hin : f.into with
      | none => simp [hin, hf] at hnone
      | some n =>
        obtain ⟨g, hg, _⟩ := hi _ (Table.mem_of_find? hf) n hin
        simp [hin, hg] at hnone

theorem State.Carried.perform_none {s : State} (h : s.Carried) {id : Nat} (j : Nat) (hn : Table.find? s.flights id = none) :
    Table.find? (s.perform j).flights id = none := by
  cases hf : Table.find? (s.perform j).flights id with
  | none => rfl
  | some f => rw [Table.find?_of_mem h.1 (State.mem_perform (Table.mem_of_find? hf))] at hn; cases hn

/-- A list of writes performed one after another. -/
def State.performAll (s : State) (fs : List (Nat × Flight)) : State := fs.foldl (fun (a : State) f => a.perform f.1) s

theorem State.land_eq (s : State) (sel : Flight → Bool) :
    s.land sel = (s.performAll (s.flights.filter fun f => sel f.2)).wakeAcks := rfl

/-- All of them are gone then, with what they carried. -/
theorem State.Carried.performs {s : State} (h : s.Carried) (fs : List (Nat × Flight)) :
    (s.performAll fs).Carried ∧
      ∀ id, (id ∈ fs.map Prod.fst ∨ Table.find? s.flights id = none) →
        Table.find? (s.performAll fs).flights id = none := by
  induction fs generalizing s with
  | nil => exact ⟨h, fun id hid => hid.resolve_left List.not_mem_nil⟩
  | cons f fs ih =>
    obtain ⟨hc, hn⟩ := ih (h.perform f.1)
    refine ⟨hc, fun id hid => hn id ?_⟩
    rw [List.map_cons, List.mem_cons, or_assoc] at hid
    rcases hid with rfl | hid | hid
    · exact .inr (h.perform_gone f.1)
    · exact .inl hid
    · exact .inr (h.perform_none f.1 hid)

theorem State.mem_performs {s : State} (fs : List (Nat × Flight)) {e : Nat × Flight}
    (h : e ∈ (s.performAll fs).flights) : e ∈ s.flights := by
  induction fs generalizing s with
  | nil => exact h
  | cons f fs ih => exact State.mem_perform (ih h)

theorem atHomes_performs (s : State) (fs : List (Nat × Flight)) :
    AtHomes s (s.performAll fs) :=
  List.foldlRecOn (motive := AtHomes s) fs _ (AtHomes.refl s) fun _ h _ _ => h.trans (atHomes_perform _ _)

/-- Once the writes that a test names have landed, none of them is on its way. -/
theorem State.Carried.land {s : State} (h : s.Carried) (sel : Flight → Bool) {e : Nat × Flight}
    (he : e ∈ (s.land sel).flights) : sel e.2 = false := by
  rw [State.land_eq] at he
  change e ∈ (s.performAll (s.flights.filter fun f => sel f.2)).flights at he
  obtain ⟨hc, hn⟩ := h.performs (s.flights.filter fun f => sel f.2)
  refine Bool.eq_false_iff.2 fun hs => ?_
  have hm : e ∈ s.flights.filter fun f => sel f.2 := List.mem_filter.2 ⟨State.mem_performs _ he, hs⟩
  have gone := hn e.1 (.inl (List.mem_map.2 ⟨e, hm, rfl⟩))
  rw [Table.find?_of_mem hc.1 he] at gone
  cases gone

theorem State.core_land (s : State) (sel : Flight → Bool) (n : Nat) : (s.land sel).core n = s.core n :=
  (atHomes_performs s _).core n

theorem State.part_land (s : State) (sel : Flight → Bool) (p : Nat) : (s.land sel).part p = s.part p :=
  (atHomes_performs s _).part p

theorem State.team?_land {s : State} (sel : Flight → Bool) {k : Nat} {t : Team} (h : s.team? k = some t)
    (hw : ∀ ids, t.wait ≠ .acks ids) : (s.land sel).team? k = some t :=
  State.team?_wakeAcks (((atHomes_performs s _).team? k).trans h) hw

/-! ### A partition that has drained (R391 step 2) -/

/-- The dirty bytes of a context's lines on a core, and of the reserved part of its L1, are sent. -/
def State.cleanCore (s : State) (c n : Nat) : State := (s.clean n c fun _ => true).cleanReserved n fun _ => true

/-- The same on each of some cores. -/
def State.cleanCores (s : State) (c : Nat) (cs : List Nat) : State := cs.foldl (fun (a : State) n => a.cleanCore c n) s

theorem State.cleanPart_eq (s : State) (c p : Nat) :
    s.cleanPart c p = (s.cleanCores c (s.coresOf p)).land fun f => f.ctx == c || f.ctx == 0 := rfl

theorem sends_cleanCore (s : State) (c n : Nat) : Sends s (s.cleanCore c n) :=
  (sends_clean _ _ _ _).trans (sends_cleanReserved _ _ _)

theorem sends_cleanCores (s : State) (c : Nat) (cs : List Nat) : Sends s (s.cleanCores c cs) :=
  List.foldlRecOn (motive := Sends s) cs _ (Sends.refl s) fun _ h _ _ => h.trans (sends_cleanCore _ _ _)

theorem State.core_cleanCore_ne (s : State) (c : Nat) {n d : Nat} (h : d ≠ n) : (s.cleanCore c n).core d = s.core d := by
  rw [State.cleanCore, State.core_cleanReserved, if_neg h, State.core_clean, if_neg h]

/-- A core holds no dirty byte of a context, and nothing in the reserved part of its L1. -/
def Core.Cleaned (x : Core) (c : Nat) : Prop := (∀ l ∈ x.lines, l.ctx = c → l.dirty = 0) ∧ x.reserved = []

theorem State.cleanCore_cleaned (s : State) (c n : Nat) : ((s.cleanCore c n).core n).Cleaned c := by
  rw [State.cleanCore, State.core_cleanReserved, State.core_clean]
  simp only [if_true]
  refine ⟨fun l hl hc => ?_, by simp⟩
  obtain ⟨m, _, rfl⟩ := List.mem_map.1 hl
  by_cases hm : m.ctx = c
  · simp [hm]
  · simp [hm] at hc

theorem State.cleanCore_keeps {s : State} {c d : Nat} (h : (s.core d).Cleaned c) (n : Nat) :
    ((s.cleanCore c n).core d).Cleaned c := by
  by_cases hd : d = n
  · subst hd; exact s.cleanCore_cleaned c d
  · rwa [State.core_cleanCore_ne s c hd]

theorem State.cleanCores_cleaned (s : State) (c : Nat) (cs : List Nat) {d : Nat} (h : d ∈ cs ∨ (s.core d).Cleaned c) :
    ((s.cleanCores c cs).core d).Cleaned c := by
  induction cs generalizing s with
  | nil => exact h.resolve_left List.not_mem_nil
  | cons n cs ih =>
    refine ih (s.cleanCore c n) ?_
    rw [List.mem_cons, or_assoc] at h
    rcases h with rfl | h | h
    · exact .inr (s.cleanCore_cleaned c d)
    · exact .inl h
    · exact .inr (State.cleanCore_keeps h n)

theorem State.cleanPart_cleaned (s : State) (c p : Nat) {n : Nat} (h : n ∈ s.coresOf p) :
    ((s.cleanPart c p).core n).Cleaned c := by
  rw [State.cleanPart_eq, State.core_land]
  exact s.cleanCores_cleaned c _ (.inl h)

theorem State.cleanPart_part (s : State) (c p q : Nat) : (s.cleanPart c p).part q = s.part q :=
  (State.part_land _ _ _).trans ((sends_cleanCores s c _).part q)

theorem State.cleanPart_team? {s : State} (c p : Nat) {k : Nat} {t : Team} (h : s.team? k = some t)
    (hw : ∀ ids, t.wait ≠ .acks ids) : (s.cleanPart c p).team? k = some t :=
  State.team?_land _ (((sends_cleanCores s c _).team? k).trans h) hw

theorem State.cleanPart_flights {s : State} (c p : Nat) (h : s.Carried) {e : Nat × Flight}
    (he : e ∈ (s.cleanPart c p).flights) : e.2.ctx ≠ c := by
  have unsent := ((sends_cleanCores s c (s.coresOf p)).carried h).land _ he
  simp only [Bool.or_eq_false_iff, beq_eq_false_iff_ne] at unsent
  exact unsent.1

/-! ### HALT (R380) -/

/-- The check of HALT's operand accepts the numbers of the partitions, 1 to 15. -/
theorem haltCause_iff (w : Word) : haltCause w = true ↔ w.toNat = 0 ∨ 16 ≤ w.toNat := by
  have hw : w.toNat < 2 ^ 64 := w.isLt
  simp only [haltCause, bitsOf, Bool.or_eq_true, bne_iff_ne, ne_eq, beq_iff_eq]
  omega

theorem haltCause_eq_false {w : Word} (h0 : 0 < w.toNat) (h16 : w.toNat < 16) : haltCause w = false := by
  rw [Bool.eq_false_iff, ne_eq, haltCause_iff]
  omega

theorem bitsOf_low {w : Word} (h : w.toNat < 16) : bitsOf w 0 4 = w.toNat := by
  simp only [bitsOf]
  omega

section
variable {s : State} {k p : Nat} {t : Team} {swap : Bool}

theorem State.haltPart_over (h : t.phase = 1) : s.haltPart k t p swap = .done s := by simp [State.haltPart, h]

theorem State.haltPart_busy (h : t.phase ≠ 1) (hx : (s.part p).phase ≠ 0) : s.haltPart k t p swap = .park (.halt p) s := by
  simp [State.haltPart, h, hx]

theorem State.haltPart_begins (h : t.phase ≠ 1) (hx : (s.part p).phase = 0) (hs : (s.part p).stopped = false) :
    s.haltPart k t p swap = .park (.halt p)
      ((s.putPart p { s.part p with phase := if swap then 2 else 1, wasRunning := true }).modTeam k
        fun u => { u with phase := 1 }) := by
  simp [State.haltPart, h, hx, hs]

theorem State.haltPart_stopped (h : t.phase ≠ 1) (hx : (s.part p).phase = 0) (hs : (s.part p).stopped = true) :
    s.haltPart k t p swap =
      if swap then .park (.halt p)
        ((s.putPart p { s.part p with phase := 3, swapping := true, wasRunning := false }).modTeam k
          fun u => { u with phase := 1 })
      else .done s := by
  simp [State.haltPart, h, hx, hs]

end

/-- Cores that all run hold no wake back. -/
theorem State.wakeCores_running {s : State} {p : Nat} (h : ∀ c ∈ s.coresOf p, (s.core c).power = .running) :
    s.wakeCores p = s :=
  List.foldlRecOn (motive := fun a => a = s) _ _ rfl fun a ha c hc => by
    subst ha
    simp [State.wakeCore, h c hc]

/-- A ready instruction's meaning depends on its effect for its team only. -/
theorem run_effect {s : State} {k : Nat} {t : Team} {i : Instr} {e : Nat → Team → Did} {d : Did} (h : Ready s k t i)
    (he : e k t = d) : run i s e = run i s fun _ _ => d := by
  obtain ⟨hk, ht, hc⟩ := h
  simp only [run, hk, ht, hc, he]

/-- An effect that changes nothing completes. -/
theorem run_unchanged {s : State} {k : Nat} {t : Team} {i : Instr} {e : Nat → Team → Did} (h : Ready s k t i)
    (he : e k t = .done s) : ∃ s', run i s e = .next s' ∧ Completed i k s s' t :=
  ⟨_, run_done h he, complete_spec s k t i t h.2.1⟩

theorem exec_haltIdle (s : State) : exec .haltIdle s = execHaltIdle s := rfl
theorem exec_haltStop (f : FmtE) (s : State) : exec (.haltStop f) s = execHaltStop f s := rfl
theorem exec_haltSwap (f : FmtE) (s : State) : exec (.haltSwap f) s = execHaltSwap f s := rfl
theorem exec_haltGo (f : FmtE) (s : State) : exec (.haltGo f) s = execHaltGo f s := rfl

theorem haltIdle_parks {s : State} {k : Nat} {t : Team} (h : Ready s k t .haltIdle) (hp : t.phase ≠ 1) :
    exec .haltIdle s = .next ((s.modTeam k fun u => { u with phase := 1 }).parkTeam k .doorbell) := by
  rw [exec_haltIdle, execHaltIdle]
  exact run_park h (by simp [hp])

theorem haltIdle_completes {s : State} {k : Nat} {t : Team} (h : Ready s k t .haltIdle) (hp : t.phase = 1) :
    ∃ s', exec .haltIdle s = .next s' ∧ Completed .haltIdle k s s' t := by
  rw [exec_haltIdle, execHaltIdle]
  exact run_unchanged h (by simp [hp])

/-- A HALT whose operand names no partition raises cause 4. -/
theorem halt_traps {f : FmtE} {s : State} {k : Nat} {t : Team} {i : Instr} (hi : i ∈ [Instr.haltStop f, .haltSwap f, .haltGo f])
    (h : Ready s k t i) (hq : (t.s f.q).toNat = 0 ∨ 16 ≤ (t.s f.q).toNat) : exec i s = .next (s.takeTrap k 4 {}) := by
  have hc := (haltCause_iff _).2 hq
  simp only [List.mem_cons, List.not_mem_nil, or_false] at hi
  rcases hi with rfl | rfl | rfl
  · rw [exec_haltStop, execHaltStop]
    exact run_trap h (by simp only [hc, if_true])
  · rw [exec_haltSwap, execHaltSwap]
    exact run_trap h (by simp only [hc, if_true])
  · rw [exec_haltGo, execHaltGo]
    exact run_trap h (by simp only [hc, if_true])

section
variable {f : FmtE} {s : State} {k p : Nat} {t : Team}

/-- HALT.stop of a partition that exists halts it. -/
theorem exec_haltStop_haltPart (h0 : 0 < p) (h16 : p < 16) (hq : (t.s f.q).toNat = p) (h : Ready s k t (.haltStop f)) :
    exec (.haltStop f) s = run (.haltStop f) s fun _ _ => s.haltPart k t p false := by
  subst hq
  rw [exec_haltStop, execHaltStop]
  exact run_effect h (by simp only [haltCause_eq_false h0 h16, bitsOf_low h16, Bool.false_eq_true, if_false])

/-- HALT.swap of a partition that exists and whose cores run halts it or begins its exchange. -/
theorem exec_haltSwap_haltPart (h0 : 0 < p) (h16 : p < 16) (hq : (t.s f.q).toNat = p) (h : Ready s k t (.haltSwap f))
    (hr : ∀ c ∈ s.coresOf p, (s.core c).power = .running) :
    exec (.haltSwap f) s = run (.haltSwap f) s fun _ _ => s.haltPart k t p true := by
  subst hq
  rw [exec_haltSwap, execHaltSwap]
  exact run_effect h (by
    simp only [haltCause_eq_false h0 h16, bitsOf_low h16, State.wakeCores_running hr, ite_self, Bool.false_eq_true, if_false])

theorem haltGo_waits (h0 : 0 < p) (h16 : p < 16) (hq : (t.s f.q).toNat = p) (h : Ready s k t (.haltGo f))
    (hx : (s.part p).phase ≠ 0) : exec (.haltGo f) s = .next (s.parkTeam k (.halt p)) := by
  subst hq
  rw [exec_haltGo, execHaltGo]
  exact run_park h (by simp [haltCause_eq_false h0 h16, bitsOf_low h16, hx])

theorem haltGo_restarts (h0 : 0 < p) (h16 : p < 16) (hq : (t.s f.q).toNat = p) (h : Ready s k t (.haltGo f))
    (hr : ∀ c ∈ s.coresOf p, (s.core c).power = .running) (hx : (s.part p).phase = 0) :
    exec (.haltGo f) s = .next ((s.putPart p { s.part p with stopped := false }).complete k t (.haltGo f)) := by
  subst hq
  have hw : ∀ x, (s.putPart (t.s f.q).toNat x).wakeCores (t.s f.q).toNat = s.putPart (t.s f.q).toNat x :=
    fun x => State.wakeCores_running hr
  rw [exec_haltGo, execHaltGo]
  exact run_done h (by simp [haltCause_eq_false h0 h16, bitsOf_low h16, hx, hw])

end

/-! ### PARTITION_DRAIN_COMPLETE (R27, R391) -/

/-- A prologue thread stops while its control core's system thread is in HALT.idle. -/
theorem State.mayRun_prologue {s : State} {k : Nat} {t u : Team} (hr : t.role = .prologue)
    (hu : s.team? (sysKey (dieOf k)) = some u) (hw : u.wait = .doorbell) : s.mayRun k t = false := by
  simp [State.mayRun, hr, hu, hw]

/-- A team that stalls inside its packet keeps its context from having drained. -/
theorem State.not_drained {s : State} {k c n : Nat} {t : Team} (h : s.team? k = some t) (hk : isCoreKey k = true)
    (hp : t.inPacket = true) (hw : t.wait = .close c n) : s.drained t.ctx = false := by
  have stalls : (s.teams.any fun e => e.2.ctx == t.ctx && isCoreKey e.1 && !e.2.halted) = true :=
    List.any_eq_true.2 ⟨(k, t), Table.mem_of_find? h, by simp [hk, Team.halted, hp, hw, Wait.parks]⟩
  simp [State.drained, stalls]

section
variable {s : State} {p n : Nat}

theorem exec_partitionDrainComplete (s : State) : exec .partitionDrainComplete s = execPartitionDrainComplete s := rfl

theorem drain_waits (hd : s.detail = .place p n)
    (h : s.drained (s.part p).live = false ∨ (s.part p).phase = 0 ∨ (s.part p).phase = 3) :
    exec .partitionDrainComplete s = .next s := by
  rw [exec_partitionDrainComplete]
  simp only [execPartitionDrainComplete, hd]
  split
  · rfl
  · rename_i hn
    rcases h with h | h | h
    · simp [h] at hn
    · simp [h]
    · simp [h]

theorem drain_stops (hd : s.detail = .place p n) (h : s.drained (s.part p).live = true) (hp : (s.part p).phase = 1) :
    exec .partitionDrainComplete s = .next
      (((s.cleanPart (s.part p).live p).putPart p { s.part p with phase := 0, stopped := true }).haltOver p) := by
  rw [exec_partitionDrainComplete]
  simp [execPartitionDrainComplete, hd, h, hp, State.cleanPart_part]

theorem drain_swaps (hd : s.detail = .place p n) (h : s.drained (s.part p).live = true) (hp : (s.part p).phase = 2) :
    exec .partitionDrainComplete s = .next
      ((s.cleanPart (s.part p).live p).putPart p { s.part p with phase := 3, swapping := true }) := by
  rw [exec_partitionDrainComplete]
  simp [execPartitionDrainComplete, hd, h, hp, State.cleanPart_part]

/-- The threads that wait for the partition go on once it is stopped. -/
theorem State.stopped_team? {k : Nat} {t : Team} (h : s.team? k = some t) (hw : t.wait = .halt p) (c : Nat) (x : Partition) :
    (((s.cleanPart c p).putPart p x).haltOver p).team? k = some { t with wait := .ready } := by
  rw [State.team?_haltOver, State.team?_putPart, State.cleanPart_team? c p h (by simp [hw])]
  simp [hw]

end

/-! ### SWAP_EXCHANGE_COMPLETE (R26, R391) -/

/-- The issue runs of some cores end. -/
def State.endRunsOf (s : State) (cs : List Nat) : State := cs.foldl (fun (a : State) n => (a.endRun n false).endRun n true) s

/-- Some cores take what their cellar holds of them. -/
def State.takeShadows (s : State) (old : Cellar) (cs : List Nat) : State :=
  cs.foldl (fun (a : State) n => a.putCore n ((a.core n).exchange (old.shadow n))) s

/-- The team of a key stands on one of some cores. -/
def onCores (cs : List Nat) (k : Nat) : Bool := isCoreKey k && cs.contains (coreOf k)

theorem onCores_iff (cs : List Nat) (k : Nat) : onCores cs k = true ↔ isCoreKey k = true ∧ k / 64 ∈ cs := by
  simp [onCores, coreOf]

theorem quiet_endRunsOf (s : State) (cs : List Nat) : Quiet Team.unstamped Core.still s (s.endRunsOf cs) :=
  List.foldlRecOn (motive := Quiet Team.unstamped Core.still s) cs _ (Quiet.refl _ _ s) fun _ h _ _ =>
    h.trans ((quiet_endRun _ _ _).trans (quiet_endRun _ _ _))

theorem State.wf_teams_endRun {s : State} (h : Table.wf s.teams = true) (n : Nat) (a : Bool) :
    Table.wf (s.endRun n a).teams = true := by
  unfold State.endRun
  split
  · exact Table.wf_adjust h _ _
  · exact h

theorem State.wf_teams_endRunsOf {s : State} (h : Table.wf s.teams = true) (cs : List Nat) :
    Table.wf (s.endRunsOf cs).teams = true :=
  List.foldlRecOn (motive := fun (a : State) => Table.wf a.teams = true) cs _ h fun _ h _ _ =>
    State.wf_teams_endRun (State.wf_teams_endRun h _ _) _ _

theorem State.endRun_clock (s : State) (n : Nat) (a : Bool) : (s.endRun n a).clock = s.clock := by
  rw [(quiet_endRun s n a).rest]

/-- The team has the present ACLK as its age stamp. -/
def State.Stamped (s : State) (k : Nat) : Prop := (s.team? k).map (fun t => t.stamp) = some s.clock

theorem State.team?_endRun {s : State} {n j : Nat} {a : Bool} (h : (s.core n).runOf a = some j) (k : Nat) :
    (s.endRun n a).team? k = if k = j then (s.team? j).map fun t => { t with stamp := s.clock } else s.team? k := by
  simp only [State.endRun, h, State.team?_putCore, State.team?_modTeam]

theorem State.endRun_none {s : State} {n : Nat} {a : Bool} (h : (s.core n).runOf a = none) : s.endRun n a = s := by
  simp [State.endRun, h]

theorem State.Stamped.endRun {s : State} {k : Nat} (h : s.Stamped k) (n : Nat) (a : Bool) : (s.endRun n a).Stamped k := by
  unfold State.Stamped at *
  rw [State.endRun_clock]
  cases hr : (s.core n).runOf a with
  | none => rwa [State.endRun_none hr]
  | some j =>
    rw [State.team?_endRun hr]
    split
    · rename_i hk
      subst hk
      cases ht : s.team? k with
      | none => simp [ht] at h
      | some t => rfl
    · exact h

theorem State.Stamped.endRunsOf {s : State} {k : Nat} (h : s.Stamped k) (cs : List Nat) : (s.endRunsOf cs).Stamped k :=
  List.foldlRecOn (motive := fun (a : State) => a.Stamped k) cs _ h fun _ h _ _ => (h.endRun _ _).endRun _ _

/-- A run that ends stamps its team (R63). -/
theorem State.stamped_endRun {s : State} {n k : Nat} {a : Bool} {t : Team} (hr : (s.core n).runOf a = some k)
    (ht : s.team? k = some t) : (s.endRun n a).Stamped k := by
  unfold State.Stamped
  rw [State.endRun_clock, State.team?_endRun hr, if_pos rfl, ht]
  rfl

theorem Core.runOf_setRun_ne (x : Core) {a b : Bool} (h : b ≠ a) (k : Option Nat) (n : Nat) :
    (x.setRun a k n).runOf b = x.runOf b := by
  obtain rfl : b = !a := Bool.eq_not_of_ne h
  cases a <;> rfl

/-- The other runs go on: those of other cores, and the other one of this core. -/
theorem State.runOf_endRun_ne (s : State) {n m : Nat} {a b : Bool} (h : m ≠ n ∨ b ≠ a) :
    ((s.endRun n a).core m).runOf b = (s.core m).runOf b := by
  unfold State.endRun
  split
  · rw [State.core_putCore]
    split
    · rename_i hm
      subst hm
      exact Core.runOf_setRun_ne _ (h.resolve_left fun g => g rfl) _ _
    · rfl
  · rfl

theorem State.team?_endRun_isSome {s : State} {k : Nat} (h : (s.team? k).isSome = true) (n : Nat) (a : Bool) :
    ((s.endRun n a).team? k).isSome = true := by
  have hq := congrArg Option.isSome ((quiet_endRun s n a).teams k)
  simpa [h] using hq

/-- The team of a run of one of the cores is stamped when their runs end. -/
theorem State.stamped_endRunsOf (cs : List Nat) {s : State} {n k : Nat} {a : Bool} (hn : n ∈ cs)
    (hr : (s.core n).runOf a = some k) (ht : (s.team? k).isSome = true) : (s.endRunsOf cs).Stamped k := by
  induction cs generalizing s with
  | nil => cases hn
  | cons m cs ih =>
    show (((s.endRun m false).endRun m true).endRunsOf cs).Stamped k
    have ht1 := State.team?_endRun_isSome ht m false
    by_cases hm : n = m
    · subst hm
      cases a with
      | false =>
        obtain ⟨t, ht⟩ := Option.isSome_iff_exists.1 ht
        exact ((State.stamped_endRun hr ht).endRun n true).endRunsOf cs
      | true =>
        obtain ⟨t, ht1⟩ := Option.isSome_iff_exists.1 ht1
        have hr1 := (s.runOf_endRun_ne (n := n) (a := false) (m := n) (b := true) (.inr (by decide))).trans hr
        exact (State.stamped_endRun hr1 ht1).endRunsOf cs
    · have hr1 := (s.runOf_endRun_ne (a := false) (b := a) (.inl hm)).trans hr
      have hr2 := ((s.endRun m false).runOf_endRun_ne (a := true) (b := a) (.inl hm)).trans hr1
      exact ih ((List.mem_cons.1 hn).resolve_left hm) hr2 (State.team?_endRun_isSome ht1 m true)

theorem Core.exchange_exchange (x : Core) (z : CoreShadow) : (x.exchange z).exchange z = x.exchange z := rfl

/-- A core keeps nothing of its issue run in an exchange. -/
theorem Core.exchange_of_still {x y : Core} (h : x.still = y.still) (z : CoreShadow) : x.exchange z = y.exchange z := by
  have : ∀ w : Core, w.exchange z = w.still.exchange z := fun _ => rfl
  rw [this x, this y, h]

theorem quiet_takeShadows (s : State) (old : Cellar) (cs : List Nat) : Quiet id (fun _ => {}) s (s.takeShadows old cs) :=
  List.foldlRecOn (motive := Quiet id (fun _ => {}) s) cs _ (Quiet.refl _ _ s) fun _ h _ _ =>
    h.trans (quiet_putCore _ _ _ rfl)

theorem State.core_takeShadows (old : Cellar) (cs : List Nat) (s : State) (n : Nat) :
    (s.takeShadows old cs).core n = if n ∈ cs then (s.core n).exchange (old.shadow n) else s.core n := by
  induction cs generalizing s with
  | nil => rfl
  | cons m cs ih =>
    show ((s.putCore m ((s.core m).exchange (old.shadow m))).takeShadows old cs).core n = _
    rw [ih, State.core_putCore]
    by_cases hm : n = m
    · subst hm
      simp [Core.exchange_exchange]
    · simp [hm]

/-- What of some cores goes to their cellar. -/
def State.toCellar (s : State) (cs : List Nat) : Cellar :=
  { teams := s.teams.filter fun e => onCores cs e.1
    blocks := s.blocks.filter fun b => cs.contains b.2.core
    cores := cs.foldl (fun (t : Table CoreShadow) n => Table.put t n (s.core n).shadow) [] }

/-- The teams and blocks of some cores change places with those of their cellar. -/
def State.swapTeams (s : State) (p : Nat) (old : Cellar) (cs : List Nat) : State :=
  { s with
    teams := Table.join (s.teams.filter fun e => !(onCores cs e.1)) (Table.mapVals old.teams fun _ t => t.restored)
    blocks := Table.join (s.blocks.filter fun b => !(cs.contains b.2.core)) old.blocks
    cellars := Table.put s.cellars p (s.toCellar cs) }

/-- The partition after its exchange. -/
def Partition.exchanged (x : Partition) : Partition :=
  { x with
    live := x.cellar, cellar := x.live, stopped := !x.cellarRunning, swapping := false, phase := 0
    cellarRunning := x.wasRunning, wasRunning := false }

/-- An exchange, part by part: runs end, teams and blocks change places, cores follow, and the partition goes on. -/
theorem State.exchange_eq (s : State) (p : Nat) :
    s.exchange p =
      ((((s.endRunsOf (s.coresOf p)).swapTeams p (Table.getD s.cellars p {}) (s.coresOf p)).takeShadows
        (Table.getD s.cellars p {}) (s.coresOf p)).putPart p (s.part p).exchanged).haltOver p := rfl

theorem Team.registers_restored (t : Team) : t.restored.registers = t.registers := by
  unfold Team.restored
  split <;> rfl

/-- A team that stands alike but for its stamp has the same registers. -/
theorem Team.registers_of_unstamped (a b : Team) (h : a.unstamped = b.unstamped) : a.registers = b.registers := by
  have : ∀ t : Team, t.registers = { t.unstamped with wait := .ready } := fun _ => rfl
  rw [this a, this b, h]

theorem State.registers_endRunsOf (s : State) (cs : List Nat) (k : Nat) :
    ((s.endRunsOf cs).team? k).map Team.registers = (s.team? k).map Team.registers :=
  ((quiet_endRunsOf s cs).mono Team.registers_of_unstamped fun _ _ h => h).teams k

/-- Where the teams of the cellar belong on the cores, a key of a core finds the cellar's team, and any other its own. -/
theorem State.team?_swapTeams {s : State} (hw : Table.wf s.teams = true) (p : Nat) {old : Cellar}
    (ho : Table.wf old.teams = true) (cs : List Nat) (k : Nat) :
    (s.swapTeams p old cs).team? k =
      ((Table.find? old.teams k).map Team.restored).or (if onCores cs k then none else s.team? k) := by
  simp only [State.team?, State.swapTeams, Table.find?_join _ (Table.wf_mapVals ho _), Table.find?_mapVals,
    Table.find?_filterKeys hw fun j => !onCores cs j]
  cases onCores cs k <;> rfl

theorem State.team?_takeShadows (s : State) (old : Cellar) (cs : List Nat) (k : Nat) :
    (s.takeShadows old cs).team? k = s.team? k := by
  simpa using (quiet_takeShadows s old cs).teams k

section
variable {s : State} {p : Nat}

theorem State.part_exchange (s : State) (p : Nat) : (s.exchange p).part p = (s.part p).exchanged := by
  rw [State.exchange_eq, State.part_haltOver, State.part_putPart]

theorem State.core_exchange {n : Nat} (hn : n ∈ s.coresOf p) :
    (s.exchange p).core n = (s.core n).exchange ((Table.getD s.cellars p {}).shadow n) := by
  rw [State.exchange_eq, State.core_haltOver, State.core_putPart, State.core_takeShadows, if_pos hn]
  exact Core.exchange_of_still ((quiet_endRunsOf s _).cores n) _

theorem State.find?_cellars_exchange (s : State) (p : Nat) :
    Table.find? (s.exchange p).cellars p = some ((s.endRunsOf (s.coresOf p)).toCellar (s.coresOf p)) := by
  rw [State.exchange_eq]
  show Table.find? (State.takeShadows _ _ _).cellars p = _
  rw [(quiet_takeShadows _ _ _).rest]
  exact Table.find?_put _ _ _

theorem State.sameMemory_exchange (s : State) (p : Nat) : SameMemory s (s.exchange p) := by
  intro a
  rw [State.exchange_eq]
  exact ((quiet_takeShadows _ _ _).memory a).trans ((quiet_endRunsOf s _).memory a)

/-- The registers of a key after an exchange: on the partition's cores those of the cellar's team, elsewhere as before. -/
theorem State.registers_exchange (hw : Table.wf s.teams = true) (ho : Table.wf (Table.getD s.cellars p {}).teams = true)
    (k : Nat) :
    ((s.exchange p).team? k).map Team.registers =
      ((Table.find? (Table.getD s.cellars p {}).teams k).map Team.registers).or
        (if onCores (s.coresOf p) k then none else (s.team? k).map Team.registers) := by
  rw [State.exchange_eq, State.registers_haltOver, State.team?_putPart, State.team?_takeShadows,
    State.team?_swapTeams (State.wf_teams_endRunsOf hw _) _ ho, Option.map_or, Option.map_map]
  congr 1
  · congr 1
    funext t
    exact t.registers_restored
  · split
    · rfl
    · exact s.registers_endRunsOf _ k

theorem State.registers_exchange_on (hw : Table.wf s.teams = true)
    (ho : Table.wf (Table.getD s.cellars p {}).teams = true) {k : Nat} (hk : onCores (s.coresOf p) k = true) :
    ((s.exchange p).team? k).map Team.registers =
      (Table.find? (Table.getD s.cellars p {}).teams k).map Team.registers := by
  rw [State.registers_exchange hw ho, if_pos hk, Option.or_none]

theorem State.registers_exchange_off (hw : Table.wf s.teams = true)
    (ho : Table.wf (Table.getD s.cellars p {}).teams = true)
    (hm : ∀ e ∈ (Table.getD s.cellars p {}).teams, onCores (s.coresOf p) e.1 = true) {k : Nat}
    (hk : ¬onCores (s.coresOf p) k = true) :
    ((s.exchange p).team? k).map Team.registers = (s.team? k).map Team.registers := by
  have absent : Table.find? (Table.getD s.cellars p {}).teams k = none :=
    Option.eq_none_iff_forall_ne_some.2 fun t ht => hk (hm _ (Table.mem_of_find? ht))
  rw [State.registers_exchange hw ho, if_neg hk, absent, Option.map_none, Option.none_or]

/-- The cellar receives the teams of the cores as they stand once their runs have ended. -/
theorem State.find?_toCellar {cs : List Nat} (hw : Table.wf s.teams = true) {k : Nat} (hk : onCores cs k = true) :
    Table.find? ((s.endRunsOf cs).toCellar cs).teams k = (s.endRunsOf cs).team? k := by
  simp only [State.toCellar, Table.find?_filterKeys (State.wf_teams_endRunsOf hw cs) (onCores cs), hk, if_true]
  rfl

theorem State.stamp_endRunsOf {cs : List Nat} {n k : Nat} {a : Bool} {t : Team} (hn : n ∈ cs)
    (hr : (s.core n).runOf a = some k) (ht : s.team? k = some t) :
    ((s.endRunsOf cs).team? k).map (fun u => u.stamp) = some s.clock := by
  have stamped := State.stamped_endRunsOf cs hn hr (by rw [ht]; rfl)
  have clock : (s.endRunsOf cs).clock = s.clock := by rw [(quiet_endRunsOf s cs).rest]
  rwa [State.Stamped, clock] at stamped

theorem exec_swapExchangeComplete (s : State) : exec .swapExchangeComplete s = execSwapExchangeComplete s := rfl

theorem swap_waits {c : Nat} (hd : s.detail = .place p c) (h : (s.part p).phase ≠ 3) :
    exec .swapExchangeComplete s = .next s := by
  rw [exec_swapExchangeComplete]
  simp [execSwapExchangeComplete, hd, h]

theorem swap_exchanges (hd : s.detail = .place p 0) (h : (s.part p).phase = 3) :
    exec .swapExchangeComplete s = .next (s.exchange p) := by
  rw [exec_swapExchangeComplete]
  simp [execSwapExchangeComplete, hd, h]

end

/-! ### The obligation -/

/-- Settles O45. Each conjunct is one lemma about its instruction or event: HALT reduces to `State.haltPart`, a drain to
`State.cleanPart`, whose writes all land, and an exchange to `State.exchange_eq`. -/
theorem partitions : Obligations.Partitions := by
  unfold Obligations.Partitions
  refine ⟨fun s k t h => ⟨haltIdle_parks h, haltIdle_completes h⟩, fun s k t u _ hr hu hw => State.mayRun_prologue hr hu hw,
    fun s k c n t h hk hp hw => State.not_drained h hk hp hw, fun f s k t i hi h hq => halt_traps hi h hq, ?_, ?_, ?_⟩
  · intro f s k t p hq h0 h16
    refine ⟨fun h => ?_, fun h hr => ?_, fun h hr => ⟨haltGo_waits h0 h16 hq h, haltGo_restarts h0 h16 hq h hr⟩⟩
    · rw [exec_haltStop_haltPart h0 h16 hq h]
      refine ⟨fun hx => run_unchanged h ?_, fun ht hx => run_park h (State.haltPart_busy ht hx),
        fun ht hx hs => run_park h (State.haltPart_begins ht hx hs)⟩
      by_cases ht : t.phase = 1
      · exact State.haltPart_over ht
      · obtain ⟨hx, hs⟩ := hx.resolve_left ht
        exact State.haltPart_stopped ht hx hs
    · rw [exec_haltSwap_haltPart h0 h16 hq h hr]
      exact ⟨fun ht => run_unchanged h (State.haltPart_over ht), fun ht hx => run_park h (State.haltPart_busy ht hx),
        fun ht hx hs => run_park h (State.haltPart_begins ht hx hs),
        fun ht hx hs => run_park h (State.haltPart_stopped ht hx hs)⟩
  · intro s p n hd
    refine ⟨drain_waits hd, fun h hp => ?_⟩
    have clean : ∀ c ∈ s.coresOf p, ((s.cleanPart (s.part p).live p).core c).Cleaned (s.part p).live :=
      fun c hc => s.cleanPart_cleaned _ p hc
    rcases hp with hp | hp
    · exact ⟨_, drain_stops hd h hp, fun c hc => (clean c hc).1, fun c hc => (clean c hc).2,
        fun hw hi e he => State.cleanPart_flights _ p ⟨hw, hi⟩ he,
        fun _ => ⟨by rw [State.part_haltOver, State.part_putPart], fun k t ht hk => State.stopped_team? ht hk _ _⟩,
        fun h2 => by omega⟩
    · exact ⟨_, drain_swaps hd h hp, fun c hc => (clean c hc).1, fun c hc => (clean c hc).2,
        fun hw hi e he => State.cleanPart_flights _ p ⟨hw, hi⟩ he, fun h1 => by omega, fun _ => State.part_putPart _ _ _⟩
  · intro s p hd
    refine ⟨swap_waits hd, fun hx hw ho hmine => ?_⟩
    have on : ∀ {k}, (isCoreKey k = true ∧ k / 64 ∈ s.coresOf p) → onCores (s.coresOf p) k = true := (onCores_iff _ _).2
    refine ⟨_, _, swap_exchanges hd hx, s.sameMemory_exchange p, s.part_exchange p,
      fun k hk => State.registers_exchange_on hw ho (on hk),
      fun k hk => State.registers_exchange_off hw ho (fun e he => on (hmine e he)) (mt (onCores_iff _ k).1 hk),
      s.find?_cellars_exchange p, fun k hk => ?_, fun k t a hk ht hr => ?_, fun n hn => State.core_exchange hn⟩
    · rw [State.find?_toCellar hw (on hk)]
      exact (quiet_endRunsOf s _).teams k
    · rw [State.find?_toCellar hw (on hk)]
      exact State.stamp_endRunsOf hk.2 hr ht

end Sys2Proof.Machine
end

section
/-! SUPPORT. The reset values, and the proof of O60 from them. -/

namespace Sys2Proof.Machine

/-- R369: only the threads of the control cores exist at reset, and none of their keys is a core's. -/
theorem coresAtUser_reset : State.reset.CoresAtUser := by
  have threads : ∀ e ∈ State.reset.teams, isCoreKey e.1 = false := by decide
  exact ⟨fun e he hk => absurd hk (by simp [threads e he]), fun x hx => nomatch hx⟩

/-- R439: each die's system thread at reset. -/
theorem team?_reset_sysKey {d : Nat} (h : d < 4) :
    ∃ uid, State.reset.team? (sysKey d) = some (Team.thread uid .system 2 .ready) := by
  match d, h with
  | 0, _ => exact ⟨1, rfl⟩
  | 1, _ => exact ⟨3, rfl⟩
  | 2, _ => exact ⟨5, rfl⟩
  | 3, _ => exact ⟨7, rfl⟩

theorem Team.s_thread (uid : Nat) (role : Role) (level : Nat) (w : Wait) (r : BitVec 5) :
    (Team.thread uid role level w).s r = 0 := by
  unfold Team.s
  split <;> rfl

/-- Settles O60: every field is at the value that `State.reset` gives it, and a table without an entry reads its default. -/
theorem resetState : Obligations.ResetState := by
  refine ⟨⟨State.wf_reset, coresAtUser_reset, by decide⟩, ?_⟩
  unfold Claim.ResetValues
  dsimp only
  refine ⟨rfl, rfl, rfl, rfl, rfl, rfl, rfl, rfl, rfl, rfl, rfl, rfl, rfl, rfl, rfl, rfl, rfl, rfl, rfl, rfl, rfl, rfl, rfl, rfl, rfl,
    fun _ => rfl, fun _ => ?_, fun _ => rfl, fun _ _ => ?_, fun _ => ?_, fun d hd => ?_⟩
  case refine_1 => exact ⟨rfl, rfl, rfl, rfl, rfl, rfl, rfl, rfl, rfl, rfl, rfl, rfl, rfl, rfl⟩
  case refine_2 => exact ⟨rfl, rfl, rfl, rfl, rfl, rfl, rfl, rfl⟩
  case refine_3 => exact ⟨rfl, rfl, rfl, rfl, rfl, rfl, rfl, rfl⟩
  case refine_4 =>
    obtain ⟨uid, ht⟩ := team?_reset_sysKey hd
    exact ⟨_, ht, rfl, rfl, rfl, rfl, Team.s_thread _ _ _ _⟩

end Sys2Proof.Machine
end

section
/-! SUPPORT. Loop levels and the controls of issue (R41, R63, R82, R83, R87 to R92), and the proof of O14 from what they do. -/

namespace Sys2Proof.Machine

/-! ### Levels that end with a body (R90) -/

/-- Levels that end where a chain does with a count of at most 1 close, from the innermost outwards (R90). -/
theorem backEdges_closed {last : Word} {closed : List LoopLevel} (h : ∀ y ∈ closed, y.last = last ∧ y.count ≤ 1)
    (rest : List LoopLevel) : backEdges last (closed ++ rest) (last + 4) = backEdges last rest (last + 4) := by
  induction closed with
  | nil => rfl
  | cons y ys ih =>
    obtain ⟨hl, hc⟩ := h y List.mem_cons_self
    simp only [List.cons_append, backEdges, hl, beq_self_eq_true, if_true, Nat.blt_eq, Nat.not_lt.2 hc, if_false]
    exact ih fun z hz => h z (List.mem_cons_of_mem _ hz)

theorem backEdges_other {at_ : Word} {y : LoopLevel} (h : y.last ≠ at_) (outer : List LoopLevel) (pc : Word) :
    backEdges at_ (y :: outer) pc = (y :: outer, pc, false) := by
  simp [backEdges, h]

theorem backEdges_repeats {at_ : Word} {y : LoopLevel} (h : y.last = at_) (hc : 1 < y.count) (outer : List LoopLevel) (pc : Word) :
    backEdges at_ (y :: outer) pc = ({ y with count := y.count - 1 } :: outer, y.first, true) := by
  simp [backEdges, h, hc]

/-! ### Counting an issue (R63) -/

/-- A team is found again, with an age stamp that may be another, after changes that only concern issue. -/
theorem Quiet.team {view : Core → Core} {s s' : State} (q : Quiet Team.unstamped view s s') {k : Nat} {t : Team}
    (h : s.team? k = some t) : ∃ n, s'.team? k = some { t with stamp := n } := by
  have hu := q.teams k
  rw [h, Option.map_some, Option.map_eq_some_iff] at hu
  obtain ⟨u, hu, e⟩ := hu
  exact ⟨u.stamp, hu.trans (congrArg some (congrArg (fun x : Team => { x with stamp := u.stamp }) e))⟩

/-- A change of team k beside changes of that team alone. -/
theorem OnlyTeam.ofPutTeam {view : Core → Core} {k : Nat} {s s' : State} {u : Team} (h : OnlyTeam view k (s.putTeam k u) s') :
    OnlyTeam view k s s' := by
  refine ⟨fun j hj => ?_, h.cores, ?_, h.memory⟩
  · rw [h.others j hj, State.team?_putTeam, if_neg hj]
  · simpa [State.putTeam] using h.rest

theorem Quiet.onlyTeam {s s' : State} (q : Quiet Team.unstamped Core.still s s') (k : Nat) : OnlyTeam Core.still k s s' :=
  ⟨fun j _ => q.teams j, q.cores, q.rest, q.memory⟩

@[simp] theorem State.team?_putTeam_same (s : State) (k : Nat) (u : Team) : (s.putTeam k u).team? k = some u := by
  rw [State.team?_putTeam, if_pos rfl]

/-- Completing an instruction that has made its team u. -/
theorem completed_putTeam (s : State) (k : Nat) (t u : Team) (i : Instr) :
    Completed i k s ((s.putTeam k u).complete k t i) u := by
  obtain ⟨hu, hothers⟩ := complete_spec (s.putTeam k u) k t i u (s.team?_putTeam_same k u)
  exact ⟨hu, hothers.ofPutTeam⟩

/-- A transfer of control by a team that its instruction has changed. -/
theorem run_jumpAs {s : State} {k : Nat} {t u : Team} {i : Instr} {e : Nat → Team → Did} {pc : Word} (h : Ready s k t i)
    (he : e k t = .jump pc (s.putTeam k u)) : ∃ s', run i s e = .next s' ∧ Transferred pc k s s' u := by
  obtain ⟨hu, hothers⟩ := jump_spec (s.putTeam k u) k i t u pc (s.team?_putTeam_same k u)
  exact ⟨_, run_jump h he, hu, hothers.ofPutTeam⟩

/-! ### LOOP and LOOPI (R89) -/

/-- The last word of a body that begins after the word at the team's PC. -/
def bodyEnd (t : Team) (len : BitVec 8) : Word := t.pc + 4 + BitVec.ofNat 64 (4 * len.toNat)

/-- The level may be opened: outside a handler, as the next one inwards, over a body inside the enclosing one (R89, R372). -/
def MayOpen (t : Team) (l : BitVec 2) (len : BitVec 8) : Prop :=
  t.trap.inh = false ∧ l.toNat = t.loops.length ∧ ∀ y rest, t.loops = y :: rest → (bodyEnd t len).toNat ≤ y.last.toNat

/-- The team that passes over a body: the levels that end with it complete (R90). -/
def pastBody (t : Team) (len : BitVec 8) : Team :=
  ({ t with
    pc := bodyEnd t len + 4, resume := 0, phase := 0, target := false, raised := none
    inPacket := t.pc.toNat / 12 == (bodyEnd t len + 4).toNat / 12 }).endChain (bodyEnd t len)

section
variable {k count : Nat} {t : Team} {l : BitVec 2} {len : BitVec 8} {s : State}

theorem openLoop_illegal (h : ¬ MayOpen t l len) : openLoop k t l count len s = .trap 8 {} s := by
  unfold openLoop
  dsimp only
  refine if_pos (Decidable.byContradiction fun hn => h ?_)
  cases hl : t.loops <;> simp_all [MayOpen, bodyEnd, BitVec.ule]

theorem openLoop_legal (h : MayOpen t l len) :
    openLoop k t l count len s =
      if count == 0 then .quit (((s.putTeam k (pastBody t len)).countIssue k).endOwnRun k)
      else .done (s.putTeam k { t with loops := { first := t.pc + 4, last := bodyEnd t len, count := count } :: t.loops }) := by
  obtain ⟨hh, hl, hy⟩ := h
  unfold openLoop
  dsimp only
  rw [if_neg]
  · rfl
  · cases hl : t.loops <;> simp_all [bodyEnd, BitVec.ule]

theorem pastBody_eq (h : t.trap.inh = false) :
    pastBody t len = { t with
      pc := (pastBody t len).pc, loops := (pastBody t len).loops, inPacket := (pastBody t len).inPacket
      target := (pastBody t len).target, chained := false, resume := 0, phase := 0, raised := none } := by
  simp [pastBody, Team.endChain, h]

theorem pastBody_closed {closed rest : List LoopLevel} (h : t.trap.inh = false)
    (hl : t.loops = closed ++ rest) (hc : ∀ y ∈ closed, y.last = bodyEnd t len ∧ y.count ≤ 1) :
    ((pastBody t len).loops, (pastBody t len).pc, (pastBody t len).target) =
      backEdges (bodyEnd t len) rest (bodyEnd t len + 4) := by
  rw [← backEdges_closed hc, ← hl]
  simp [pastBody, Team.endChain, h]

theorem pastBody_inPacket (h : t.trap.inh = false) (ht : (pastBody t len).target = true) :
    (pastBody t len).inPacket = false := by
  simp only [pastBody, Team.endChain, h, Bool.false_eq_true, if_false, Bool.false_or] at ht ⊢
  rw [ht, Bool.not_true, Bool.and_false]

/-- Where a team that passes over a body stands, by the level that the closed ones leave (R90). -/
theorem pastBody_levels {closed rest : List LoopLevel} (h : t.trap.inh = false) (hl : t.loops = closed ++ rest)
    (hc : ∀ y ∈ closed, y.last = bodyEnd t len ∧ y.count ≤ 1) :
    let u := pastBody t len
    (rest = [] → u.pc = bodyEnd t len + 4 ∧ u.loops = [] ∧ u.target = false) ∧
    ∀ y outer, rest = y :: outer →
      (y.last ≠ bodyEnd t len → u.pc = bodyEnd t len + 4 ∧ u.loops = rest ∧ u.target = false) ∧
      (y.last = bodyEnd t len → 1 < y.count → u.pc = y.first ∧ u.loops = { y with count := y.count - 1 } :: outer ∧
        u.target = true ∧ u.inPacket = false) := by
  have e := pastBody_closed h hl hc
  refine ⟨?_, ?_⟩
  · rintro rfl
    obtain ⟨hloops, hpc, htarget⟩ : _ ∧ _ ∧ _ := by simpa only [backEdges, Prod.mk.injEq] using e
    exact ⟨hpc, hloops, htarget⟩
  · rintro y outer rfl
    refine ⟨fun hy => ?_, fun hy hcount => ?_⟩
    · rw [backEdges_other hy, Prod.mk.injEq, Prod.mk.injEq] at e
      obtain ⟨hloops, hpc, htarget⟩ := e
      exact ⟨hpc, hloops, htarget⟩
    · rw [backEdges_repeats hy hcount, Prod.mk.injEq, Prod.mk.injEq] at e
      obtain ⟨hloops, hpc, htarget⟩ := e
      exact ⟨hpc, hloops, htarget, pastBody_inPacket h htarget⟩

variable {i : Instr} {counts : Team → Nat}

theorem run_openLoop_illegal (h : Ready s k t i) (hn : ¬ MayOpen t l len) :
    run i s (fun k t => openLoop k t l (counts t) len s) = .next (s.takeTrap k 8 {}) :=
  run_trap h (openLoop_illegal hn)

theorem run_openLoop_opens (h : Ready s k t i) (ho : MayOpen t l len) (hc : counts t ≠ 0) :
    ∃ s', run i s (fun k t => openLoop k t l (counts t) len s) = .next s' ∧ Completed i k s s'
      { t with loops := { first := t.pc + 4, last := bodyEnd t len, count := counts t } :: t.loops } :=
  run_team h ((openLoop_legal ho).trans (if_neg (by simpa using hc)))

theorem run_openLoop_skips (h : Ready s k t i) (ho : MayOpen t l len) (hc : counts t = 0) :
    ∃ s' n, run i s (fun k t => openLoop k t l (counts t) len s) = .next s' ∧
      s'.team? k = some { pastBody t len with stamp := n } ∧ OnlyTeam Core.still k s s' := by
  have q := (quiet_countIssue (s.putTeam k (pastBody t len)) k).trans (quiet_endOwnRun _ k)
  obtain ⟨n, hu⟩ := q.team (s.team?_putTeam_same k (pastBody t len))
  exact ⟨_, n, run_over h ((openLoop_legal ho).trans (if_pos (by simpa using hc))), hu, (q.onlyTeam k).ofPutTeam⟩

end

/-! ### LBRK (R92) -/

theorem exec_lbrk (f : FmtLP) (s : State) : exec (.lbrk f) s = execLbrk f s := rfl

theorem lbrk_illegal {f : FmtLP} {s : State} {k : Nat} {t : Team} (h : Ready s k t (.lbrk f))
    (hn : t.trap.inh = true ∨ t.loops.length ≤ f.l.toNat) : exec (.lbrk f) s = .next (s.takeTrap k 8 {}) := by
  rw [exec_lbrk, execLbrk]
  exact run_trap h (if_pos (by simpa using hn))

/-- LBRK goes past the body of its level and ends it with all inside it (R92). -/
theorem lbrk_breaks {f : FmtLP} {s : State} {k : Nat} {t : Team} {inner outer : List LoopLevel} {y : LoopLevel}
    (h : Ready s k t (.lbrk f)) (hi : t.trap.inh = false) (hl : t.loops = inner ++ y :: outer) (ho : outer.length = f.l.toNat) :
    ∃ s', exec (.lbrk f) s = .next s' ∧ Transferred (y.last + 4) k s s' { t with loops := outer } := by
  have hlen : t.loops.length = inner.length + (f.l.toNat + 1) := by simp [hl, ho]
  have hdrop : t.loops.drop (t.loops.length - 1 - f.l.toNat) = y :: outer := by
    rw [hlen, show inner.length + (f.l.toNat + 1) - 1 - f.l.toNat = inner.length by omega, hl, List.drop_left]
  rw [exec_lbrk, execLbrk]
  refine run_jumpAs h ?_
  rw [if_neg (by simp [hi, hlen]; omega)]
  simp only [hdrop]

/-! ### The claims -/

theorem loops_claim : Claim.Loops := by
  refine ⟨fun x hx f s k t h => ?_, fun f s k t h => ⟨lbrk_illegal h, fun _ _ _ => lbrk_breaks h⟩⟩
  have he : exec (x.1 f) s = run (x.1 f) s fun k t => openLoop k t f.l (x.2 f t) f.len s := by
    simp only [List.mem_cons, List.not_mem_nil, or_false] at hx
    rcases hx with rfl | rfl <;> rfl
  rw [he]
  refine ⟨run_openLoop_illegal (counts := x.2 f) h, run_openLoop_opens (counts := x.2 f) h, fun ho hc => ?_⟩
  obtain ⟨s', n, hs, hu, hothers⟩ := run_openLoop_skips (counts := x.2 f) h ho hc
  exact ⟨s', _, hs, hu, hothers, congrArg (fun u : Team => { u with stamp := n }) (pastBody_eq ho.1),
    fun closed rest hl hclosed => pastBody_levels ho.1 hl hclosed⟩

/-! ### NOP and YIELD (R41, R63, R83) -/

theorem exec_nop (f : FmtS) (s : State) : exec (.nop f) s = execNop f s := rfl
theorem exec_yield (f : FmtS) (s : State) : exec (.yield f) s = execYield f s := rfl

/-- An instruction that opens no loop level and moves no entry of the stack completes with its run going on (R95). -/
theorem State.complete_eq {s : State} {k : Nat} {t u : Team} {i : Instr} (h : s.team? k = some u) (hs : u.spilled = t.spilled)
    (hr : (rowOf i).1 ≠ 3) : s.complete k t i = (s.putTeam k (u.advance (chainBit i) (wordsOf i))).issued k u i := by
  simp [State.complete, State.finish, delays, h, hs, hr]

theorem rowOf_nop (f : FmtS) : rowOf (.nop f) = (2, 6) := rfl
theorem rowOf_yield (f : FmtS) : rowOf (.yield f) = (2, 5) := rfl
theorem chainBit_nop (f : FmtS) : chainBit (.nop f) = f.c := rfl
theorem chainBit_yield (f : FmtS) : chainBit (.yield f) = f.c := rfl

theorem State.issued_freeNop (s : State) (k : Nat) {f : FmtS} {t : Team} (hc : f.c = false) (ht : t.chained = false) :
    s.issued k t (.nop f) = s :=
  if_pos (by rw [freeNop, rowOf_nop, chainBit_nop, hc, ht]; rfl)

theorem nop_completes {f : FmtS} {s : State} {k : Nat} {t : Team} (h : Ready s k t (.nop f)) :
    ∃ s', exec (.nop f) s = .next s' ∧ Completed (.nop f) k s s' t ∧ (f.c = false → t.chained = false → s'.cores = s.cores) := by
  obtain ⟨-, ht, -⟩ := id h
  rw [exec_nop, execNop]
  refine ⟨_, run_done h rfl, complete_spec s k t _ t ht, fun hc hch => ?_⟩
  rw [State.complete_eq ht rfl (by rw [rowOf_nop]; decide), State.issued_freeNop _ _ hc hch]
  rfl

theorem State.runOf_endRun_same (s : State) (n : Nat) (a : Bool) : ((s.endRun n a).core n).runOf a = none := by
  cases hr : (s.core n).runOf a with
  | none => rw [State.endRun_none hr, hr]
  | some k =>
    simp only [State.endRun, hr, State.core_putCore, if_true]
    cases a <;> rfl

theorem freeNop_yield (t : Team) (f : FmtS) : freeNop t (.yield f) = false := by
  rw [freeNop, rowOf_yield]
  exact Bool.and_false _

/-- A YIELD whose chain goes on is counted with its chain (R63). -/
theorem State.issued_yield_chained (s : State) (k : Nat) {f : FmtS} (t : Team) (hc : f.c = true) :
    s.issued k t (.yield f) = s.beginRun k := by
  rw [State.issued, freeNop_yield, chainBit_yield, hc]
  rfl

/-- A YIELD that ends its chain ends the run (R63). -/
theorem State.runOf_issued_yield (s : State) (k : Nat) {f : FmtS} (t : Team) (hc : f.c = false) :
    ((s.issued k t (.yield f)).core (coreOf k)).runOf (t.role == .loader) = none := by
  rw [State.issued, freeNop_yield, chainBit_yield, hc, rowOf_yield]
  simp only [beq_self_eq_true, Bool.or_true, Bool.false_eq_true, if_false, if_true]
  exact State.runOf_endRun_same _ _ _

theorem yield_ends {f : FmtS} {s : State} {k : Nat} {t : Team} (h : Ready s k t (.yield f)) (hc : f.c = false) :
    ∃ s', exec (.yield f) s = .next s' ∧ Completed (.yield f) k s s' t ∧
      (s'.core (coreOf k)).runOf (t.role == .loader) = none := by
  obtain ⟨-, ht, -⟩ := id h
  rw [exec_yield, execYield]
  refine ⟨_, run_done h (congrArg Did.done (if_neg (by simp [hc]))), complete_spec s k t _ t ht, ?_⟩
  rw [State.complete_eq ht rfl (by rw [rowOf_yield]; decide)]
  exact State.runOf_issued_yield _ k t hc

theorem yield_marks {f : FmtS} {s : State} {k : Nat} {t : Team} (h : Ready s k t (.yield f)) (hc : f.c = true) :
    ∃ s', exec (.yield f) s = .next s' ∧ Completed (.yield f) k s s' t ∧
      (s'.team? k).map (fun u => u.yielded) = some true := by
  rw [exec_yield, execYield]
  refine ⟨_, run_done h (congrArg Did.done (if_pos hc)), ?_, ?_⟩
  · obtain ⟨hu, hothers⟩ := completed_putTeam s k t { t with yielded := true } (.yield f)
    refine ⟨hu.trans ?_, hothers⟩
    rw [chainBit_yield, hc]
    rfl
  · rw [State.complete_eq (t := t) (s.team?_putTeam_same k { t with yielded := true }) rfl (by rw [rowOf_yield]; decide),
      State.issued_yield_chained _ _ _ hc]
    obtain ⟨n, hn⟩ := (quiet_beginRun _ k).team (State.team?_putTeam_same ..)
    rw [hn, chainBit_yield, hc]
    rfl

/-! ### IPF (R82) -/

theorem exec_ipf (f : FmtB) (s : State) : exec (.ipf f) s = execIpf f s := rfl

theorem State.mem_filling_askLine (s : State) (q c line : Nat) : (c, line) ∈ ((s.askLine q c line).quad q).filling := by
  unfold State.askLine
  split
  · rename_i h
    exact List.contains_iff_mem.1 h
  · simp [State.quad, State.putQuad]

section
variable {f : FmtB} {s : State} {k : Nat} {t : Team}

/-- The state with the line of IPF's target asked for. -/
def State.askTarget (s : State) (k : Nat) (t : Team) (a : Word) : State :=
  (s.tlbFill (dieOf k) t.ctx a).askLine (coreOf k / 4) t.ctx (codeLine a)

/-- Beside the lines that are being filled only the TLB may change. -/
theorem State.askTarget_eq (s : State) (k : Nat) (t : Team) (a : Word) :
    s.askTarget k t a = { s with tlb := (s.askTarget k t a).tlb, quads := (s.askTarget k t a).quads } := by
  unfold State.askTarget State.askLine State.tlbFill
  repeat' split
  all_goals rfl

theorem ipf_idle (h : Ready s k t (.ipf f))
    (hn : 16384 ≤ k ∨ (s.quad (coreOf k / 4)).held t.ctx (branchTarget t f.off) ≠ none ∨
      s.fetchPage (dieOf k) t.ctx (branchTarget t f.off) = .error (11, false) ∨
      s.fetchPage (dieOf k) t.ctx (branchTarget t f.off) = .error (16, false)) :
    ∃ s', exec (.ipf f) s = .next s' ∧ Completed (.ipf f) k s s' t := by
  rw [exec_ipf, execIpf]
  refine run_unchanged h ?_
  by_cases hk : isCoreKey k = true
  · have : ¬ 16384 ≤ k := by simpa [isCoreKey] using hk
    cases hh : (s.quad (coreOf k / 4)).held t.ctx (branchTarget t f.off) with
    | some w => simp [hk, hh]
    | none =>
      rcases hn with hn | hn | hn | hn
      · exact absurd hn this
      · exact absurd hh hn
      · simp [hk, hh, hn]
      · simp [hk, hh, hn]
  · simp [hk]

theorem ipf_asks (h : Ready s k t (.ipf f)) (hk : k < 16384)
    (hh : (s.quad (coreOf k / 4)).held t.ctx (branchTarget t f.off) = none) {p : Page}
    (hp : s.fetchPage (dieOf k) t.ctx (branchTarget t f.off) = .ok p) :
    ∃ s', exec (.ipf f) s = .next s' ∧ (s'.team? k).map Team.timeless = some (t.advance f.c 1).timeless ∧
      (t.ctx, codeLine (branchTarget t f.off)) ∈ (s'.quad (coreOf k / 4)).filling ∧ SameMemory s s' := by
  have he := s.askTarget_eq k t (branchTarget t f.off)
  have ht : (s.askTarget k t (branchTarget t f.off)).team? k = some t := by
    rw [he]
    exact h.2.1
  obtain ⟨hu, hothers⟩ := complete_spec _ k t (.ipf f) t ht
  have hcore : isCoreKey k = true := by simpa [isCoreKey] using hk
  rw [exec_ipf, execIpf]
  refine ⟨_, run_done (s' := s.askTarget k t (branchTarget t f.off)) h (by simp [hcore, hh, hp, State.askTarget]), hu, ?_, fun a => ?_⟩
  · have hq := State.mem_filling_askLine (s.tlbFill (dieOf k) t.ctx (branchTarget t f.off)) (coreOf k / 4) t.ctx
      (codeLine (branchTarget t f.off))
    rw [hothers.rest]
    exact hq
  · rw [hothers.memory a, he]
    rfl
end

theorem issueControls_claim : Claim.IssueControls := by
  refine ⟨fun f s k t h => nop_completes h, fun f s k t h => ?_, fun f s k t h => ⟨ipf_idle h, fun hk hh p hp => ipf_asks h hk hh hp⟩⟩
  cases hc : f.c with
  | false =>
    obtain ⟨s', hs, hdone, hrun⟩ := yield_ends h hc
    exact ⟨s', hs, hdone, fun _ _ => hrun, nofun⟩
  | true =>
    obtain ⟨s', hs, hdone, hmark⟩ := yield_marks h hc
    exact ⟨s', hs, hdone, nofun, fun _ => hmark⟩

/-- Settles O14: an opening level by the test that it may be opened and by its count, the levels that end with a body by induction
on those that close, and the issue controls by what each leaves of its core's run. -/
theorem loopsAndIssue : Obligations.LoopsAndIssue := ⟨loops_claim, issueControls_claim⟩

end Sys2Proof.Machine
end

section
/-! SUPPORT. A spill area whose addresses share a line (R72): the counterexample to O12. -/

namespace Sys2Proof.Machine

/-- A team of 512 lanes whose divergence spill area begins at address 0: an entry of its stack has nine doublewords there. -/
def wideTeam : Team := { Team.thread 1 .alone 0 .ready with width := 512 }

/-- A leaf of class ORD, read and written, whose page begins at physical address 0. -/
def lowLeaf : Word := 15

/-- A TLB of die 0 with two entries of 64 bytes, which map the lines 0 and 1 of context 0 to the one line at physical address 0. -/
def foldedArea : State :=
  { State.reset with tlb := [(0, [{ ctx := 0, base := 0, size := 64, leaf := lowLeaf },
      { ctx := 0, base := 64, size := 64, leaf := lowLeaf }])] }

/-- The pages of the nine doublewords of an entry: the ninth falls on the first. -/
def foldedPages : List (Word × Page) :=
  (List.range 9).map fun j => (BitVec.ofNat 64 (8 * j),
    { rd := true, wr := true, ex := false, usr := false, cls := 0, pa := 8 * (j % 8), pkg := 0 })

/-- A rejoin entry at address 0 without a lane. -/
def emptyRejoin : StackEntry := { rejoin := true, addr := 0, mask := 0 }

/-- The state after that entry has moved to the spill area. -/
def foldedSpill : State := foldedArea.areaWrite 0 wideTeam foldedPages (entryImage 512 emptyRejoin)

theorem eq_ok_of_toOption {ε α : Type} {x : Except ε α} {a : α} (h : x.toOption = some a) : x = .ok a := by
  cases x with
  | error e => cases h
  | ok b => exact congrArg Except.ok (Option.some.inj h)

theorem areaPages_foldedArea :
    foldedArea.areaPages 0 wideTeam { wr := true } (entryWords wideTeam 0) = .ok foldedPages :=
  eq_ok_of_toOption (by decide +kernel)

theorem areaPages_foldedSpill :
    foldedSpill.areaPages 0 wideTeam { rd := true } (entryWords wideTeam 0) = .ok foldedPages :=
  eq_ok_of_toOption (by decide +kernel)

theorem spillEntry_foldedArea : foldedArea.spillEntry 0 wideTeam 0 emptyRejoin = .ok foldedSpill := by
  unfold State.spillEntry
  rw [areaPages_foldedArea]
  rfl

/-- The ninth doubleword of the entry, which is 0, has replaced the first, whose bit 63 is its kind. -/
theorem entryOf_foldedSpill :
    (entryOf ((foldedSpill.areaRead 0 wideTeam foldedPages).2.take (8 + 4 * wideTeam.rows))).rejoin = false := by
  decide +kernel

theorem readEntry_foldedSpill {s2 : State} {e : StackEntry} (h : foldedSpill.readEntry 0 wideTeam 0 = .ok (s2, e)) :
    e.rejoin = false := by
  unfold State.readEntry at h
  rw [areaPages_foldedSpill] at h
  simp only [Except.ok.injEq, Prod.mk.injEq] at h
  rw [← h.2]
  exact entryOf_foldedSpill

/-- Refutes O12 in its clause that an entry of the spill area is read back (R72): it asks nothing of the TLB, and where two entries
of 64 bytes map two lines of the area to one physical line, the last of an entry's nine doublewords is written over the first, so
that a rejoin entry comes back as a path entry. A walk leaves no such entries in the TLB, so the clause lacks a hypothesis on it. -/
theorem not_branches : ¬ Obligations.Branches := by
  rintro ⟨-, -, spilled, -⟩
  obtain ⟨-, -, -, readBack⟩ :=
    spilled foldedArea 0 wideTeam 0 emptyRejoin foldedSpill (by decide) (by decide) spillEntry_foldedArea
  obtain ⟨s2, hread⟩ := readBack foldedPages areaPages_foldedArea (by decide) (by decide) areaPages_foldedSpill (by decide)
    fun l _ => BitVec.getLsbD_zero
  exact absurd (readEntry_foldedSpill hread) (by decide)

end Sys2Proof.Machine
end

section
/-! SUPPORT. A line that is marked uncorrectable twice (R443): the counterexample to O41. -/

namespace Sys2Proof.Machine

/-- A write of a whole line on its way to line 0, whose table of errors names that line twice. -/
def doublyMarked : State :=
  { State.reset with
    detail := .place 0 0
    flights := [(0, { core := 0, ctx := 0, pa := 0, mask := BitVec.allOnes 64, data := 0, desc := none })]
    bad := [(0, (true, false)), (0, (true, false))] }

theorem exec_writeBackAck_doublyMarked : exec .writeBackAck doublyMarked = .next (doublyMarked.perform 0).wakeAcks := rfl

/-- The first of the two entries goes, and the second is found. -/
theorem badData_doublyMarked : (doublyMarked.perform 0).wakeAcks.badData 0 = true := by decide +kernel

/-- Refutes O41 in its clause that a write of all 64 bytes ends the errors of its line (R443): it asks nothing of the table of
marked lines, and one that names the line twice still names it after the write has taken one mark away. Only a table with strictly rising keys is meant, but of this one the clause
does not say so. -/
theorem not_linesAndRuns : ¬ Obligations.LinesAndRuns := by
  rintro ⟨-, -, acked⟩
  obtain ⟨s', hs, -, -, -, -, -, whole⟩ := acked doublyMarked 0 0 _ rfl rfl rfl rfl rfl rfl rfl (by decide) (by decide)
  obtain ⟨good, -, -⟩ := whole rfl
  rw [exec_writeBackAck_doublyMarked, Host.Outcome.next.injEq] at hs
  rw [← hs] at good
  exact Bool.noConfusion (good.symm.trans badData_doublyMarked)

end Sys2Proof.Machine
end

section
/-! SUPPORT. Registers, predicates and the checks before an effect (R54, R103), and the proof of O1 from them. -/

namespace Sys2Proof.Machine

/-- One choice by two tests that agree. -/
theorem ite_eq_of_iff {α : Type} {p q : Prop} [Decidable p] [Decidable q] (h : p ↔ q) (a b : α) :
    (if p then a else b) = if q then a else b := by
  by_cases hq : q
  · rw [if_pos hq, if_pos (h.2 hq)]
  · rw [if_neg hq, if_neg (mt h.1 hq)]

/-! ### Predicates -/

theorem getLsbD_allLanes {l : Nat} (h : l < 1024) : (BitVec.allOnes 1024).getLsbD l = true := by
  rw [BitVec.getLsbD_allOnes, decide_eq_true h]

theorem Team.setPred_eq (t : Team) (n : Nat) (m v : Mask) : t.setPred n m v = { t with p := (t.setPred n m v).p } := by
  unfold Team.setPred
  split <;> rfl

/-- A write changes its own predicate only, and p0 ignores it (R103). -/
theorem Team.pred_setPred (t : Team) (n j : Nat) (m v : Mask) :
    (t.setPred n m v).pred j = if j = n ∧ n ≠ 0 then (t.pred n &&& ~~~m) ||| (v &&& m) else t.pred j := by
  by_cases hn : n = 0
  · subst hn
    rw [if_neg (by simp)]
    rfl
  · by_cases hj : j = n
    · subst hj
      simp [Team.setPred, Team.pred, hn]
    · simp [Team.setPred, Team.pred, hn, hj, Table.getD_put_ne]

theorem Team.pred_setPred_ne (t : Team) {n j : Nat} (h : j ≠ n) (m v : Mask) : (t.setPred n m v).pred j = t.pred j := by
  rw [Team.pred_setPred, if_neg fun hj => h hj.1]

theorem Team.pred_setPred_lane (t : Team) (n j : Nat) (m v : Mask) {l : Nat} (h : l < 1024) :
    ((t.setPred n m v).pred j).getLsbD l =
      if j = n ∧ n ≠ 0 ∧ m.getLsbD l then v.getLsbD l else (t.pred j).getLsbD l := by
  rw [Team.pred_setPred]
  by_cases hj : j = n ∧ n ≠ 0
  · obtain ⟨rfl, hn⟩ := hj
    rw [if_pos ⟨rfl, hn⟩, BitVec.getLsbD_or, BitVec.getLsbD_and, BitVec.getLsbD_not, BitVec.getLsbD_and]
    cases m.getLsbD l <;> simp [h, hn]
  · rw [if_neg hj, if_neg fun hm => hj ⟨hm.1, hm.2.1⟩]

/-! ### The checks before an effect, of a team at role alone (R54) -/

section
variable {t : Team} {i : Instr}

/-- A team at role alone may use every form that its level allows. -/
theorem formCause_alone (hr : t.role = .alone) (hp : privileged t i = false) :
    formCause t i = if !i.wf then some 4 else if (predsOf i).any fun n => Nat.ble t.pdecl n then some 41 else none := by
  simp [formCause, hr, hp]

theorem formCause_badField (hr : t.role = .alone) (hp : privileged t i = false) (hw : i.wf = false) :
    formCause t i = some 4 := by
  rw [formCause_alone hr hp, hw]
  rfl

theorem formCause_undeclared_iff (hr : t.role = .alone) (hp : privileged t i = false) (hw : i.wf = true) :
    formCause t i = some 41 ↔ ∃ n ∈ predsOf i, t.pdecl ≤ n := by
  rw [formCause_alone hr hp, hw]
  simp

end

/-- Settles O1: a scalar register and a predicate are read after a write by the laws of tables, and the check of predicate numbers
is the last of those made before an effect. -/
theorem hardwiredRegisters : Obligations.HardwiredRegisters :=
  ⟨Team.s_setS, Team.s_zero, fun t n j _ m v hl => t.pred_setPred_lane n j m v hl,
    fun _ _ hl => getLsbD_allLanes hl,
    fun _ _ hr hp hw => formCause_undeclared_iff hr hp hw⟩

end Sys2Proof.Machine
end

section
/-! SUPPORT. Scalar results (R90, R110, R111), and the proof of O3 from them. -/

namespace Sys2Proof.Machine

/-! ### The arithmetic of the scalar pipe -/

theorem mulHigh_eq (u : Bool) (a b : Word) :
    mulHigh u a b = if u then BitVec.ofNat 64 (a.toNat * b.toNat / 2 ^ 64) else BitVec.ofInt 64 (a.toInt * b.toInt / 2 ^ 64) := rfl

theorem atMost_iff (u : Bool) (a b : Word) :
    atMost u a b = true ↔ if u then a.toNat ≤ b.toNat else a.toInt ≤ b.toInt := by
  cases u <;> simp [atMost, BitVec.ule, BitVec.sle]

/-- A literal above the low half of a register (R111). -/
theorem append_low (w : Code) (a : Word) :
    w ++ a.extractLsb' 0 32 = BitVec.ofNat 64 (w.toNat * 2 ^ 32 + a.toNat % 2 ^ 32) := by
  apply BitVec.eq_of_toNat_eq
  have hw := w.isLt
  have ha : a.toNat % 2 ^ 32 < 2 ^ 32 := Nat.mod_lt _ (by decide)
  rw [BitVec.toNat_append, BitVec.extractLsb'_toNat, Nat.shiftRight_zero, ← Nat.shiftLeft_add_eq_or_of_lt ha,
    Nat.shiftLeft_eq, BitVec.toNat_ofNat]
  exact (Nat.mod_eq_of_lt (by omega)).symm

/-- The literal of a word lies beyond a body that ends at the word (R90). -/
theorem literalBeyond_iff (t : Team) : literalBeyond t = true ↔ t.trap.inh = false ∧ ∃ l ∈ t.loops, l.last = t.pc := by
  simp [literalBeyond]

/-! ### Forms -/

section
variable {k : Nat} {s : State} {t : Team}

theorem scalarOp_completes {i : Instr} {f : FmtS} {op : Word → Word → Word} {w : Word} (h : Ready s k t i)
    (he : exec i s = scalarOp i f s op) (hw : op (t.s f.sa) (t.s f.sb) = w) :
    ∃ s', exec i s = .next s' ∧ Completed i k s s' (t.setS f.sd w) := by
  subst hw
  rw [he]
  exact run_change h

theorem scalarImm_completes {i : Instr} {f : FmtSI} {op : Word → Word} (h : Ready s k t i)
    (he : exec i s = scalarImm i f s op) :
    ∃ s', exec i s = .next s' ∧ Completed i k s s' (t.setS f.sd (op (t.s f.sa))) := by
  rw [he]
  exact run_change h

/-- What SLIT and SLITH do with a value w. -/
def literalEffect (f : FmtSI) (w : Team → Word) (s : State) (k : Nat) (t : Team) : Did :=
  if literalBeyond t then .trap 8 {} s else .done (s.putTeam k (t.setS f.sd (w t)))

theorem literal_completes {i : Instr} {f : FmtSI} {w : Team → Word} (h : Ready s k t i)
    (he : exec i s = run i s (literalEffect f w s)) (hl : t.trap.inh = true ∨ ∀ l ∈ t.loops, l.last ≠ t.pc) :
    ∃ s', exec i s = .next s' ∧ Completed i k s s' (t.setS f.sd (w t)) := by
  rw [he]
  refine run_team h (if_neg fun hb => ?_)
  obtain ⟨hi, l, hm, hp⟩ := (literalBeyond_iff t).1 hb
  rcases hl with hl | hl
  · simp [hi] at hl
  · exact hl l hm hp

theorem literal_traps {i : Instr} {f : FmtSI} {w : Team → Word} (h : Ready s k t i)
    (he : exec i s = run i s (literalEffect f w s)) (hi : t.trap.inh = false) (hl : ∃ l ∈ t.loops, l.last = t.pc) :
    exec i s = .next (s.takeTrap k 8 {}) := by
  rw [he]
  exact run_trap h (if_pos ((literalBeyond_iff t).2 ⟨hi, hl⟩))

end

/-! ### The claims -/

theorem scalarResults_claim : Claim.ScalarResults := by
  intro x hx f s k t h
  simp only [List.mem_cons, List.not_mem_nil, or_false] at hx
  rcases hx with rfl | rfl | rfl | rfl | rfl | rfl | rfl | rfl | rfl | rfl | rfl | rfl | rfl
  iterate 3 exact scalarOp_completes h rfl rfl
  · exact scalarOp_completes h rfl (mulHigh_eq _ _ _)
  iterate 6 exact scalarOp_completes h rfl rfl
  · exact scalarOp_completes (op := fun a b => if atMost (f.f == 1) a b then a else b) h rfl (ite_eq_of_iff (atMost_iff _ _ _) _ _)
  · exact scalarOp_completes (op := fun a b => if atMost (f.f == 1) a b then b else a) h rfl (ite_eq_of_iff (atMost_iff _ _ _) _ _)
  · exact scalarOp_completes h rfl rfl

theorem scalarImmediates_claim : Claim.ScalarImmediates := by
  refine ⟨fun x hx f s k t h => ?_, fun x hx f w s k t h => ?_⟩
  · simp only [List.mem_cons, List.not_mem_nil, or_false] at hx
    rcases hx with rfl | rfl | rfl | rfl | rfl | rfl | rfl
    all_goals exact scalarImm_completes h rfl
  · have he : exec (x.1 f w) s = run (x.1 f w) s (literalEffect f (fun t => x.2 w (t.s f.sd)) s) := by
      simp only [List.mem_cons, List.not_mem_nil, or_false] at hx
      rcases hx with rfl | rfl
      · rfl
      · show execSlith f w s = _
        unfold execSlith
        simp only [append_low]
        rfl
    exact ⟨literal_completes h he, literal_traps h he⟩

/-- Settles O3: each form of row 0x07 is `scalarOp` of its operation and each immediate form of row 0x08 is `scalarImm` of it; SLIT
and SLITH write a value or raise cause 8 by the test that their literal lies beyond a body. -/
theorem scalarArithmetic : Obligations.ScalarArithmetic := ⟨scalarResults_claim, scalarImmediates_claim⟩

end Sys2Proof.Machine
end

section
/-! SUPPORT. Sub-elements of a lane and what the integer forms do with them (R100 to R113), and the proof of O4 from both. -/

namespace Sys2Proof.Machine

/-! ### Sub-elements (R100, R101) -/

/-- The sum of the first n members of a sequence. -/
def sumTo (g : Nat → Nat) : Nat → Nat
  | 0 => 0
  | n + 1 => sumTo g n + g n

theorem foldl_range_add (g : Nat → Nat) (n : Nat) : (List.range n).foldl (fun r i => r + g i) 0 = sumTo g n := by
  induction n with
  | zero => rfl
  | succ n ih => rw [List.range_succ, List.foldl_append, ih]; rfl

theorem sumTo_succ_first (g : Nat → Nat) (n : Nat) : sumTo g (n + 1) = sumTo (fun i => g (i + 1)) n + g 0 := by
  induction n with
  | zero => rfl
  | succ n ih => rw [sumTo, ih, sumTo]; omega

theorem sumTo_mul (g : Nat → Nat) (c n : Nat) : sumTo g n * c = sumTo (fun i => g i * c) n := by
  induction n with
  | zero => exact Nat.zero_mul c
  | succ n ih => rw [sumTo, Nat.add_mul, ih, sumTo]

/-- The number whose w-bit digits from the least significant one on are the first n of a sequence, each cut to its width. -/
def digitSum (w : Nat) (f : Nat → Nat) (n : Nat) : Nat := sumTo (fun e => f e % 2 ^ w * 2 ^ (w * e)) n

theorem digitSum_succ (w : Nat) (f : Nat → Nat) (n : Nat) :
    digitSum w f (n + 1) = digitSum w f n + 2 ^ (w * n) * (f n % 2 ^ w) := by
  rw [digitSum, sumTo, Nat.mul_comm (f n % 2 ^ w)]
  rfl

theorem pack_eq (w : Nat) (f : Nat → Nat) : pack w f = BitVec.ofNat 64 (digitSum w f (64 / w)) :=
  congrArg (BitVec.ofNat 64) (foldl_range_add _ _)

theorem digitSum_lt (w : Nat) (f : Nat → Nat) (n : Nat) : digitSum w f n < 2 ^ (w * n) := by
  induction n with
  | zero => exact Nat.two_pow_pos _
  | succ n ih =>
    have digit : f n % 2 ^ w + 1 ≤ 2 ^ w := Nat.mod_lt _ (Nat.two_pow_pos w)
    calc digitSum w f (n + 1) = digitSum w f n + 2 ^ (w * n) * (f n % 2 ^ w) := digitSum_succ w f n
      _ < 2 ^ (w * n) * (f n % 2 ^ w + 1) := by rw [Nat.mul_add_one]; omega
      _ ≤ 2 ^ (w * n) * 2 ^ w := Nat.mul_le_mul_left _ digit
      _ = 2 ^ (w * (n + 1)) := by rw [← Nat.pow_add, Nat.mul_add_one]

/-- Digit e of such a number is member e of the sequence: those above it are multiples of 2 ^ w there, and those below do not
reach it. -/
theorem digitSum_digit (w : Nat) (f : Nat → Nat) {n e : Nat} (h : e < n) :
    digitSum w f n / 2 ^ (w * e) % 2 ^ w = f e % 2 ^ w := by
  induction n with
  | zero => omega
  | succ n ih =>
    rw [digitSum_succ]
    by_cases he : e = n
    · subst he
      rw [Nat.add_mul_div_left _ _ (Nat.two_pow_pos _), Nat.div_eq_of_lt (digitSum_lt w f e), Nat.zero_add, Nat.mod_mod]
    · have above : 2 ^ (w * n) * (f n % 2 ^ w) = 2 ^ (w * e) * (2 ^ w * (2 ^ (w * (n - e - 1)) * (f n % 2 ^ w))) := by
        rw [← Nat.mul_assoc, ← Nat.mul_assoc, ← Nat.pow_add, ← Nat.pow_add, ← Nat.mul_add_one, ← Nat.mul_add,
          show e + 1 + (n - e - 1) = n by omega]
      rw [above, Nat.add_mul_div_left _ _ (Nat.two_pow_pos _), Nat.add_mul_mod_self_left]
      exact ih (by omega)

theorem elem_lt (w : Nat) (x : Word) (e : Nat) : elem w x e < 2 ^ w := Nat.mod_lt _ (Nat.two_pow_pos w)

theorem elem_zero (w : Nat) (x : Word) : elem w x 0 = x.toNat % 2 ^ w := by simp [elem]

/-- R100 for every width that divides a lane. -/
theorem elem_pack {w : Nat} (hw : w ∣ 64) (f : Nat → Nat) {e : Nat} (he : e < 64 / w) : elem w (pack w f) e = f e % 2 ^ w := by
  have fits := digitSum_lt w f (64 / w)
  rw [Nat.mul_div_cancel' hw] at fits
  rw [elem, pack_eq, BitVec.toNat_ofNat, Nat.mod_eq_of_lt fits]
  exact digitSum_digit w f he

/-- Only the low bits of each sub-element count. -/
theorem pack_congr {w : Nat} {f g : Nat → Nat} (h : ∀ e, f e % 2 ^ w = g e % 2 ^ w) : pack w f = pack w g := by
  simp only [pack, h]

/-! ### Operations on sub-elements -/

/-- A difference that wraps (R101). -/
theorem wrapped_sub (w a : Nat) {b : Nat} (hb : b < 2 ^ w) :
    (a + 2 ^ w - b) % 2 ^ w = low w (Int.ofNat a - Int.ofNat b) % 2 ^ w := by
  have pos : ((2 ^ w : Nat) : Int) ≠ 0 := Int.natCast_ne_zero.2 (Nat.ne_of_gt (Nat.two_pow_pos w))
  have cast : ((a + 2 ^ w - b : Nat) : Int) = (a - b : Int) + ((2 ^ w : Nat) : Int) := by omega
  have key : (((a + 2 ^ w - b) % 2 ^ w : Nat) : Int) = low w (Int.ofNat a - Int.ofNat b) := by
    rw [Int.natCast_emod, cast, Int.add_emod_right]
    exact (Int.toNat_of_nonneg (Int.emod_nonneg _ pos)).symm
  rw [← Int.ofNat_inj.1 key, Nat.mod_mod]

theorem ofNat_two_pow (n : Nat) : Int.ofNat (2 ^ n) = 2 ^ n := Int.natCast_pow 2 n

theorem sarE_eq (w a n : Nat) : sarE w a n = low w (sgn w a / 2 ^ n) := by rw [sarE, ofNat_two_pow]

theorem popcount_eq (x n : Nat) : popcount x n = ((List.range n).filter fun i => x.testBit i).length := by
  induction n with
  | zero => rfl
  | succ n ih =>
    rw [popcount, ih, List.range_succ, List.filter_append, List.length_append]
    cases hx : x.testBit n <;> simp [hx]

/-- Reversal from the lowest bit on gives each bit the weight of its mirror image. -/
theorem reverseBits_eq (w x : Nat) :
    reverseBits w x = (List.range w).foldl (fun r i => r + if x.testBit (w - 1 - i) then 2 ^ i else 0) 0 := by
  rw [foldl_range_add]
  induction w with
  | zero => rfl
  | succ w ih =>
    have step : reverseBits (w + 1) x = reverseBits w x * 2 + if x.testBit w then 1 else 0 := by
      rw [reverseBits, List.range_succ, List.foldl_append]
      rfl
    have mirror : ∀ i, (if x.testBit (w + 1 - 1 - (i + 1)) then 2 ^ (i + 1) else 0) =
        (if x.testBit (w - 1 - i) then 2 ^ i else 0) * 2 := by
      intro i
      rw [show w + 1 - 1 - (i + 1) = w - 1 - i by omega]
      cases x.testBit (w - 1 - i)
      · rfl
      · exact Nat.pow_succ ..
    rw [step, ih, sumTo_mul, sumTo_succ_first]
    simp only [mirror]
    rfl

theorem fieldLength_eq (w c : Nat) :
    fieldLength w c = if c % 256 < w then min (c / 256 % 256) (w - c % 256) else 0 :=
  ite_eq_of_iff (by rw [Nat.blt_eq]) _ _

theorem bfxE_eq (w a c : Nat) :
    bfxE w a c =
      let m := if c % 256 < w then min (c / 256 % 256) (w - c % 256) else 0
      let x := a / 2 ^ (c % 256) % 2 ^ m
      if m = 0 then 0 else if c.testBit 16 then low w (sgn m x) else x := by
  simp only [bfxE, fieldLength_eq, beq_iff_eq]

theorem satFlag_any {n : Nat} {p : Nat → Bool} [Decidable (∃ e < n, p e = true)] :
    satFlag ((List.range n).any p) = if ∃ e < n, p e = true then flSAT else 0 := by
  rw [satFlag]
  exact ite_eq_of_iff (by simp [List.any_eq_true]) _ _

theorem each2_sub (w : Nat) (a b : Word) :
    each2 w (fun a b => a + 2 ^ w - b) a b = each2 w (fun a b => low w (Int.ofNat a - Int.ofNat b)) a b :=
  congrArg (·, 0) (pack_congr fun _ => wrapped_sub w _ (elem_lt _ _ _))

theorem eachS_sub (w : Nat) (a x : Word) :
    eachS w (fun a t => a + 2 ^ w - t) a x = eachS w (fun a t => low w (Int.ofNat a - Int.ofNat t)) a x :=
  pack_congr fun _ => wrapped_sub w _ (elem_lt _ _ _)

/-! ### Forms -/

section
variable {s : State} {k : Nat} {t : Team} {i : Instr} {srcs : List Nat}

theorem vectorForm_result {f : FmtV} {op : Word → Word → Word → Word × BitVec 6} {g : Nat → Word × BitVec 6}
    (he : exec i s = vectorForm i f srcs s op)
    (hg : ∀ l, op (t.lane f.d.toNat l) (t.lane f.a.toNat l) (t.lane f.b.toNat l) = g l) :
    VectorResult i s k t srcs f.d.toNat (t.takers f.g) g := by
  obtain rfl : _ = g := funext hg
  intro h hp hr
  rw [he]
  exact run_passes h hp hr

/-- A form that applies one operation to the sub-elements of two lanes. -/
theorem each2_result {f : FmtV} {op : Nat → Nat → Nat}
    (he : exec i s = vectorForm i f srcs s fun _ a b => each2 (widthOf f.t) op a b) :
    VectorResult i s k t srcs f.d.toNat (t.takers f.g) fun l =>
      (pack (widthOf f.t) fun e =>
        op (elem (widthOf f.t) (t.lane f.a.toNat l) e) (elem (widthOf f.t) (t.lane f.b.toNat l) e), 0) :=
  vectorForm_result he fun _ => rfl

/-- A saturating form, which sets SAT where it clamps a sub-element (R101, R107). -/
theorem eachSat_result {f : FmtV} {op : Nat → Nat → Nat × Bool}
    (he : exec i s = vectorForm i f srcs s fun _ a b => eachSat (widthOf f.t) op a b) :
    VectorResult i s k t srcs f.d.toNat (t.takers f.g) fun l =>
      let r := fun e => op (elem (widthOf f.t) (t.lane f.a.toNat l) e) (elem (widthOf f.t) (t.lane f.b.toNat l) e)
      (pack (widthOf f.t) fun e => (r e).1, if ∃ e < 64 / widthOf f.t, (r e).2 = true then flSAT else 0) :=
  vectorForm_result he fun _ => congrArg (_, ·) satFlag_any

/-- A form on the 32-bit sub-elements of a lane (R106). -/
theorem immediateForm_result {f : FmtVI} {op : Nat → Nat} (he : exec i s = immediateForm i f s op) :
    VectorResult i s k t [f.a.toNat] f.d.toNat (t.takers f.g)
      fun l => (pack 32 fun e => op (elem 32 (t.lane f.a.toNat l) e), 0) := by
  intro h hp hr
  rw [he]
  exact run_passes h hp hr

theorem scalarForm_result {f : FmtVS} {op : Word → Word → Word} (he : exec i s = scalarForm i f srcs s op) :
    VectorResult i s k t srcs f.d.toNat (t.takers f.g) fun l => (op (t.lane f.a.toNat l) (t.s f.s), 0) := by
  intro h hp hr
  rw [he]
  exact run_passes h hp hr

/-- A form that applies one operation to the sub-elements of a lane and the low bits of a scalar (R112). -/
theorem eachS_result {f : FmtVS} {op : Nat → Nat → Nat}
    (he : exec i s = scalarForm i f srcs s fun x y => eachS (widthOf f.t) op x y) :
    VectorResult i s k t srcs f.d.toNat (t.takers f.g) fun l =>
      (pack (widthOf f.t) fun e =>
        op (elem (widthOf f.t) (t.lane f.a.toNat l) e) ((t.s f.s).toNat % 2 ^ widthOf f.t), 0) := by
  simp only [← elem_zero]
  exact scalarForm_result he

end

/-! ### The claims -/

theorem subElements_claim : Claim.SubElements := by
  intro w hw f e he
  have divides : ∀ w ∈ [4, 8, 16, 32, 64], w ∣ 64 := by decide
  exact elem_pack (divides w hw) f he

theorem integerResults_claim : Claim.IntegerResults := by
  refine ⟨fun x hx f s k t => ?_, fun f s k t => vectorForm_result rfl fun _ => rfl⟩
  have he : exec (x.1 f) s = vectorForm (x.1 f) f [f.a.toNat, f.b.toNat] s fun _ a b =>
      each2 (widthOf f.t) (x.2 (widthOf f.t)) a b := by
    simp only [List.mem_cons, List.not_mem_nil, or_false] at hx
    rcases hx with rfl | rfl | rfl | rfl | rfl | rfl | rfl | rfl | rfl | rfl | rfl | rfl | rfl | rfl | rfl
    · rfl
    · show execIsub f s = _
      simp only [execIsub, each2_sub]
    · rfl
    · show execImulh f s = _
      simp only [execImulh, ofNat_two_pow]
    iterate 10 rfl
    · show execSar f s = _
      simp only [execSar, sarE_eq]
  exact each2_result he

theorem immediateResults_claim : Claim.ImmediateResults := by
  intro x hx f s k t
  have he : exec (x.1 f) s = immediateForm (x.1 f) f s (x.2 f.imm) := by
    simp only [List.mem_cons, List.not_mem_nil, or_false] at hx
    rcases hx with rfl | rfl | rfl | rfl | rfl | rfl | rfl | rfl
    iterate 7 rfl
    · show execSari f s = _
      simp only [execSari, sarE_eq]
  exact immediateForm_result he

theorem bitFormResults_claim : Claim.BitFormResults := by
  refine ⟨fun x hx f s k t => ?_, fun f s k t => ?_, fun f s k t => vectorForm_result rfl fun _ => rfl, fun x hx f s k t => ?_,
    fun f s k t => ?_⟩
  · have he : exec (x.1 f) s = vectorForm (x.1 f) f [f.a.toNat] s fun _ a b =>
        each2 (widthOf f.t) (fun a _ => x.2 (widthOf f.t) a) a b := by
      simp only [List.mem_cons, List.not_mem_nil, or_false] at hx
      rcases hx with rfl | rfl | rfl
      · show execPopc f s = _
        simp only [execPopc, popcount_eq]
      · rfl
      · show execBrev f s = _
        simp only [execBrev, reverseBits_eq]
    exact each2_result he
  · have he : exec (.bfx f) s = vectorForm (.bfx f) f [f.a.toNat, f.b.toNat] s fun _ a b =>
        each2 (widthOf f.t) (bfxE (widthOf f.t)) a b := rfl
    simp only [← bfxE_eq]
    exact each2_result he
  · have he : exec (x.1 f) s = vectorForm (x.1 f) f [f.a.toNat, f.b.toNat] s fun _ a b =>
        eachSat (widthOf f.t) (x.2 (widthOf f.t)) a b := by
      simp only [List.mem_cons, List.not_mem_nil, or_false] at hx
      rcases hx with rfl | rfl | rfl | rfl
      iterate 4 rfl
    exact eachSat_result he
  · intro h hp hr
    rw [show exec (.sel f) s = execSel f s from rfl, execSel]
    exact run_passes h hp hr

theorem scalarOperandResults_claim : Claim.ScalarOperandResults := by
  refine ⟨fun x hx f s k t => ?_, fun f s k t => ?_, fun f s k t => ?_⟩
  · have he : exec (x.1 f) s = scalarForm (x.1 f) f [f.a.toNat] s fun a y =>
        eachS (widthOf f.t) (x.2 (widthOf f.t)) a y := by
      simp only [List.mem_cons, List.not_mem_nil, or_false] at hx
      rcases hx with rfl | rfl | rfl | rfl | rfl
      · rfl
      · show execSubs f s = _
        simp only [execSubs, eachS_sub]
      iterate 3 rfl
    exact eachS_result he
  · have he : exec (.bcast f) s = scalarForm (.bcast f) f [] s fun a y => eachS (widthOf f.t) (fun _ t => t) a y := rfl
    exact eachS_result he
  · have he : exec (.lea f) s = scalarForm (.lea f) f [f.a.toNat] s fun a y =>
        y + ((a.extractLsb' 0 32).signExtend 64 <<< f.t.toNat) := rfl
    exact scalarForm_result he

/-- Settles O4: each form is `vectorForm`, `immediateForm` or `scalarForm` of an operation on sub-elements, so that it runs its passes
on the lanes it takes; what remains is the arithmetic of one sub-element. -/
theorem integerArithmetic : Obligations.IntegerArithmetic :=
  ⟨subElements_claim, integerResults_claim, immediateResults_claim, bitFormResults_claim, scalarOperandResults_claim⟩

end Sys2Proof.Machine
end

section
/-! SUPPORT. What compares and predicate logic write (R114 to R117), and the proofs of O5 and O6 from it. -/

namespace Sys2Proof.Machine

/-! ### Predicates that a form writes in the active lanes -/

/-- A mask from a test of each lane is true where the test holds below its width (R17). -/
theorem maskOf_getLsbD (w : Nat) (f : Nat → Bool) {l : Nat} (h : l < 1024) :
    (maskOf w f).getLsbD l = (decide (l < w) && f l) := by
  induction w with
  | zero => simp [maskOf]
  | succ w ih =>
    have step : maskOf (w + 1) f = if f w then maskOf w f ||| (1#1024 <<< w) else maskOf w f := by
      simp only [maskOf, List.range_succ, List.foldl_append, List.foldl_cons, List.foldl_nil]
    have bit : (1#1024 <<< w).getLsbD l = decide (l = w) := by
      rw [← BitVec.twoPow_eq, BitVec.getLsbD_twoPow, Bool.eq_iff_iff]
      simp only [Bool.and_eq_true, decide_eq_true_eq]
      omega
    rw [step]
    by_cases hl : l = w
    · subst hl
      cases hf : f l <;> simp [hf, ih, bit]
    · have below : decide (l < w + 1) = decide (l < w) := decide_eq_decide.2 (by omega)
      rw [below]
      cases f w <;> simp [ih, bit, hl]

/-- The field of a predicate other than p0. -/
theorem pred_field_ne_zero (pd : BitVec 7) : pd.toNat ≠ 0 ↔ pd ≠ 0 := not_congr (BitVec.toNat_inj (y := 0))

/-- A lane of the predicate that a field names, after a write (R103, R114). -/
theorem Team.pred_setPred_field (t : Team) (pd : BitVec 7) (m v : Mask) {l : Nat} (h : l < 1024) :
    ((t.setPred pd.toNat m v).pred pd.toNat).getLsbD l =
      if pd ≠ 0 ∧ m.getLsbD l then v.getLsbD l else (t.pred pd.toNat).getLsbD l := by
  rw [t.pred_setPred_lane pd.toNat pd.toNat m v h]
  exact ite_eq_of_iff (by rw [pred_field_ne_zero]; simp) _ _

section
variable {s : State} {k : Nat} {t : Team} {i : Instr}

/-- A form that sets a predicate in the active lanes completes, and changes nothing else of its team (R116, R117). -/
theorem run_setPred {e : Nat → Team → Did} {pd : BitVec 7} {v : Mask} {g : Nat → Bool} (h : Ready s k t i)
    (he : e k t = .done (s.putTeam k (t.setPred pd.toNat t.active v))) (hg : ∀ l, l < 1024 → v.getLsbD l = g l) :
    ∃ s' u, run i s e = .next s' ∧ Completed i k s s' u ∧
      (∀ l, l < 1024 → (u.pred pd.toNat).getLsbD l =
        if pd ≠ 0 ∧ t.active.getLsbD l then g l else (t.pred pd.toNat).getLsbD l) ∧
      (∀ j, j ≠ pd.toNat → u.pred j = t.pred j) ∧ u = { t with p := u.p } := by
  obtain ⟨s', hs, hc⟩ := run_team h he
  refine ⟨s', _, hs, hc, fun l hl => ?_, fun j hj => t.pred_setPred_ne hj _ _, t.setPred_eq _ _ _⟩
  rw [t.pred_setPred_field pd _ _ hl, hg l hl]

/-- The team whose passes have all written a predicate in the active lanes (R102, R114). -/
def Team.compared (t : Team) (pd : Nat) (f : Nat → Bool × BitVec 6) : Team :=
  (t.setPred pd (t.active &&& rowsMask t.resume 32) (maskOf t.width fun l => (f l).1)).flag
    (flagsOf (t.active &&& rowsMask t.resume 32) t.width fun l => (f l).2)

theorem predicatePasses_done {srcs : List Nat} (hp : t.poisonStop srcs = none) (pd : Nat) (f : Nat → Bool × BitVec 6) :
    predicatePasses s k t srcs pd f = .done (s.putTeam k (t.compared pd f)) := by
  simp only [predicatePasses, hp]
  rfl

theorem Team.pred_compared (t : Team) (pd j : Nat) (f : Nat → Bool × BitVec 6) :
    (t.compared pd f).pred j =
      (t.setPred pd (t.active &&& rowsMask t.resume 32) (maskOf t.width fun l => (f l).1)).pred j := rfl

theorem Team.pred_compared_lane (t : Team) (pd : BitVec 7) (f : Nat → Bool × BitVec 6) (hw : t.width ≤ 1024) {l : Nat}
    (hl : l < t.width) :
    ((t.compared pd.toNat f).pred pd.toNat).getLsbD l =
      if pd ≠ 0 ∧ t.active.getLsbD l ∧ 32 * t.resume ≤ l then (f l).1 else (t.pred pd.toNat).getLsbD l := by
  have h : l < 1024 := by omega
  rw [Team.pred_compared, t.pred_setPred_field pd _ _ h, maskOf_getLsbD _ _ h, decide_eq_true hl, Bool.true_and, and_rowsMask]
  exact ite_eq_of_iff (by simp) _ _

theorem Team.nflags_setPred (t : Team) (n : Nat) (m v : Mask) : (t.setPred n m v).nflags = t.nflags := by
  rw [t.setPred_eq]

theorem Team.nflags_compared (t : Team) (pd b : Nat) (f : Nat → Bool × BitVec 6) :
    (t.compared pd f).nflags.getLsbD b = (t.nflags.getLsbD b || (List.range t.width).any fun l =>
      t.active.getLsbD l && Nat.ble (32 * t.resume) l && (f l).2.getLsbD b) := by
  have ble : ∀ a b : Nat, decide (a ≤ b) = Nat.ble a b := fun a b => by rw [Bool.eq_iff_iff, decide_eq_true_iff, Nat.ble_eq]
  simp only [Team.compared, Team.flag, Team.nflags_setPred, BitVec.getLsbD_or, flagsOf_getLsbD, and_rowsMask, ble]

theorem Team.compared_eq (t : Team) (pd : Nat) (f : Nat → Bool × BitVec 6) :
    t.compared pd f = { t with p := (t.compared pd f).p, nflags := (t.compared pd f).nflags } := by
  unfold Team.compared
  rw [t.setPred_eq]
  rfl

/-- A vector compare whose sources are not poisoned completes, and writes one predicate and its flags (R114, R115). -/
theorem run_predicatePasses {e : Nat → Team → Did} {srcs : List Nat} {pd : BitVec 7} {f : Nat → Bool × BitVec 6}
    (hw : t.width ≤ 1024) (h : Ready s k t i) (hp : t.poisonStop srcs = none)
    (he : e k t = predicatePasses s k t srcs pd.toNat f) :
    ∃ s' u, run i s e = .next s' ∧ Completed i k s s' u ∧
      (∀ l, l < t.width → (u.pred pd.toNat).getLsbD l =
        if pd ≠ 0 ∧ t.active.getLsbD l ∧ 32 * t.resume ≤ l then (f l).1 else (t.pred pd.toNat).getLsbD l) ∧
      (∀ j, j ≠ pd.toNat → u.pred j = t.pred j) ∧
      (∀ b, u.nflags.getLsbD b = (t.nflags.getLsbD b || (List.range t.width).any fun l =>
        t.active.getLsbD l && Nat.ble (32 * t.resume) l && (f l).2.getLsbD b)) ∧
      u = { t with p := u.p, nflags := u.nflags } := by
  obtain ⟨s', hs, hc⟩ := run_team h (he.trans (predicatePasses_done hp _ _))
  exact ⟨s', _, hs, hc, fun l hl => t.pred_compared_lane pd f hw hl, fun j hj => t.pred_setPred_ne hj _ _,
    fun b => t.nflags_compared _ b f, t.compared_eq _ f⟩

end

/-! ### Compares -/

theorem sgn_toNat (a : Word) : sgn 64 a.toNat = a.toInt := by
  rw [sgn, BitVec.toInt_eq_toNat_cond]
  refine ite_eq_of_iff ?_ _ _
  rw [Nat.blt_eq]
  omega

theorem orderOf_words (k : BitVec 2) (a b : Word) :
    orderOf 64 k a.toNat b.toNat = if k = 0 then a.toInt - b.toInt else Int.ofNat a.toNat - Int.ofNat b.toNat := by
  rw [orderOf, sgn_toNat, sgn_toNat]
  exact ite_eq_of_iff beq_iff_eq _ _

theorem vectorCompares_claim : Claim.VectorCompares := by
  intro x hx f s k t hw h hp
  have he : exec (x.1 f) s = run (x.1 f) s fun k t => predicatePasses s k t (x.2.1 f t) f.pd.toNat (x.2.2 f t) := by
    simp only [List.mem_cons, List.not_mem_nil, or_false] at hx
    rcases hx with rfl | rfl | rfl
    iterate 3 rfl
  rw [he]
  exact run_predicatePasses hw h hp rfl

theorem scalarCompare_claim : Claim.ScalarCompare := by
  intro f s k t h
  rw [show exec (.scmp f) s = execScmp f s from rfl, execScmp]
  simp only [← orderOf_words]
  refine run_setPred h rfl fun l hl => ?_
  split
  · rename_i hv
    rw [hv]
    exact getLsbD_allLanes hl
  · rename_i hv
    rw [Bool.eq_false_iff.2 hv]
    exact BitVec.getLsbD_zero

/-- Settles O5: a vector compare runs `predicatePasses`, which writes one predicate and ORs its flags, and SCMP sets a predicate to
all lanes or to none. -/
theorem compares : Obligations.Compares := ⟨vectorCompares_claim, scalarCompare_claim⟩

/-! ### Predicate logic -/

theorem predicateLogic_result {f : FmtPL} {s : State} {k : Nat} {t : Team} {i : Instr} {op : Mask → Mask → Mask}
    {spec : Bool → Bool → Bool} (h : Ready s k t i) (he : exec i s = predicateLogic i f s op)
    (ho : ∀ (a b : Mask) l, l < 1024 → (op a b).getLsbD l = spec (a.getLsbD l) (b.getLsbD l)) :
    ∃ s' u, exec i s = .next s' ∧ Completed i k s s' u ∧
      (∀ l, l < 1024 → (u.pred f.pd.toNat).getLsbD l =
        if f.pd ≠ 0 ∧ t.active.getLsbD l then spec ((t.pred f.pa.toNat).getLsbD l) ((t.pred f.pb.toNat).getLsbD l)
        else (t.pred f.pd.toNat).getLsbD l) ∧
      (∀ j, j ≠ f.pd.toNat → u.pred j = t.pred j) ∧ u = { t with p := u.p } := by
  rw [he]
  exact run_setPred h rfl fun l hl => ho _ _ l hl

/-- Settles O6: each form of row 0x0D sets a predicate to an operation on two masks, taken lane by lane, and a field that must be
zero is one of the checks of a word's fields. -/
theorem predicateLogicForms : Obligations.PredicateLogic := by
  refine ⟨fun x hx f s k t h => ?_, fun f t hr => ⟨fun hb => ?_, fun hab => ?_⟩⟩
  · simp only [List.mem_cons, List.not_mem_nil, or_false] at hx
    rcases hx with rfl | rfl | rfl | rfl | rfl | rfl | rfl | rfl
    · exact predicateLogic_result h rfl fun _ _ _ _ => BitVec.getLsbD_and
    · exact predicateLogic_result h rfl fun _ _ _ _ => BitVec.getLsbD_or
    · exact predicateLogic_result h rfl fun _ _ _ _ => BitVec.getLsbD_xor
    · exact predicateLogic_result (op := fun a b => a &&& ~~~b) h rfl fun a b l hl => by simp [hl]
    · exact predicateLogic_result (op := fun a _ => ~~~a) h rfl fun a _ l hl => by simp [hl]
    · exact predicateLogic_result (op := fun a _ => a) h rfl fun _ _ _ _ => rfl
    · exact predicateLogic_result (op := fun _ _ => BitVec.allOnes 1024) h rfl fun _ _ _ hl => getLsbD_allLanes hl
    · exact predicateLogic_result (op := fun _ _ => 0) h rfl fun _ _ _ _ => BitVec.getLsbD_zero
  · have hw : (f.pb == 0) = false := beq_false_of_ne hb
    exact ⟨formCause_badField hr rfl hw, formCause_badField hr rfl hw⟩
  · have hw : (f.pa == 0 && f.pb == 0) = false := by
      rw [Bool.and_eq_false_iff, beq_eq_false_iff_ne, beq_eq_false_iff_ne]
      exact hab
    exact ⟨formCause_badField hr rfl hw, formCause_badField hr rfl hw⟩

end Sys2Proof.Machine
end

section
/-! SUPPORT. Index registers, register moves and the controls of the reuse table (R122, R123, R138 to R142), and the proofs of O7
and O8 from them. -/

namespace Sys2Proof.Machine

/-- A form whose effect only changes its team completes. -/
theorem exec_team {s : State} {k : Nat} {t u : Team} {i : Instr} {e : Nat → Team → Did} (h : Ready s k t i)
    (he : exec i s = run i s e) (hd : e k t = .done (s.putTeam k u)) : ∃ s', exec i s = .next s' ∧ Completed i k s s' u := by
  rw [he]
  exact run_team h hd

/-! ### Index registers -/

theorem exec_xset (f : FmtV) (s : State) : exec (.xset f) s = run (.xset f) s fun k t =>
    .done (s.putTeam k { t with x := t.x.set f.d.toNat ((t.s f.a).extractLsb' 0 16) }) := rfl

theorem exec_xadd (f : FmtV) (s : State) : exec (.xadd f) s = run (.xadd f) s fun k t =>
    .done (s.putTeam k { t with x := t.x.set f.d.toNat ((t.x.getD f.d.toNat 0).extractLsb' 8 8 ++
      ((t.x.getD f.d.toNat 0).extractLsb' 0 8 + (t.s f.a).extractLsb' 0 8)) }) := rfl

theorem exec_xget (f : FmtV) (s : State) : exec (.xget f) s = run (.xget f) s fun k t =>
    .done (s.putTeam k (t.setS f.d ((t.x.getD f.a.toNat 0).setWidth 64))) := rfl

/-- XADD keeps the upper byte of an index register and moves the lower one modulo 256 (R140). -/
theorem xadd_bytes (hi lo : BitVec 8) (w : Word) :
    (hi ++ (lo + w.extractLsb' 0 8)).extractLsb' 8 8 = hi ∧
      ((hi ++ (lo + w.extractLsb' 0 8)).extractLsb' 0 8).toNat = (lo.toNat + w.toNat % 256) % 256 := by
  refine ⟨BitVec.extractLsb'_append_eq_left, ?_⟩
  rw [BitVec.extractLsb'_append_eq_right, BitVec.toNat_add, BitVec.extractLsb'_toNat]
  rfl

/-- An index register as a number: LCODE above BASE (R122, R140). -/
theorem xget_bytes (x : BitVec 16) :
    x.setWidth 64 = BitVec.ofNat 64 ((x.extractLsb' 8 8).toNat * 256 + (x.extractLsb' 0 8).toNat) := by
  apply BitVec.eq_of_toNat_eq
  have hx := x.isLt
  simp only [BitVec.toNat_setWidth, BitVec.toNat_ofNat, BitVec.extractLsb'_toNat, Nat.shiftRight_eq_div_pow]
  omega

/-- Settles O7: each form changes its team alone, XSET and XADD by one index register and XGET by one scalar register; what is left
is that an index register is two bytes. -/
theorem indexRegisters : Obligations.IndexRegisters := by
  refine fun f s k t _ => ⟨fun h => exec_team h (exec_xset f s) rfl, fun h => ?_, fun h => ?_⟩
  · obtain ⟨s', hs, hc⟩ := exec_team h (exec_xadd f s) rfl
    obtain ⟨upper, lower⟩ := xadd_bytes ((t.x.getD f.d.toNat 0).extractLsb' 8 8) ((t.x.getD f.d.toNat 0).extractLsb' 0 8) (t.s f.a)
    exact ⟨s', _, hs, hc, upper, lower⟩
  · rw [← xget_bytes]
    exact exec_team h (exec_xget f s) rfl

/-! ### Register moves -/

section
variable {s : State} {k : Nat} {t : Team} {i : Instr} {g : BitVec 4} {d src x n : Nat}

/-- A form that copies lanes of one register to another (R139). -/
theorem copyLanes_result {e : Nat → Team → Did} (he : exec i s = run i s e) (hc : e k t = copyLanes s k t i g d src) :
    VectorResult i s k t [src] d (t.takers g) fun l => (t.lane src l, 0) := by
  intro h hp hr
  rw [he]
  exact passes_result h hp hr hc

/-- The checks of an indexed register number pass below the limit and the declared count (R123). -/
theorem indexCause_none (hx : n < t.xLimit x) (hn : n < t.vdecl) : indexCause t x n = none := by
  simp [indexCause, Nat.not_le.2 hx, Nat.not_le.2 hn]

theorem indexCause_limit (hx : t.xLimit x ≤ n) : indexCause t x n = some 40 := by
  simp [indexCause, hx]

theorem indexCause_undeclared (hx : n < t.xLimit x) (hn : t.vdecl ≤ n) : indexCause t x n = some 41 := by
  simp [indexCause, Nat.not_le.2 hx, hn]

/-- What XRD and XWR do where index register x gives register number n: a cause, or a copy of lanes (R123, R139). -/
def indexedCopy (s : State) (i : Instr) (g : BitVec 4) (x n d src : Nat) (k : Nat) (t : Team) : Did :=
  match indexCause t x n with
  | some c => .trap c {} s
  | none => copyLanes s k t i g d src

theorem indexedCopy_result {e : Nat → Team → Did} (he : exec i s = run i s e)
    (hc : e k t = indexedCopy s i g x n d src k t) (hx : n < t.xLimit x) (hn : n < t.vdecl) :
    VectorResult i s k t [src] d (t.takers g) fun l => (t.lane src l, 0) :=
  copyLanes_result he (by rw [hc, indexedCopy, indexCause_none hx hn])

/-- The stops of a form that goes through an index register: cause 40 from its limit on, and below it cause 41 from the declared
count on (R123). -/
theorem indexedCopy_traps {e : Nat → Team → Did} (h : Ready s k t i) (he : exec i s = run i s e)
    (hc : e k t = indexedCopy s i g x n d src k t) :
    (t.xLimit x ≤ n → exec i s = .next (s.takeTrap k 40 {})) ∧
      (n < t.xLimit x → t.vdecl ≤ n → exec i s = .next (s.takeTrap k 41 {})) := by
  rw [he]
  refine ⟨fun hx => run_trap h ?_, fun hx hn => run_trap h ?_⟩
  · rw [hc, indexedCopy, indexCause_limit hx]
  · rw [hc, indexedCopy, indexCause_undeclared hx hn]

end

theorem exec_mov (f : FmtV) (s : State) : exec (.mov f) s =
    run (.mov f) s fun k t => copyLanes s k t (.mov f) f.g f.d.toNat f.a.toNat := rfl

theorem exec_xrd (f : FmtV) (s : State) : exec (.xrd f) s = run (.xrd f) s fun k t =>
    indexedCopy s (.xrd f) f.g f.a.toNat (t.xBase f.a.toNat + f.b.toNat) f.d.toNat (t.xBase f.a.toNat + f.b.toNat) k t := rfl

theorem exec_xwr (f : FmtV) (s : State) : exec (.xwr f) s = run (.xwr f) s fun k t =>
    indexedCopy s (.xwr f) f.g f.d.toNat (t.xBase f.d.toNat + f.b.toNat) (t.xBase f.d.toNat + f.b.toNat) f.a.toNat k t := rfl

theorem registerMoves_claim : Claim.RegisterMoves := by
  refine ⟨fun f s k t => copyLanes_result (exec_mov f s) rfl, fun f s k t hx hn => indexedCopy_result (exec_xrd f s) rfl hx hn,
    fun f s k t hx hn => indexedCopy_result (exec_xwr f s) rfl hx hn, fun x hx f s k t h => ?_⟩
  simp only [List.mem_cons, List.not_mem_nil, or_false] at hx
  rcases hx with rfl | rfl
  · exact indexedCopy_traps h (exec_xrd f s) rfl
  · exact indexedCopy_traps h (exec_xwr f s) rfl

/-! ### The controls of the reuse table -/

/-- An instruction whose effect only changes one core completes; its issuer is past the word, and each core is as the effect left
it but for its issue run (R63). -/
theorem exec_core {s : State} {k c : Nat} {t : Team} {x : Core} {i : Instr} {e : Nat → Team → Did} (h : Ready s k t i)
    (he : exec i s = run i s e) (hd : e k t = .done (s.putCore c x)) :
    ∃ s', exec i s = .next s' ∧ (s'.team? k).map Team.timeless = some (t.advance (chainBit i) (wordsOf i)).timeless ∧
      (s'.core c).still = x.still ∧ (∀ d, d ≠ c → (s'.core d).still = (s.core d).still) ∧
      s' = { s with teams := s'.teams, cores := s'.cores } ∧ SameMemory s s' := by
  have ⟨_, issuer, _⟩ := h
  obtain ⟨past, only⟩ := complete_spec (s.putCore c x) k t i t issuer
  refine ⟨_, he.trans (run_done h hd), past, ?_, fun d hne => ?_, rest_trans rfl only.rest, only.memory⟩
  · rw [only.cores, State.core_putCore, if_pos rfl]
  · rw [only.cores, State.core_putCore, if_neg hne]

/-- The core on which team t has cleared its reuse: what RCLR leaves (R142). -/
def Core.reuseCleared (x : Core) (t : Team) : Core :=
  { x with
    reuse := x.reuse.filter fun e => !(e.team == t.uid || (e.load && e.ctx == t.ctx))
    lines := x.lines.filter fun l => !(l.ctx == t.ctx && l.ro) }

theorem Core.mem_reuse_reuseCleared (x : Core) (t : Team) (e : ReuseEntry) :
    e ∈ (x.reuseCleared t).reuse ↔ e ∈ x.reuse ∧ e.team ≠ t.uid ∧ ¬(e.load = true ∧ e.ctx = t.ctx) := by
  simp only [Core.reuseCleared, List.mem_filter, Bool.not_eq_true', ← Bool.not_eq_true, Bool.or_eq_true, Bool.and_eq_true,
    beq_iff_eq, not_or, ne_eq]

theorem Core.mem_lines_reuseCleared (x : Core) (t : Team) (l : Line) :
    l ∈ (x.reuseCleared t).lines ↔ l ∈ x.lines ∧ ¬(l.ctx = t.ctx ∧ l.ro = true) := by
  simp only [Core.reuseCleared, List.mem_filter, Bool.not_eq_true', ← Bool.not_eq_true, Bool.and_eq_true, beq_iff_eq]

@[simp] theorem Core.still_reuse (x : Core) : x.still.reuse = x.reuse := rfl
@[simp] theorem Core.still_lines (x : Core) : x.still.lines = x.lines := rfl

theorem exec_ruse (f : FmtV) (s : State) : exec (.ruse f) s =
    run (.ruse f) s fun k t => .done (s.putTeam k { t with policy := f.t.toNat }) := rfl

theorem exec_rclr (f : FmtV) (s : State) : exec (.rclr f) s =
    run (.rclr f) s fun k t => .done (s.putCore (coreOf k) ((s.core (coreOf k)).reuseCleared t)) := rfl

theorem reuseControl_claim : Claim.ReuseControl := by
  refine fun f s k t => ⟨fun h => exec_team h (exec_ruse f s) rfl, fun h => ?_⟩
  obtain ⟨s', hs, past, own, others, rest, memory⟩ := exec_core h (exec_rclr f s) rfl
  have reuse := congrArg Core.reuse own
  have lines := congrArg Core.lines own
  rw [Core.still_reuse, Core.still_reuse] at reuse
  rw [Core.still_lines, Core.still_lines] at lines
  refine ⟨s', hs, past, others, fun e => ?_, fun l => ?_, ?_, rest, memory⟩
  · rw [reuse, Core.mem_reuse_reuseCleared]
  · rw [lines, Core.mem_lines_reuseCleared]
  · rw [own, reuse, lines]
    rfl

/-- Settles O8: MOV, XRD and XWR run the passes of a copy of lanes, the latter two after the checks of the number that an index
register gives; RUSE changes its team alone, and RCLR filters two lists of its core. -/
theorem movesAndReuse : Obligations.MovesAndReuse := ⟨registerMoves_claim, reuseControl_claim⟩

end Sys2Proof.Machine
end

section
/-! SUPPORT. Row 0x18 without COMPACT (R175 to R182, R187): the names of what a word writes, the places of a scan, single lanes
and votes, and the proof of O10 from them. -/

namespace Sys2Proof.Machine

/-! ### Names for what a word has written (R124, R129) -/

/-- A slice that is named takes one place of the store at most. -/
theorem nameSlice_some (s : State) (k kept : Nat) (after : Team) (r row : Nat) (busy : List Nat)
    (h : (s.core (coreOf k)).slices.length + kept < sliceRoom) :
    ∃ s', s.nameSlice k kept after r row busy = some s' ∧ Stored 1 (coreOf k) s s' := by
  obtain ⟨s1, id, named, stored⟩ := nameValue_some s (coreOf k) kept (after.slice r row) (after.poisonOf r row).isSome
    (s.nameOf k r row :: busy) h
  exact ⟨_, by rw [State.nameSlice, named], stored.trans (stored_mapSlice _ _ _ _)⟩

/-- Slice after slice finds its place where the store has one for each, beside those that are kept. -/
theorem foldlM_nameSlice_some (k kept : Nat) (after : Team) (rs : List (Nat × Nat)) (s : State)
    (h : (s.core (coreOf k)).slices.length + kept + rs.length ≤ sliceRoom) :
    ∃ s', rs.foldlM (fun (a : State) x => a.nameSlice k kept after x.1 x.2 []) s = some s' ∧
      Quiet (fun t => t) Core.stillReuse s s' := by
  induction rs generalizing s with
  | nil => exact ⟨s, rfl, Quiet.refl _ _ _⟩
  | cons x rs ih =>
    rw [List.length_cons] at h
    obtain ⟨s1, first, stored⟩ := nameSlice_some s k kept after x.1 x.2 [] (by omega)
    obtain ⟨s2, others, quiet⟩ := ih s1 (by have := stored.room; omega)
    exact ⟨s2, by rw [List.foldlM_cons, first]; exact others, stored.quiet.trans quiet⟩

theorem rowBits_beyond (m : Mask) {row : Nat} (h : 32 ≤ row) : rowBits m row = 0 := by
  apply BitVec.eq_of_getLsbD_eq
  intro i _
  rw [rowBits, BitVec.getLsbD_extractLsb', BitVec.getLsbD_of_ge m _ (by omega), Bool.and_false]
  exact BitVec.getLsbD_zero.symm

theorem lt_of_mem_passesLeft {t : Team} {row : Nat} (h : row ∈ t.passesLeft) : row < 32 := by
  obtain ⟨executed, _⟩ := List.mem_filter.1 h
  obtain ⟨_, active⟩ := List.mem_filter.1 executed
  refine Nat.lt_of_not_le fun beyond => ?_
  rw [rowBits_beyond t.active beyond] at active
  exact absurd active (by decide)

theorem length_passesLeft_le (t : Team) : t.passesLeft.length ≤ 32 := by
  have le := passesLeft_length t
  have all : (t.passesLeft.filter fun row => Nat.blt row 32) = t.passesLeft :=
    List.filter_eq_self.2 fun row hr => Nat.ble_eq.mpr (lt_of_mem_passesLeft hr)
  rwa [all] at le

theorem nameSlices_some {s : State} {k : Nat} (after : Team) (rs : List (Nat × Nat)) (hn : rs.length ≤ 32) (hr : s.SliceRoom k) :
    ∃ s', s.nameSlices k after rs = some s' ∧ Quiet (fun t => t) Core.stillReuse s s' :=
  foldlM_nameSlice_some k _ after rs s (by unfold State.SliceRoom at hr; omega)

section
variable {s : State} {k : Nat} {t : Team} {i : Instr} {e : Nat → Team → Did}

/-- A form that puts its team over changes of the slice store and the reuse table alone completes. -/
theorem run_stored {s1 : State} {u : Team} (h : Ready s k t i) (he : e k t = .done (s1.putTeam k u))
    (quiet : Quiet (fun t => t) Core.stillReuse s s1) : ∃ s', run i s e = .next s' ∧ CompletedPasses i k s s' u := by
  have issuer : (s.putTeam k u).team? k = some u := by rw [State.team?_putTeam, if_pos rfl]
  obtain ⟨past, only⟩ := complete_quiet k i u issuer t (quiet.putTeam k u)
  refine ⟨_, run_done h he, past, fun j hj => ?_, only.cores, rest_trans rfl only.rest, only.memory⟩
  rw [only.others j hj, State.team?_putTeam, if_neg hj]

/-! ### Forms that write one register from values of all lanes -/

/-- A form without an effect completes. -/
theorem run_idle (h : Ready s k t i) (he : e k t = .done s) : ∃ s', run i s e = .next s' ∧ Completed i k s s' t := by
  have ⟨_, issuer, _⟩ := h
  exact ⟨_, run_done h he, complete_spec s k t i t issuer⟩

/-- What a form of row 0x18 does that writes lanes of a register (R175, R187). -/
theorem crossWrite_result {g : BitVec 4} {d : Nat} {across own : List Nat} {f : Team → Nat → Word × BitVec 6}
    (he : exec i s = run i s fun k t => crossWrite s k t g d across own (f t)) (h : Ready s k t i) :
    (t.poisonAcross across own = none → s.SliceRoom k →
      ∃ s' u, exec i s = .next s' ∧ CompletedPasses i k s s' u ∧ WroteLanes t u d (t.takers g) (f t)) ∧
    (∀ row p, t.poisonAcross across own = some (row, p) →
      exec i s = .next (s.takeTrap k p.cause (p.info (t.passesLeft.headD 0)))) ∧
    (t.poisonAcross across own = none →
      s.nameSlices k (t.compute d (t.parts g) (f t)) (t.passesLeft.map fun row => (d, row)) = none →
      exec i s = .next (s.takeTrap k 42 { pass := t.passesLeft.headD 0 })) := by
  rw [he]
  refine ⟨fun clean room => ?_, fun row p poisoned => run_trap h ?_, fun clean full => run_trap h ?_⟩
  · obtain ⟨s1, named, quiet⟩ := nameSlices_some (t.compute d (t.parts g) (f t)) (t.passesLeft.map fun row => (d, row))
      (by rw [List.length_map]; exact length_passesLeft_le t) room
    have writes : crossWrite s k t g d across own (f t) = .done (s1.putTeam k (t.compute d (t.parts g) (f t))) := by
      rw [crossWrite, clean, State.crossDone, named]
    obtain ⟨s', runs, completed⟩ := run_stored (e := fun k t => crossWrite s k t g d across own (f t)) h writes quiet
    exact ⟨s', _, runs, completed, compute_wrote t d (t.takers g) (f t)⟩
  · rw [crossWrite, poisoned]
  · rw [crossWrite, clean, State.crossDone, full]

/-- Forms that give each lane the same value and flags are one. -/
theorem run_crossWrite_congr {g : BitVec 4} {d : Nat} {across own : List Nat} {f f' : Team → Nat → Word × BitVec 6}
    (h : ∀ t l, f t l = f' t l) :
    (run i s fun k t => crossWrite s k t g d across own (f t)) = run i s fun k t => crossWrite s k t g d across own (f' t) := by
  obtain rfl : f = f' := funext fun t => funext (h t)
  rfl

end

/-- The two sequences of a scan stand in the two halves of a lane (R181). -/
theorem pack_halves (pick : List ScanStep → List (Nat × Nat)) (low high : List ScanStep) (l : Nat) :
    (pack 32 fun e => if e == 0 then laneValue (pick low) l else laneValue (pick high) l) =
      pack 32 fun e => laneValue (pick (if e = 0 then low else high)) l :=
  congrArg _ (funext fun e => match e with
    | 0 => rfl
    | _ + 1 => rfl)

theorem find?_lanes (m : Mask) (w : Nat) : (List.range w).find? (fun l => m.getLsbD l) = (lanesOf m w).head? :=
  List.head?_filter.symm

theorem execPfirst_eq (f : FmtV) (s : State) : execPfirst f s = run (.pfirst f) s fun k t =>
    crossWrite s k t f.g f.d.toNat [] [] fun _ =>
      (match (List.range t.width).find? fun l => (t.takers f.g &&& t.pred f.a.toNat).getLsbD l with
        | some l => BitVec.ofNat 64 l
        | none => BitVec.allOnes 64, 0) := by
  refine run_crossWrite_congr fun t _ => ?_
  rw [find?_lanes]
  cases lanesOf (t.takers f.g &&& t.pred f.a.toNat) t.width <;> rfl

theorem scanForm_eq (i : Instr) (f : FmtV) (s : State) (pick : List ScanStep → List (Nat × Nat)) :
    scanForm i f s pick = run i s fun k t => crossWrite s k t f.g f.d.toNat [] [f.a.toNat] fun l =>
      (pack 32 fun e => laneValue (pick (if e = 0 then (scanBoth t f).1 else (scanBoth t f).2.1)) l, (scanBoth t f).2.2) :=
  run_crossWrite_congr fun t l => congrArg (fun w => (w, (scanBoth t f).2.2)) (pack_halves pick _ _ l)

theorem execScanx_eq (f : FmtV) (s : State) : execScanx f s = run (.scanx f) s fun k t =>
    crossWrite s k t f.g f.d.toNat [] [f.a.toNat] fun l =>
      (pack 32 fun e => laneValue ((if e = 0 then (scanBoth t f).1 else (scanBoth t f).2.1).map fun p => (p.lane, p.before)) l,
        prefixFlags (scanBoth t f).1 ||| prefixFlags (scanBoth t f).2.1) := by
  simp only [execScanx, pack_halves fun ps => ps.map fun p => (p.lane, p.before)]

theorem crossLaneResults_claim : Claim.CrossLaneResults := by
  intro x hx f s k t
  have he : exec (x.1 f) s = run (x.1 f) s fun k t => crossWrite s k t f.g f.d.toNat (x.2.1 f) (x.2.2.1 f) (x.2.2.2 f t) := by
    simp only [List.mem_cons, List.not_mem_nil, or_false] at hx
    rcases hx with rfl | rfl | rfl | rfl | rfl | rfl | rfl | rfl | rfl | rfl | rfl
    iterate 3 rfl
    · show execBallot f s = _
      simp only [execBallot, Nat.blt_eq]
    · rfl
    · exact execPfirst_eq f s
    · exact scanForm_eq _ f s _
    · exact execScanx_eq f s
    · exact scanForm_eq _ f s segmentTotals
    iterate 2 rfl
  exact crossWrite_result he

/-! ### The places of a scan (R181, R182) -/

section
variable (op : BitVec 2) (head : Nat → Bool) (x : Nat → Nat)

/-- The place of a lane in a scan, from what the place before it holds in its segment, if any. -/
def scanPlace (l : Nat) (acc : Option Nat) : ScanStep :=
  match if head l then none else acc with
  | none => { lane := l, first := true, before := scanId op, upTo := x l, flags := 0 }
  | some a => { lane := l, first := false, before := a, upTo := (scanOp op a (x l)).1, flags := (scanOp op a (x l)).2 }

theorem scanFrom_cons (l : Nat) (ls : List Nat) (acc : Option Nat) :
    scanFrom op head x (l :: ls) acc =
      scanPlace op head x l acc :: scanFrom op head x ls (some (scanPlace op head x l acc).upTo) := by
  rw [scanFrom, scanPlace]
  generalize (if head l = true then none else acc) = start
  cases start <;> rfl

theorem scanPlace_lane (l : Nat) (acc : Option Nat) : (scanPlace op head x l acc).lane = l := by
  rw [scanPlace]
  split <;> rfl

theorem scanFrom_lanes (ls : List Nat) (acc : Option Nat) : (scanFrom op head x ls acc).map (fun p => p.lane) = ls := by
  induction ls generalizing acc with
  | nil => rfl
  | cons l ls ih =>
    rw [scanFrom_cons, List.map_cons, ih, scanPlace_lane]

/-- What a place of a scan holds: the start of a segment, or one combination more. -/
def ScanStep.Holds (p : ScanStep) : Prop :=
  (p.first = true → p.before = scanId op ∧ p.upTo = x p.lane ∧ p.flags = 0) ∧
    (p.first = false → (p.upTo, p.flags) = scanOp op p.before (x p.lane))

theorem scanPlace_holds (l : Nat) (acc : Option Nat) : (scanPlace op head x l acc).Holds op x := by
  rw [scanPlace]
  split
  · exact And.intro (fun _ => ⟨rfl, rfl, rfl⟩) fun h => nomatch h
  · exact And.intro (fun h => nomatch h) fun _ => rfl

theorem scanFrom_holds (ls : List Nat) (acc : Option Nat) : ∀ p ∈ scanFrom op head x ls acc, p.Holds op x := by
  induction ls generalizing acc with
  | nil => exact fun p hp => nomatch hp
  | cons l ls ih =>
    rw [scanFrom_cons]
    exact List.forall_mem_cons.2 ⟨scanPlace_holds op head x l acc, ih _⟩

/-- A place after another begins a segment where the head test says so, and goes on from that other one elsewhere. -/
theorem scanPlace_after (l a : Nat) :
    (scanPlace op head x l (some a)).first = head l ∧
      ((scanPlace op head x l (some a)).first = false → (scanPlace op head x l (some a)).before = a) := by
  rw [scanPlace]
  cases head l
  · exact ⟨rfl, fun _ => rfl⟩
  · exact ⟨rfl, fun h => nomatch h⟩

theorem scanFrom_neighbours (ls : List Nat) (acc : Option Nat) (p q : ScanStep)
    (h : (p, q) ∈ (scanFrom op head x ls acc).zip ((scanFrom op head x ls acc).drop 1)) :
    q.first = head q.lane ∧ (q.first = false → q.before = p.upTo) := by
  induction ls generalizing acc with
  | nil => exact absurd h List.not_mem_nil
  | cons l ls ih =>
    cases ls with
    | nil =>
      rw [scanFrom_cons] at h
      exact absurd h List.not_mem_nil
    | cons l' ls =>
      have rest := ih (some (scanPlace op head x l acc).upTo)
      rw [scanFrom_cons op head x l, List.drop_one, List.tail_cons] at h
      rw [scanFrom_cons] at h rest
      rcases List.mem_cons.1 h with here | later
      · obtain ⟨rfl, rfl⟩ := Prod.mk.inj here
        rw [scanPlace_lane]
        exact scanPlace_after op head x l' _
      · exact rest later

end

theorem foldl_flags_getLsbD {α : Type} (skip : α → Bool) (fl : α → BitVec 6) (xs : List α) (z : BitVec 6) (b : Nat) :
    (xs.foldl (fun z x => if skip x then z else z ||| fl x) z).getLsbD b = true ↔
      z.getLsbD b = true ∨ ∃ x ∈ xs, skip x = false ∧ (fl x).getLsbD b = true := by
  induction xs generalizing z with
  | nil => simp
  | cons x xs ih =>
    rw [List.foldl_cons, ih]
    cases hs : skip x <;> simp [hs, or_assoc]

theorem prefixFlags_getLsbD (ps : List ScanStep) (b : Nat) : (prefixFlags ps).getLsbD b = true ↔
    ∃ p q, (p, q) ∈ ps.zip (ps.drop 1) ∧ q.first = false ∧ p.flags.getLsbD b = true := by
  have bits := foldl_flags_getLsbD (fun p : ScanStep × ScanStep => p.2.first) (fun p => p.1.flags) (ps.zip (ps.drop 1)) 0 b
  have start : (0 : BitVec 6).getLsbD b = false := BitVec.getLsbD_zero
  rw [start, or_iff_right Bool.false_ne_true, Prod.exists] at bits
  exact bits

theorem scanPlaces_claim : Claim.ScanPlaces := by
  refine ⟨fun op head x ls => ⟨scanFrom_lanes op head x ls none, fun p rest hp => ?_,
    fun p hp => (scanFrom_holds op head x ls none p hp).1, fun p hp => (scanFrom_holds op head x ls none p hp).2,
    fun p q => scanFrom_neighbours op head x ls none p q⟩, prefixFlags_getLsbD⟩
  cases ls with
  | nil => exact nomatch hp
  | cons l ls =>
    rw [scanFrom_cons] at hp
    obtain ⟨rfl, _⟩ := List.cons.inj hp
    rw [scanPlace, ite_self]

/-! ### Single lanes (R178) -/

section
variable {f : FmtV} {s : State} {k : Nat} {t : Team}

/-- What LEXT does at the lane that its scalar names. -/
def lextEffect (f : FmtV) (s : State) (k : Nat) (t : Team) : Did :=
  if t.parts f.g == 0 then .done s
  else if Nat.ble t.width (t.s f.b).toNat then .done (s.putTeam k (t.setS f.d 0))
  else
    match t.poisonOf f.a.toNat ((t.s f.b).toNat / 32) with
    | some p => .trap p.cause (p.info (t.passesLeft.headD 0)) s
    | none => .done (s.putTeam k (t.setS f.d (t.lane f.a.toNat (t.s f.b).toNat)))

theorem exec_lext (f : FmtV) (s : State) : exec (.lext f) s = run (.lext f) s (lextEffect f s) := rfl

theorem lextEffect_idle (h : t.parts f.g = 0) : lextEffect f s k t = .done s := if_pos (beq_iff_eq.2 h)

theorem lextEffect_beyond (h : t.parts f.g ≠ 0) (hj : t.width ≤ (t.s f.b).toNat) :
    lextEffect f s k t = .done (s.putTeam k (t.setS f.d 0)) := by
  rw [lextEffect, if_neg (by simpa using h), if_pos (Nat.ble_eq.mpr hj)]

theorem lextEffect_within (h : t.parts f.g ≠ 0) (hj : (t.s f.b).toNat < t.width) :
    lextEffect f s k t = match t.poisonOf f.a.toNat ((t.s f.b).toNat / 32) with
      | some p => .trap p.cause (p.info (t.passesLeft.headD 0)) s
      | none => .done (s.putTeam k (t.setS f.d (t.lane f.a.toNat (t.s f.b).toNat))) := by
  rw [lextEffect, if_neg (by simpa using h), if_neg (by rw [Nat.ble_eq]; omega)]

theorem lext_result (h : Ready s k t (.lext f)) :
    (t.parts f.g = 0 → ∃ s', exec (.lext f) s = .next s' ∧ Completed (.lext f) k s s' t) ∧
    (t.parts f.g ≠ 0 → t.width ≤ (t.s f.b).toNat → ∃ s', exec (.lext f) s = .next s' ∧
      Completed (.lext f) k s s' (t.setS f.d 0)) ∧
    (t.parts f.g ≠ 0 → (t.s f.b).toNat < t.width → t.poisonOf f.a.toNat ((t.s f.b).toNat / 32) = none →
      ∃ s', exec (.lext f) s = .next s' ∧ Completed (.lext f) k s s' (t.setS f.d (t.lane f.a.toNat (t.s f.b).toNat))) ∧
    ∀ p, t.parts f.g ≠ 0 → (t.s f.b).toNat < t.width → t.poisonOf f.a.toNat ((t.s f.b).toNat / 32) = some p →
      exec (.lext f) s = .next (s.takeTrap k p.cause (p.info (t.passesLeft.headD 0))) := by
  rw [exec_lext]
  refine ⟨fun idle => run_idle h (lextEffect_idle idle), fun part beyond => run_team h (lextEffect_beyond part beyond),
    fun part within clean => run_team h ?_, fun p part within poisoned => run_trap h ?_⟩
  · rw [lextEffect_within part within, clean]
  · rw [lextEffect_within part within, poisoned]

/-- The lane that LINS writes, where it writes one. -/
theorem linsLane_iff : (Nat.blt (t.s f.b).toNat t.width && (t.parts f.g).getLsbD (t.s f.b).toNat) = true ↔
    (t.s f.b).toNat < t.width ∧ (t.takers f.g).getLsbD (t.s f.b).toNat = true ∧ 32 * t.resume ≤ (t.s f.b).toNat := by
  rw [Bool.and_eq_true, Nat.blt_eq, Team.parts, and_rowsMask, Bool.and_eq_true, decide_eq_true_iff]

/-- The team after LINS has written lane j (R178). -/
def Team.inserted (t : Team) (d j : Nat) (w : Word) : Team := t.writeV d (1#1024 <<< j) fun _ => w

theorem Team.inserted_eq (t : Team) (d j : Nat) (w : Word) : t.inserted d j w =
    { t with v := (t.inserted d j w).v, poison := (t.inserted d j w).poison, unread := (t.inserted d j w).unread } := rfl

theorem Team.vreg_inserted_ne (t : Team) {d r : Nat} (h : r ≠ d) (j : Nat) (w : Word) : (t.inserted d j w).vreg r = t.vreg r :=
  Table.getD_put_ne _ _ _ h

theorem Team.lane_inserted (t : Team) (d : Nat) {j l : Nat} (w : Word) (hj : j < 1024) (hl : l < t.width) :
    (t.inserted d j w).lane d l = if l = j then w else t.lane d l := by
  refine (t.lane_setLanes d l (1#1024 <<< j) (fun _ => w) hl).trans (ite_eq_of_iff ?_ _ _)
  rw [← BitVec.twoPow_eq, BitVec.getLsbD_twoPow, Bool.and_eq_true, decide_eq_true_iff, decide_eq_true_iff]
  exact ⟨fun h => h.2.symm, fun h => ⟨hj, h.symm⟩⟩

/-- What LINS does at the lane that its scalar names. -/
def linsEffect (f : FmtV) (s : State) (k : Nat) (t : Team) : Did :=
  if Nat.blt (t.s f.b).toNat t.width && (t.parts f.g).getLsbD (t.s f.b).toNat then
    match s.nameSlices k (t.inserted f.d.toNat (t.s f.b).toNat (t.s f.a)) [(f.d.toNat, (t.s f.b).toNat / 32)] with
    | some s1 => .done (s1.putTeam k (t.inserted f.d.toNat (t.s f.b).toNat (t.s f.a)))
    | none => .trap 42 { pass := t.passesLeft.headD 0 } s
  else .done s

theorem exec_lins (f : FmtV) (s : State) : exec (.lins f) s = run (.lins f) s (linsEffect f s) := rfl

theorem lins_result (h : Ready s k t (.lins f)) (room : s.SliceRoom k) :
    ∃ s' u, exec (.lins f) s = .next s' ∧ CompletedPasses (.lins f) k s s' u ∧
      (∀ l, l < t.width → u.lane f.d.toNat l =
        if l = (t.s f.b).toNat ∧ (t.takers f.g).getLsbD l ∧ 32 * t.resume ≤ l then t.s f.a else t.lane f.d.toNat l) ∧
      (∀ r, r ≠ f.d.toNat → u.vreg r = t.vreg r) ∧ u = { t with v := u.v, poison := u.poison, unread := u.unread } := by
  rw [exec_lins]
  by_cases written : (t.s f.b).toNat < t.width ∧ (t.takers f.g).getLsbD (t.s f.b).toNat = true ∧ 32 * t.resume ≤ (t.s f.b).toNat
  · obtain ⟨s1, named, quiet⟩ := nameSlices_some (t.inserted f.d.toNat (t.s f.b).toNat (t.s f.a))
      [(f.d.toNat, (t.s f.b).toNat / 32)] (Nat.le_add_left 1 31) room
    obtain ⟨s', runs, completed⟩ := run_stored (e := linsEffect f s) h
      (by rw [linsEffect, if_pos (linsLane_iff.2 written), named]) quiet
    obtain ⟨_, takes, resumed⟩ := written
    refine ⟨s', _, runs, completed, fun l hl => ?_, fun r hr => t.vreg_inserted_ne hr _ _, t.inserted_eq _ _ _⟩
    rw [t.lane_inserted _ _ (BitVec.lt_of_getLsbD takes) hl]
    exact ite_eq_of_iff ⟨fun same => ⟨same, same ▸ takes, same ▸ resumed⟩, fun at_ => at_.1⟩ _ _
  · obtain ⟨s', runs, past, only⟩ := run_idle h (e := linsEffect f s) (if_neg (mt linsLane_iff.1 written))
    refine ⟨s', t, runs, ⟨past, only.others, fun c => Core.stillReuse_of_still _ _ (only.cores c), only.rest, only.memory⟩,
      fun l hl => ?_, fun _ _ => rfl, rfl⟩
    rw [if_neg]
    rintro ⟨rfl, takes, resumed⟩
    exact written ⟨hl, takes, resumed⟩

end

/-! ### Votes (R180) -/

/-- Two masks share no lane. -/
theorem and_eq_zero (m p : Mask) : (m &&& p == 0) = !(List.range 1024).any fun j => m.getLsbD j && p.getLsbD j := by
  rw [Bool.eq_iff_iff, beq_iff_eq, Bool.not_eq_true', List.any_eq_false]
  refine ⟨fun h j _ => ?_, fun h => BitVec.eq_of_getLsbD_eq fun j hj => ?_⟩
  · rw [← BitVec.getLsbD_and, h]
    simp
  · rw [BitVec.getLsbD_and, Bool.eq_false_iff.2 (h j (List.mem_range.2 hj))]
    exact BitVec.getLsbD_zero.symm

/-- No lane of a mask is outside another. -/
theorem and_not_eq_zero (m p : Mask) : (m &&& ~~~p == 0) = (List.range 1024).all fun j => !m.getLsbD j || p.getLsbD j := by
  rw [and_eq_zero, List.not_any_eq_all_not, Bool.eq_iff_iff, List.all_eq_true, List.all_eq_true]
  refine forall₂_congr fun j hj => ?_
  rw [BitVec.getLsbD_not, decide_eq_true (List.mem_range.1 hj), Bool.true_and, Bool.not_and, Bool.not_not]

/-- The result of a vote as a predicate: all lanes or none. -/
def allOrNone (b : Bool) : Mask := if b then BitVec.allOnes 1024 else 0

theorem allOrNone_not (b : Bool) : allOrNone b = if !b then 0 else BitVec.allOnes 1024 := by cases b <;> rfl

theorem getLsbD_allOrNone (b : Bool) {l : Nat} (hl : l < 1024) : (allOrNone b).getLsbD l = b := by
  cases b
  · exact BitVec.getLsbD_zero
  · exact getLsbD_allLanes hl

theorem vote_result {f : FmtV} {s : State} {k : Nat} {t : Team} {i : Instr} {verdict : FmtV → Team → Bool}
    (he : exec i s = run i s fun k t =>
      .done (s.putTeam k (t.setPred f.d.toNat (t.takers f.g) (allOrNone (verdict f t)))))
    (h : Ready s k t i) :
    ∃ s' u, exec i s = .next s' ∧ Completed i k s s' u ∧
      (∀ l, l < 1024 → (u.pred f.d.toNat).getLsbD l =
        if f.d ≠ 0 ∧ (t.takers f.g).getLsbD l then verdict f t else (t.pred f.d.toNat).getLsbD l) ∧
      (∀ j, j ≠ f.d.toNat → u.pred j = t.pred j) ∧ u = { t with p := u.p } := by
  rw [he]
  obtain ⟨s', runs, completed⟩ := run_change h
  refine ⟨s', _, runs, completed, fun l hl => ?_, fun j hj => t.pred_setPred_ne hj _ _, t.setPred_eq _ _ _⟩
  have field : f.d.toNat ≠ 0 ↔ f.d ≠ 0 := not_congr (BitVec.toNat_inj (y := 0))
  rw [t.pred_setPred_lane _ _ _ _ hl, getLsbD_allOrNone _ hl]
  exact ite_eq_of_iff (by rw [field, eq_self, true_and]) _ _

theorem exec_vany (f : FmtV) (s : State) : exec (.vany f) s = run (.vany f) s fun k t =>
    .done (s.putTeam k (t.setPred f.d.toNat (t.takers f.g)
      (allOrNone ((List.range 1024).any fun j => (t.takers f.g).getLsbD j && (t.pred f.a.toNat).getLsbD j)))) := by
  simp only [allOrNone_not, ← and_eq_zero]
  rfl

theorem exec_vall (f : FmtV) (s : State) : exec (.vall f) s = run (.vall f) s fun k t =>
    .done (s.putTeam k (t.setPred f.d.toNat (t.takers f.g)
      (allOrNone ((List.range 1024).all fun j => !(t.takers f.g).getLsbD j || (t.pred f.a.toNat).getLsbD j)))) := by
  simp only [← and_not_eq_zero]
  rfl

theorem singleLanesAndVotes_claim : Claim.SingleLanesAndVotes := by
  refine fun f s k t => ⟨lext_result, lins_result, fun x hx => ?_⟩
  have he : exec (x.1 f) s = run (x.1 f) s fun k t =>
      .done (s.putTeam k (t.setPred f.d.toNat (t.takers f.g) (allOrNone (x.2 f t)))) := by
    simp only [List.mem_cons, List.not_mem_nil, or_false] at hx
    rcases hx with rfl | rfl <;> dsimp only
    · exact exec_vany f s
    · exact exec_vall f s
  exact vote_result he

/-- Settles O10: a form that writes lanes of a register is `crossWrite` of what it gives to each lane, a scan makes its places one
after another, LEXT and LINS look at one lane, and a vote sets a predicate to all lanes or to none. -/
theorem crossLane : Obligations.CrossLane := ⟨crossLaneResults_claim, scanPlaces_claim, singleLanesAndVotes_claim⟩

end Sys2Proof.Machine
end

section
/-! SUPPORT. Compaction (R183 to R185): the packed team, the names of its slices, and the proof of O11 from both. -/

namespace Sys2Proof.Machine

/-! ### The packed team (R184) -/

theorem fullMask_getLsbD (c : Nat) {l : Nat} (hl : l < 1024) : (fullMask c).getLsbD l = decide (l < c) := by
  rw [fullMask, BitVec.getLsbD_ofNat, Nat.testBit_two_pow_sub_one, decide_eq_true hl, Bool.true_and]

theorem Team.vreg_compacted (t : Team) {r : Nat} (h : t.vreg r ≠ []) :
    t.compacted.vreg r = (List.range t.width).map fun k =>
      if k < (lanesOf t.live t.width).length then t.lane r ((lanesOf t.live t.width).getD k 0) else 0 := by
  cases stored : Table.find? t.v r with
  | none => exact absurd (by rw [Team.vreg, Table.getD, stored]) h
  | some xs =>
    simp only [Team.vreg, Team.compacted, Table.getD, Table.find?_mapVals, stored, Option.map_some, Nat.blt_eq, Team.lane]

theorem Team.lane_compacted (t : Team) {r l : Nat} (h : t.vreg r ≠ []) (hl : l < t.width) :
    t.compacted.lane r l =
      if l < (lanesOf t.live t.width).length then t.lane r ((lanesOf t.live t.width).getD l 0) else 0 := by
  rw [Team.lane, t.vreg_compacted h, List.getD_eq_getElem?_getD, List.getElem?_map, List.getElem?_range hl]
  rfl

theorem Team.pred_compacted (t : Team) {n : Nat} (hn : n ≠ 0) (h : Table.find? t.p n ≠ none) :
    t.compacted.pred n = maskOf t.width fun k =>
      Nat.blt k (lanesOf t.live t.width).length && (t.pred n).getLsbD ((lanesOf t.live t.width).getD k 0) := by
  obtain ⟨m, stored⟩ := Option.ne_none_iff_exists'.1 h
  simp only [Team.pred, Team.compacted, Table.getD, Table.find?_mapVals, stored, Option.map_some, beq_iff_eq, if_neg hn]

theorem Team.pred_compacted_lane (t : Team) {n l : Nat} (hw : t.width ≤ 1024) (hn : n ≠ 0) (h : Table.find? t.p n ≠ none)
    (hl : l < t.width) :
    (t.compacted.pred n).getLsbD l =
      if l < (lanesOf t.live t.width).length then (t.pred n).getLsbD ((lanesOf t.live t.width).getD l 0) else false := by
  rw [t.pred_compacted hn h, maskOf_getLsbD _ _ (by omega), decide_eq_true hl, Bool.true_and]
  have below : Nat.blt l (lanesOf t.live t.width).length = decide (l < (lanesOf t.live t.width).length) := by
    rw [Bool.eq_iff_iff, Nat.blt_eq, decide_eq_true_iff]
  rw [below, Bool.if_false_right]

theorem Team.poisonOf_isSome_iff (t : Team) (r row : Nat) :
    (t.poisonOf r row).isSome = true ↔ ∃ p ∈ t.poison, p.reg = r ∧ p.row = row := by
  simp [Team.poisonOf, List.find?_isSome]

/-- A mark of poison goes to every new mask word that takes a lane from its old one. -/
theorem Team.mem_poison_compacted (t : Team) (q : Poison) : q ∈ t.compacted.poison ↔
    ∃ p ∈ t.poison, ∃ row < t.rows, (∃ i < 32, 32 * row + i < (lanesOf t.live t.width).length ∧
      (lanesOf t.live t.width).getD (32 * row + i) 0 / 32 = p.row) ∧ { p with row := row } = q := by
  simp only [Team.compacted, List.mem_flatMap, List.mem_filterMap, List.mem_range, Option.ite_none_right_eq_some,
    List.any_eq_true, Bool.and_eq_true, Nat.blt_eq, beq_iff_eq, Option.some.injEq]

theorem Team.poisonOf_compacted (t : Team) (r row : Nat) : (t.compacted.poisonOf r row).isSome = true ↔
    row < t.rows ∧ ∃ i, i < 32 ∧ 32 * row + i < (lanesOf t.live t.width).length ∧
      (t.poisonOf r ((lanesOf t.live t.width).getD (32 * row + i) 0 / 32)).isSome = true := by
  simp only [Team.poisonOf_isSome_iff, Team.mem_poison_compacted]
  constructor
  · rintro ⟨_, ⟨p, hp, row', hrow, ⟨i, hi, live, from_⟩, rfl⟩, rfl, rfl⟩
    exact ⟨hrow, i, hi, live, p, hp, rfl, from_.symm⟩
  · rintro ⟨hrow, i, hi, live, p, hp, rfl, from_⟩
    exact ⟨_, ⟨p, hp, row, hrow, ⟨i, hi, live, from_.symm⟩, rfl⟩, rfl, rfl⟩

theorem Team.compacted_eq (t : Team) : t.compacted =
    { t with v := t.compacted.v, p := t.compacted.p, home := t.compacted.home, live := t.compacted.live
             active := t.compacted.active, poison := t.compacted.poison, unread := t.compacted.unread } := rfl

theorem length_lanesOf_le (m : Mask) (w : Nat) : (lanesOf m w).length ≤ w :=
  Nat.le_trans (List.length_filter_le _ _) (Nat.le_of_eq List.length_range)

/-! ### The names of its slices (R185) -/

/-- Steps that take up to n places of a slice store each take as many all together, where it has them. -/
theorem stored_foldl {α β : Type} {core n : Nat} (st : β → State) (f : β → α → β)
    (hf : ∀ b x, ((st b).core core).slices.length + n ≤ sliceRoom → Stored n core (st b) (st (f b x))) (xs : List α) (b : β)
    (h : ((st b).core core).slices.length + xs.length * n ≤ sliceRoom) :
    Stored (xs.length * n) core (st b) (st (xs.foldl f b)) := by
  induction xs generalizing b with
  | nil => exact ⟨Quiet.refl _ _ _, Nat.le_add_right _ _⟩
  | cons x xs ih =>
    rw [List.length_cons, Nat.add_one_mul, Nat.add_comm] at h ⊢
    have first := hf b x (by omega)
    exact first.trans (ih (f b x) (by have := first.room; omega))

/-- What `readSlices` does with one slice. -/
def State.readSlice (core : Nat) (busy : List Nat) (a : State) (id : Nat) : State :=
  match (a.core core).slices.find? fun y => y.id == id with
  | none => a
  | some y =>
    let b := a.putCore core { a.core core with
      slices := { y with place := none } :: (a.core core).slices.filter fun z => z.id != id }
    if y.place.isNone || Nat.blt (a.core core).resident sliceRoom then b else (b.spillSlice core busy).getD b

theorem readSlices_eq (s : State) (core : Nat) (ids : List Nat) :
    s.readSlices core ids = ids.foldl (State.readSlice core ids) s := rfl

theorem Core.resident_lt {x : Core} {y : Slice} (hy : y ∈ x.slices) (spilled : y.place.isNone = false) :
    x.resident < x.slices.length :=
  List.length_filter_lt_length_iff_exists.2 ⟨y, hy, by simp [spilled]⟩

/-- A spilled slice comes back without another having to go, while the slices fit on the core (R129). -/
theorem stored_readSlice (s : State) (core : Nat) (busy : List Nat) (id : Nat) (h : (s.core core).slices.length + 0 ≤ sliceRoom) :
    Stored 0 core s (s.readSlice core busy id) := by
  unfold State.readSlice
  split
  · exact Stored.refl _ _
  · rename_i y found
    have mem := List.mem_of_find?_eq_some found
    have named : (y.id == id) = true := List.find?_some (p := fun y : Slice => y.id == id) found
    have fewer : ((s.core core).slices.filter fun z => z.id != id).length < (s.core core).slices.length :=
      List.length_filter_lt_length_iff_exists.2 ⟨y, mem, by simpa using named⟩
    have space : (y.place.isNone || Nat.blt (s.core core).resident sliceRoom) = true := by
      cases spilled : y.place.isNone
      · have := Core.resident_lt mem spilled
        rw [Bool.false_or, Nat.blt_eq]
        omega
      · rfl
    dsimp only
    rw [if_pos space]
    exact stored_putCore s core 0 _ rfl fewer

theorem stored_readSlices (s : State) (core : Nat) (ids : List Nat) (h : (s.core core).slices.length ≤ sliceRoom) :
    Stored 0 core s (s.readSlices core ids) :=
  stored_foldl (n := 0) (fun b => b) (State.readSlice core ids) (fun a i => stored_readSlice a core ids i) ids s h

/-- One new slice of a register: its name joins those that its register has already got. -/
def State.nameRow (k : Nat) (after : Team) (r : Nat) (olds : List Nat) (c : State × List (Nat × Nat)) (row : Nat) :
    State × List (Nat × Nat) :=
  match c.1.nameValue (coreOf k) 0 (after.slice r row) (after.poisonOf r row).isSome (olds ++ c.2.map Prod.snd) with
  | some (c1, id) => (c1, c.2 ++ [(sliceKey k r row, id)])
  | none => c

theorem stored_nameRow (k : Nat) (after : Team) (r : Nat) (olds : List Nat) (c : State × List (Nat × Nat)) (row : Nat)
    (h : (c.1.core (coreOf k)).slices.length + 1 ≤ sliceRoom) :
    Stored 1 (coreOf k) c.1 (State.nameRow k after r olds c row).1 := by
  obtain ⟨s1, id, named, stored⟩ := nameValue_some c.1 (coreOf k) 0 (after.slice r row) (after.poisonOf r row).isSome
    (olds ++ c.2.map Prod.snd) h
  rw [State.nameRow, named]
  exact stored

/-- The core once the names of a register are mapped and its old slices have lost their counts (R127). -/
def Core.renamed (x : Core) (named : List (Nat × Nat)) (olds : List Nat) : Core :=
  olds.foldl (fun x id => x.freeSlice id) (named.foldl (fun x y => x.setName y.1 y.2) x)

/-- A change of a core that only concerns its slice store or its reuse table, and adds no slice. -/
def Core.NoMore (x y : Core) : Prop := y.stillReuse = x.stillReuse ∧ y.slices.length ≤ x.slices.length

theorem Core.NoMore.trans {x y z : Core} (h : x.NoMore y) (g : y.NoMore z) : x.NoMore z := ⟨g.1.trans h.1, Nat.le_trans g.2 h.2⟩

theorem Core.noMore_foldl {α : Type} (f : Core → α → Core) (hf : ∀ (x : Core) a, x.NoMore (f x a)) (xs : List α) (x : Core) :
    x.NoMore (xs.foldl f x) := by
  induction xs generalizing x with
  | nil => exact ⟨rfl, Nat.le_refl _⟩
  | cons a xs ih => exact (hf x a).trans (ih (f x a))

theorem Core.noMore_renamed (x : Core) (named : List (Nat × Nat)) (olds : List Nat) : x.NoMore (x.renamed named olds) := by
  have mapped := noMore_foldl (fun x (y : Nat × Nat) => x.setName y.1 y.2) (fun _ _ => ⟨rfl, Nat.le_refl _⟩) named x
  have freed := noMore_foldl (fun x id => x.freeSlice id) (fun x id => ⟨x.stillReuse_freeSlice id, x.slices_freeSlice id⟩) olds
  exact mapped.trans (freed _)

theorem nameRegister_eq (s : State) (k : Nat) (after : Team) (r : Nat) :
    let olds := (List.range after.rows).map fun row => s.nameOf k r row
    let named := (List.range after.rows).foldl (State.nameRow k after r olds) (s.readSlices (coreOf k) olds, [])
    s.nameRegister k after r = named.1.putCore (coreOf k) ((named.1.core (coreOf k)).renamed named.2 olds) := rfl

theorem stored_nameRegister (s : State) (k : Nat) (after : Team) (r : Nat)
    (h : (s.core (coreOf k)).slices.length + after.rows ≤ sliceRoom) :
    Stored after.rows (coreOf k) s (s.nameRegister k after r) := by
  rw [nameRegister_eq]
  generalize ((List.range after.rows).map fun row => s.nameOf k r row) = olds
  have read := stored_readSlices s (coreOf k) olds (by omega)
  have named := stored_foldl (n := 1) Prod.fst (State.nameRow k after r olds) (stored_nameRow k after r olds)
    (List.range after.rows) (s.readSlices (coreOf k) olds, [])
    (by rw [List.length_range]; have := read.room; dsimp only; omega)
  rw [List.length_range, Nat.mul_one] at named
  generalize (List.range after.rows).foldl (State.nameRow k after r olds) (s.readSlices (coreOf k) olds, []) = c at named ⊢
  obtain ⟨view, fewer⟩ := (c.1.core (coreOf k)).noMore_renamed c.2 olds
  have all := (read.trans named).trans (stored_putCore c.1 (coreOf k) 0 _ view fewer)
  rwa [Nat.zero_add, Nat.add_zero] at all

theorem quiet_nameCompacted (s : State) (k : Nat) (after : Team)
    (h : (s.core (coreOf k)).slices.length + after.v.length * after.rows ≤ sliceRoom) :
    Quiet (fun t => t) Core.stillReuse s (s.nameCompacted k after) := by
  have all := stored_foldl (fun b => b) (fun (b : State) (e : Nat × Lanes) => b.nameRegister k after e.1)
    (fun b e => stored_nameRegister b k after e.1) after.v s h
  exact all.quiet

/-! ### COMPACT -/

section
variable {s : State} {k : Nat} {t : Team}

/-- What COMPACT does (R183 to R185). -/
def compactEffect (s : State) (k : Nat) (t : Team) : Did :=
  if !t.stack.isEmpty then .trap 9 {} s
  else if !s.compactRoom k t then .trap 42 {} s
  else .done ((s.nameCompacted k t.compacted).putTeam k t.compacted)

theorem exec_compact (f : FmtV) (s : State) : exec (.compact f) s = run (.compact f) s (compactEffect s) := rfl

theorem compactEffect_split (h : t.stack ≠ []) : compactEffect s k t = .trap 9 {} s := by
  rw [compactEffect, List.isEmpty_eq_false_iff.2 h]
  rfl

theorem compactEffect_full (h : t.stack = []) (full : s.compactRoom k t = false) : compactEffect s k t = .trap 42 {} s := by
  rw [compactEffect, h, full]
  rfl

theorem compactEffect_packs (h : t.stack = []) (room : s.compactRoom k t = true) :
    compactEffect s k t = .done ((s.nameCompacted k t.compacted).putTeam k t.compacted) := by
  rw [compactEffect, h, room]
  rfl

end

theorem Team.length_v_compacted (t : Team) : t.compacted.v.length = t.v.length := List.length_map _

/-- Settles O11: COMPACT stops by its two checks or puts the packed team, whose fields are read off one by one; its slices find
their names without a spill where the store has a place for each. -/
theorem compaction : Obligations.Compaction := by
  intro f s k t h hw
  rw [exec_compact]
  refine ⟨fun split => run_trap h (compactEffect_split split), fun empty full => run_trap h (compactEffect_full empty full),
    fun empty room places => ?_⟩
  obtain ⟨s', runs, completed⟩ := run_stored h (compactEffect_packs empty room)
    (quiet_nameCompacted s k t.compacted (by rw [t.length_v_compacted]; exact places))
  refine ⟨s', _, runs, completed, fun r hr l hl => t.lane_compacted hr hl,
    fun n hn hp l hl => t.pred_compacted_lane hw hn hp hl, rfl, fun l hl => ?_, t.poisonOf_compacted, t.compacted_eq⟩
  exact ⟨fullMask_getLsbD _ hl, fullMask_getLsbD _ hl⟩

end Sys2Proof.Machine
end
